-- ==== Sys2Proof/Word.lean ====
section
/-! DEFINITION. The word types of the model and the sparse table every RAM and register array is held in. -/

namespace Sys2Proof

/-- A byte (R6: one byte is 8 bits). -/
abbrev Byte := BitVec 8

/-- A 32-bit word: a lane of a vector register, a uniform register, a window register. -/
abbrev Word := BitVec 32

/-- A 64-bit word: one instruction word (R97), a Locus entry field. -/
abbrev DWord := BitVec 64

/-- A 144/128 codeword (R320): bits [127:0] data, bits [143:128] check field. -/
abbrev Code := BitVec 144

/-- A sparse table: (index, value) pairs, indices strictly rising, no value 0; an index that is not listed reads as 0. -/
abbrev Cells (w : Nat) := List (Nat × BitVec w)

end Sys2Proof
end

