-- ==== Sys2Proof/Syntax.lean ====
section
/-! DEFINITION. The commands: one constructor per row of spec/opcode_table.json, with the operands the environment
decides. `f` is a physical Facet (52 * die + mm, R22), `slot` a group slot of it (0-63), `q` a quadrant, `req` a line
request, `j` a function (0 for PF0, 1-16 for VFj), `r` a Locus ring, `p` a Chord port, `k` a stack, `pc` a
pseudo-channel, `v` a 32-bit value written to a window register. A group command names the group that issues the
instruction at its own address; the instruction's fields are those of the word in the code store (R92, R97). -/

namespace Sys2Proof

/-- A symbol error met by one read of the cells and gone at the next: word of the sector, symbol, value (R323). -/
abbrev Noise := List (Nat × Nat × Nat)

/-- What a start finds outside the state (R493): what the PUF array powers up to (R495), the Facets that fail self-test, the
pseudo-channels (64 * stack + pc) and symbols of the pins that fail training, the stacks and the dies (CD0 to CD3, IO0, IO1)
that fail training, and the store blocks (die, plane, block) with a factory mark or that fail. -/
structure StartReport where
  puf : List Byte
  badFacets : List Nat
  badPins : List (Nat × Nat)
  badStacks : List Nat
  badDies : List Nat
  badBlocks : List (Nat × Nat × Nat)
  deriving DecidableEq, Repr

/-- The commands of the block. -/
inductive Instr where
  -- integer class, R107
  | mov (f slot : Nat) | movs (f slot : Nat) | iadd (f slot : Nat) | isub (f slot : Nat) | imul (f slot : Nat)
  | imulh (f slot : Nat) | imad (f slot : Nat) | imin (f slot : Nat) | imax (f slot : Nat) | iabs (f slot : Nat)
  | and (f slot : Nat) | or (f slot : Nat) | xor (f slot : Nat) | not (f slot : Nat) | shl (f slot : Nat)
  | shr (f slot : Nat) | sar (f slot : Nat) | popc (f slot : Nat) | clz (f slot : Nat) | icmp (f slot : Nat)
  | sel (f slot : Nat) | iadd64 (f slot : Nat) | imad64 (f slot : Nat)
  -- floating point, R108
  | fadd (f slot : Nat) | fmul (f slot : Nat) | ffma (f slot : Nat) | fmin (f slot : Nat) | fmax (f slot : Nat)
  | fcmp (f slot : Nat) | fabs (f slot : Nat)
  -- special functions, R110
  | rcp (f slot : Nat) | rsq (f slot : Nat) | sqrt (f slot : Nat) | exp2 (f slot : Nat) | log2 (f slot : Nat)
  | sin (f slot : Nat) | cos (f slot : Nat) | exp (f slot : Nat) | act (f slot : Nat) | actd (f slot : Nat)
  -- conversion, R112; shuffle, permute and pack, R113
  | cvt (f slot : Nat) | i2i (f slot : Nat) | shfl (f slot : Nat) | shflP (f slot : Nat) | bswz (f slot : Nat)
  | pack (f slot : Nat) | unpk (f slot : Nat) | vote (f slot : Nat)
  -- memory, atomics, locks, fence, R115 to R120
  | ld (f slot : Nat) | lds (f slot : Nat) | st (f slot : Nat) | hint (f slot : Nat) | atom (f slot : Nat)
  | acq (f slot : Nat) | rel (f slot : Nat) | fence (f slot : Nat)
  -- control and barriers, R121, R122
  | bra (f slot : Nat) | exit (f slot : Nat) | groupSlotRelease (f slot : Nat) | joinWait (f slot : Nat)
  | joinPass (f slot : Nat) | trap (f slot : Nat) | fretRetry (f slot : Nat) | fretSkip (f slot : Nat)
  | fretAbort (f slot : Nat) | nop (f slot : Nat)
  -- tile mover, R123; Prism; OPC; RDU
  | tmLd (f slot : Nat) | tmSt (f slot : Nat) | tmWait (f slot : Nat) | tmLineRequest (f : Nat)
  | mmaH (f slot : Nat) | mmaB (f slot : Nat) | mmaQ (f slot : Nat) | mmaF (f slot : Nat) | mmaSr (f slot : Nat)
  | mmaSw (f slot : Nat) | prismAccept (f q : Nat) | prismLastBeat (f q : Nat) | outputStageAccept (f q : Nat)
  | opcRequestAged (f client bank : Nat) (write : Bool)
  | redg (f slot : Nat) | redb (f slot : Nat) | redR (f slot : Nat) | old (f slot : Nat) | ost (f slot : Nat)
  | vectorPortServe (f : Nat) | rduAccept (f : Nat)
  -- dispatch, watchdog, requests, Facet faults
  | blockDispatch (launch : Nat) | progressStall (f slot : Nat) | lineDataReturn (req : Nat) | storeAck (req : Nat)
  | facetFault (f : Nat)
  -- debug, R83 to R91
  | dbgHalt | haltTakesEffect (f slot : Nat) | dbgResume | dbgStep | dbgDataRead | dbgDataWrite (v : Word)
  | dbgEnableWrite (v : Word)
  -- Hull; `tag` 0: the set's tag entries read clean, 1: a single-bit error, 2: an uncorrectable error in `way`
  | hullRequestAccept (req tag way : Nat) | hullRepresent (req : Nat) | fillSectorArrival (line sector : Nat)
  | agentRead (addr len : Nat) | agentWrite (addr : Nat) (bytes : List Byte)
  | pinCmdPin (j : Nat) | pinCmdUnpin (j : Nat) | pinCmdRun | tgPeriodEnd (j : Nat)
  | hullQuotaWrite (j : Nat) (v : Word) | hullTgCfgWrite (j : Nat) (v : Word)
  -- Frustum and HBM
  | sinkWrite (k pc : Nat) | serviceWindowStart (k pc writes : Nat) | demandRead (k pc : Nat) (noise : Noise)
  | scrubStep (k pc : Nat) (noise : Noise) | refresh (k pc bank : Nat) | refreshRateChange (k celsius : Nat)
  | rowRemapStart (k pc bank row : Nat) | remapCopyDone (k pc : Nat) | nmaApply (k pc : Nat)
  | memVerifyWrite (v : Word) | hbmInjectWrite (v : Word)
  -- Chord ports; `fec`: wrong symbols of the codeword pair that begins in the flit, fec % 545 and fec / 545 (R334)
  | portTraining (p : Nat) | trainingComplete (p : Nat) (ok : Bool) (partner : Nat) (grant : List Nat)
  | dataFlit (p : Nat) (bytes : List Byte) (fec : Nat) | idleFlit (p : Nat) (bytes : List Byte) (fec : Nat)
  | retryReq (p : Nat) (bytes : List Byte) (fec : Nat)
  | flitTransmit (p : Nat) | egressAccept (i : Nat)
  | portDown (p : Nat) | positionClaim (p : Nat) | portUp (p : Nat) | rdReq (p : Nat) | wrReq (p : Nat)
  | ingressWriteAccept (p : Nat) | nmaReq (p : Nat) | rdResp (p : Nat) | ack (p : Nat) | coll (p : Nat) | ckpt (p : Nat)
  | linkSilenceTimeout (p : Nat) | laneSignalLoss (p lane : Nat) | failoverDecision (p : Nat) | retrainAttempt (p : Nat)
  | portCmdRetrainFull (p : Nat) | portCmdRetrainReduced (p : Nat) | portCmdKeepOut (p : Nat)
  | chordFnPosWrite (j : Nat) (v : Word) | collTimeout (j g : Nat) | remoteTimeout (j tag : Nat)
  -- windows and CXL.mem
  | windowWrite (j addr size : Nat) (v : Word) | cxlMemRead (addr : Nat) (cache : Bool)
  | cxlMemWrite (addr : Nat) (bytes : List Byte) (mask : DWord) (poison : Bool)
  | birsp (addr : Nat) (dirty : List Byte)
  -- Locus
  | frontEndWake (j : Nat) | launch (j r : Nat) | codeLoad (j r : Nat) | drain (j r : Nat) | allreduce (j r : Nat)
  | reduceScatter (j r : Nat) | allgather (j r : Nat) | alltoall (j r : Nat) | broadcast (j r : Nat) | send (j r : Nat)
  | recv (j r : Nat) | lowrank (j r : Nat) | lowrankCont (j r : Nat) | remoteRd (j r : Nat) | remoteWr (j r : Nat)
  | remoteNma (j r : Nat) | mark (j r : Nat) | lower (j r : Nat)
  | launchComplete (launch : Nat) | codeLoadComplete (j r seq : Nat) | drainComplete (j : Nat)
  | lowerComplete (j r seq : Nat)
  | locusCfgWrite (j r : Nat) (v : Word) | hifSelectWrite (j : Nat) (v : Word)
  -- tenants
  | tenEnable (j : Nat) | tenDisable (j : Nat) | tenCtrlReset (j : Nat) | tenSelfReset (j : Nat) | flrVf (j : Nat)
  | flrPf0 | tenantResetComplete (j : Nat) | srSeedHiWrite (j : Nat) (v : Word) | drainAbortStore (j : Nat)
  -- Gnomon store; `corrected` is the corrected-bit count of the page's frames, `retries` the reads it took, `bad` the frames (0-3) that stay uncorrectable
  | pageProgramDone (j : Nat) (pass : Bool) | storeScrubPass | gnGenSelWrite (v : Word) | gnRestore (v : Word)
  | gnRestoreCancel | restoreComplete
  -- decisions, recovery, escalation, lifetime counters
  | decisionWaitExpire (fn subject : Nat) | decAnswerWrite (v : Word) | tenantRecoveryReset (j : Nat)
  | spareTakeWrite (v : Word) | edgeUeRateExceeded | moduleFault | lifePersist | lifeSample | lifeSelWrite (v : Word)
  -- clocks, power and heat; temperatures in quarter degrees, voltages in mV, currents in mA, powers in W;
  -- `junction` is the hottest one and `die` its die; `pll` 0-5 the origin PLLs, 6-11 the island PLLs of CD0-CD3, IO0, IO1;
  -- `island` 0-3 Facet, 4-7 Hull of CD0-CD3, 8-9 I/O logic of IO0, IO1, `n` in units of 62.5 MHz
  | xtalStable | xtalTimeout | xtalLoss | pllLock (pll : Nat) | pllUnlock (pll : Nat) | originRelockTimeout (die : Nat)
  | chordRefclkLoss | refclkLoss | pllRetune (island n mv : Nat)
  | junctionThrottle (junction die : Nat) | throttleRelease (junction die : Nat) | junctionTrip (junction die : Nat)
  | inletLimit (inlet : Nat) | thermalRelease (junction die inlet : Nat)
  | fastCurrentClamp (ma : Nat) | clampRelease (ma : Nat) | limiterPeriod (meanW maxMa capW : Nat)
  | windowPeriod (meanW : Nat) | levelWindowEnd (meanW : Nat) | ppHeartbeat | ppHeartbeatTimeout
  | deratingStep (inlet : Nat) | supplyWarning (mv : Nat) | supplyRelease (mv : Nat) | nRampStep | supplyHold
  | supplyReset (mv : Nat) | pwrCmdP0 | pwrCmdS1 | pwrCmdS2 | powerEntryComplete | wakeSense | inletWake (inlet : Nat)
  | wakeComplete | gateCmdWrite (v : Word) | levelCfgWrite (v : Word)
  -- start-up, firmware, connector
  | supplyFirst47v | inrushLimitEnd | modResetAssert | modResetRelease | hostPerstAssert | hostPerstRelease
  | warmEntryComplete | startComplete (x : StartReport) | procCrash (proc kind : Nat)
  | procRestart (proc : Nat) | fwStage (slot : Nat) | fwStageComplete | fwActivate | handoverPhaseDone | fwCommitSvn
  | fwRecoveryBegin (slot : Nat) | fwDataWrite (v : Word) | fwRecoveryEnd
  | resetCtrlWarm | resetCtrlCold | resetCtrlFacet (die mm : Nat) | resetCtrlPort (p : Nat) | logSelWrite (v : Word)
  | i3cOffsetWrite (offset : Byte) | i3cRead (count : Nat) | rstdaa | entdaa (addr : Nat) | setdasa (addr : Nat)
  | getpid | getbcr | getdcr | getstatus
  | unassignedOpcode (f slot : Nat) | fetchPastRange (f slot : Nat)
  | cxlLinkUp | doeRequest (object : List Byte) | windowBadSizeRead (j addr size : Nat)
  | procRestartTimeout (proc : Nat) | blockEraseDone (die plane block : Nat) (pass : Bool)
  | pageReadDone (die plane block page : Nat) (retries corrected : Nat) (bad : List Nat)
  deriving DecidableEq, Repr

end Sys2Proof
end

