-- ==== Sys2Proof/Config.lean ====
section
/-! DEFINITION. The free values: what the manual leaves open is a constant without a body, so no proof can rest on its value. -/

namespace Sys2Proof.Config

/-- The choice of a special function inside its error bound at an argument (R110): RSQ, EXP2, LOG2, SIN, COS, EXP and the
activation functions are fixed by one algorithm of the stepping of which the manual gives error bounds only. The first
argument is `16 * OP + MOD` (R110, R111). Where the manual states no bound (RSQ and LOG2 of a zero, an infinite argument of
RSQ, EXP2 and LOG2) it is the result itself. Log entry 10. -/
opaque sfun : Nat → BitVec 32 → BitVec 32

/-- The choice of the binary32 derivative f' inside its bound where ACTD uses the stepping's own algorithms (R170: the
IN = 1 forms and softplus); the first argument is `2 * MOD + IN`. Log entry 10. -/
opaque sderiv : Nat → BitVec 32 → BitVec 32

/-- CVT between two integer types at a value outside the destination's range, of which R112 and R157 state no result; the
first argument is 16 * source type + destination type. Log entry 13. -/
opaque cvtInt : Nat → BitVec 32 → BitVec 32

/-- The free-running generator behind the lane states of a launch with SEEDED = 0 (R164). Log entry 6. -/
opaque freeLane : Nat → BitVec 32

/-- What a read returns of which the manual states no value: DBG_DATA of a group that is not halted (R86). Log entry 14. -/
opaque freeWord : Nat → BitVec 32

/-- The 512-bit SHA-512 digest of a byte string (FIPS 180-4; the manual names the standard). Log entry 11. -/
opaque sha512 : List (BitVec 8) → BitVec 512

/-- A key certificate (R490): the keys that sign, the ROLE it is given for, and both signatures. -/
structure Certificate where
  rsaKey : List (BitVec 8)
  mldsaKey : List (BitVec 8)
  role : Nat
  rsaSig : List (BitVec 8)
  mldsaSig : List (BitVec 8)
  deriving DecidableEq, Repr

/-- A signature block (R489). -/
structure SigBlock where
  rsaKey : List (BitVec 8)
  mldsaKey : List (BitVec 8)
  rsaSig : List (BitVec 8)
  mldsaSig : List (BitVec 8)
  cert : Option Certificate
  deriving DecidableEq, Repr

/-- The signature block that bytes spell; none where they spell no block (R489: the manual lists its parts and gives no layout).
Log entry 11. -/
opaque parseBlock : List (BitVec 8) → Option SigBlock

/-- RSASSA-PSS with RSA-4096, SHA-512, MGF1-SHA-512, a salt of 64 bytes and exponent 65,537 (R489): whether a signature over M
verifies under a modulus. Log entry 11. -/
opaque rsaVerifies : List (BitVec 8) → BitVec 512 → List (BitVec 8) → Bool

/-- ML-DSA-87 with an empty context (R489): whether a signature over M verifies under a public key. Log entry 11. -/
opaque mldsaVerifies : List (BitVec 8) → BitVec 512 → List (BitVec 8) → Bool

/-- H_root (R490). -/
opaque rootHash : BitVec 512

/-- Length of the contents of a module record (2) or a site block (3), by ROLE, after which its signature block follows (R488).
Log entry 11. -/
opaque contentLen : Nat → List (BitVec 8) → Nat

/-- The defect map of Facets in a module record (R486), and that of HBM rows as stack, pseudo-channel, bank, row and spare. The
manual gives no layout. Log entry 11. -/
opaque recordFacets : List (BitVec 8) → List Nat
opaque recordRows : List (BitVec 8) → List (Nat × Nat × Nat × Nat × Nat)

/-- What a site block sets (R486): paired clock mode, and MODES, MODE_FAILOVER and LEVEL_CFG. The manual gives no layout. Log
entry 11. -/
opaque siteFields : List (BitVec 8) → Bool × BitVec 32 × BitVec 32 × BitVec 32

/-- The seed that the PUF array's bytes give with helper data, and the tag that helper data hold (R495). Log entry 11. -/
opaque pufSeed : List (BitVec 8) → List (BitVec 8) → List (BitVec 8)
opaque helperTag : List (BitVec 8) → BitVec 512

/-- AES-256 key wrap with padding, RFC 5649 (R495): wrapping under a key, and unwrapping, which may fail. Log entry 11. -/
opaque keyWrap : BitVec 256 → List (BitVec 8) → List (BitVec 8)
opaque keyUnwrap : BitVec 256 → List (BitVec 8) → Option (List (BitVec 8))

/-- A key pair MP generates (R495). Log entry 11. -/
opaque freshKey : Nat → List (BitVec 8)

/-- The module record and the PUF helper data of the factory's config flash (R486). Log entry 4. -/
opaque factoryRecord : List (BitVec 8)
opaque factoryHelper : List (BitVec 8)

/-- The native image an RL-400 binary is translated into (R144), before its header is settled and its vector operands take RLX
form. The manual gives no such binary's format. Log entry 12. -/
opaque binaryLowering : List (BitVec 8) → List (BitVec 8)

/-- The candidate lowerings of kernel `k` of an IKF module (R139 to R143): native images with their headers. The manual gives no
IKF body and no lowering algorithm. Log entry 12. -/
opaque lowerings : List (BitVec 8) → Nat → List (List (BitVec 8))

/-- Whether kernel `k` of an IKF module declares a gradient value of a type other than BF16 (R169). The manual gives no IKF body.
Log entry 12. -/
opaque gradientRefused : List (BitVec 8) → Nat → Bool

/-- The bytes of a DOE answer whose content the manual leaves to the published standards (R376): certificates, signatures,
the CDAT table; the argument is the request. Log entry 11. -/
opaque doeBody : List (BitVec 8) → List (BitVec 8)

/-- The low 16 bits of the module's serial number (R510). -/
opaque serialLow : BitVec 16

/-- Isayr's MIPI manufacturer code (R510), 15 bits. -/
opaque mipiCode : BitVec 15

/-- The bytes that GETBCR (0) and GETDCR (1) return (R510): the manual gives no value. Log entry 14. -/
opaque i3cByte : Nat → BitVec 8

/-- The content of the mask ROM, of which measurement block 1 is the digest (R497). -/
opaque bootRom : List (BitVec 8)

/-- The image bytes of the factory's config-flash slots A (0) and B (1) (R486, R488). -/
opaque factorySlot : Nat → List (BitVec 8)

/-- Voltage in mV that the table set gives an island at a frequency, in units of 62.5 MHz (R457, log entry 82). -/
opaque tableMv : List (BitVec 8) → Nat → Nat → Nat

/-- Voltage in mV at which the table set puts the ceiling of an island's rail (R461, log entry 82). -/
opaque railCeiling : List (BitVec 8) → Nat → Nat

end Sys2Proof.Config
end

