-- ==== Sys2Proof/Machine/Bits.lean ====
section
/-! DEFINITION. Bit fields, little-endian byte strings (R12, R13), lane masks, and sparse sorted tables. -/

namespace Sys2Proof.Machine

/-- Field [hi:lo] of a number (R12). -/
def fieldN (x hi lo : Nat) : Nat := (x >>> lo) % 2 ^ (hi + 1 - lo)

/-- Field [hi:lo] of a bit vector (R12). -/
def field (w : BitVec n) (hi lo : Nat) : Nat := fieldN w.toNat hi lo

/-- The word of ones at [hi:lo]. -/
def fieldMask (hi lo : Nat) : Word := BitVec.ofNat 32 ((2 ^ (hi + 1 - lo) - 1) <<< lo)

/-- `w` with field [hi:lo] replaced. -/
def setField (w : Word) (hi lo x : Nat) : Word :=
  (w &&& ~~~ fieldMask hi lo) ||| (BitVec.ofNat 32 ((x % 2 ^ (hi + 1 - lo)) <<< lo))

/-- A count field of a word raised by `n`, saturating (R20). -/
def addCount (w : Word) (hi lo n : Nat) : Word :=
  setField w hi lo (min (2 ^ (hi + 1 - lo) - 1) (field w hi lo + n))

/-- The bits of a word that are 1, ascending. -/
def bitsOf (w : BitVec n) : List Nat := (List.range n).filter (fun i => w.getLsbD i)

/-- The 32-bit mask of the indices that satisfy `f`. -/
def maskOf (f : Nat → Bool) : Word :=
  (List.range 32).foldl (fun m i => if f i then m ||| (1#32 <<< i) else m) 0

/-- The number of ones. -/
def popCount (w : BitVec n) : Nat := (bitsOf w).length

/-- The `n` bytes of a number, byte 0 first (R13). -/
def leBytes : Nat → Nat → List Byte
  | 0, _ => []
  | n + 1, x => BitVec.ofNat 8 x :: leBytes n (x / 256)

/-- The number whose byte 0 is the first (R13). -/
def leNat : List Byte → Nat
  | [] => 0
  | b :: t => b.toNat + 256 * leNat t

/-- `n` bytes from offset `o` of a byte string as a number; bytes past the end read as 0. -/
def byteField (l : List Byte) (o n : Nat) : Nat := leNat ((l.drop o).take n)

/-- The two's complement value of an `n`-bit pattern. -/
def signedN (n x : Nat) : Int := if 2 * x < 2 ^ n then (x : Int) else (x : Int) - 2 ^ n

/-- Integer to a 32-bit pattern, modulo 2^32. -/
def wrap32 (x : Int) : Word := BitVec.ofInt 32 x

/-- `m` divides into `x` rounding up (R9). -/
def ceilDiv (x m : Nat) : Nat := (x + m - 1) / m

/-- The value at index `i` of a sparse table; 0 where not listed. -/
def tget : Cells w → Nat → BitVec w
  | [], _ => 0
  | (j, x) :: t, i => if i = j then x else if i < j then 0 else tget t i

/-- Writes one index of a sparse table, keeping indices rising and no value 0. -/
def tset : Cells w → Nat → BitVec w → Cells w
  | [], i, v => if v = 0 then [] else [(i, v)]
  | (j, x) :: t, i, v =>
    if i < j then (if v = 0 then (j, x) :: t else (i, v) :: (j, x) :: t)
    else if i = j then (if v = 0 then t else (i, v) :: t)
    else (j, x) :: tset t i v

/-- The indices of a sparse table rise and no value is 0. -/
def tableWf (w : Nat) : List (Nat × BitVec w) → Bool
  | [] => true
  | [(_, x)] => x != 0
  | (i, x) :: (j, y) :: t => (x != 0) && decide (i < j) && tableWf w ((j, y) :: t)

/-- The entry under key `k`. -/
def aget? : List (Nat × α) → Nat → Option α
  | [], _ => none
  | (j, x) :: t, k => if k = j then some x else aget? t k

/-- Replaces or adds the entry under key `k`, keys ascending. -/
def aput : List (Nat × α) → Nat → α → List (Nat × α)
  | [], k, v => [(k, v)]
  | (j, x) :: t, k, v =>
    if k < j then (k, v) :: (j, x) :: t else if k = j then (k, v) :: t else (j, x) :: aput t k v

/-- Removes the entry under key `k`. -/
def adel (l : List (Nat × α)) (k : Nat) : List (Nat × α) := l.filter (fun e => e.1 != k)

/-- The entry under key `k`, or the default. -/
def agetD (l : List (Nat × α)) (k : Nat) (d : α) : α := (aget? l k).getD d

/-- Updates the `n`-th element of a list. -/
def updAt (l : List α) (n : Nat) (f : α → α) : List α := l.mapIdx (fun i x => if i = n then f x else x)

/-- Bytes of the base string with those of `new` from offset `o` on laid over it. -/
def overlay (base : List Byte) (o : Nat) (new : List Byte) : List Byte :=
  base.take o ++ new.take (base.length - o) ++ base.drop (o + new.length)

/-- The sublists of length `n` in turn (the last may be shorter). -/
def chunks (n : Nat) (l : List α) : List (List α) :=
  (List.range (ceilDiv l.length n)).map (fun i => (l.drop (n * i)).take n)

/-- The integer square root of `x < 2^(2*n)`, by bits from the top. -/
def isqrt : Nat → Nat → Nat
  | 0, _ => 0
  | n + 1, x =>
    let r := 2 * isqrt n (x / 4)
    if (r + 1) * (r + 1) ≤ x then r + 1 else r

end Sys2Proof.Machine
end

