-- ==== Sys2Proof/Machine/Code144.lean ====
section
/-! DEFINITION. The 144/128 code of R320 to R324 over GF(16), and the CRC of the Chord flit (R335). A word is held as its
data bits and its syndrome: the received check field plus the one recomputed from the data (R323), 0 for a codeword. -/

namespace Sys2Proof.Machine

/-- Multiplication by α modulo x^4 + x + 1 (R320). -/
def gfDouble (a : Nat) : Nat := if 8 ≤ a then (2 * a) ^^^ 0x13 else 2 * a

/-- Product in GF(16) (R320). -/
def gfMul (a b : Nat) : Nat :=
  (if b.testBit 0 then a else 0) ^^^ (if b.testBit 1 then gfDouble a else 0) ^^^
  (if b.testBit 2 then gfDouble (gfDouble a) else 0) ^^^
  (if b.testBit 3 then gfDouble (gfDouble (gfDouble a)) else 0)

/-- The inverse of a nonzero element: its 14th power. -/
def gfInv (a : Nat) : Nat :=
  let a2 := gfMul a a
  let a4 := gfMul a2 a2
  gfMul (gfMul a2 a4) (gfMul a4 a4)

/-- x of data column j (R321). -/
def colX (j : Nat) : Nat := [1, 2, 4, 7].getD (j / 8) 0

/-- y of data column j (R321). -/
def colY (j : Nat) : Nat := 8 + j % 8

/-- f = x² + x·y + λ·y², λ = 8 (R321). -/
def quadric (x y : Nat) : Nat := gfMul x x ^^^ gfMul x y ^^^ gfMul 8 (gfMul y y)

/-- What data symbol value `d` at position `j` adds to the check field (R321). -/
def symbolChecks (j d : Nat) : Nat :=
  d ||| (gfMul (colX j) d <<< 4) ||| (gfMul (colY j) d <<< 8) ||| (gfMul (quadric (colX j) (colY j)) d <<< 12)

/-- The check field of a data word (R321). -/
def checkField (d : BitVec 128) : BitVec 16 :=
  BitVec.ofNat 16 ((List.range 32).foldl (fun c j => c ^^^ symbolChecks j (fieldN d.toNat (4 * j + 3) (4 * j))) 0)

/-- The decoder's verdict on a word (R323). -/
inductive Verdict where
  | clean
  | fixed (flip : BitVec 128)   -- correctable; the data bits to flip
  | bad                         -- uncorrectable
  deriving DecidableEq, Repr

/-- The decoder of R323, from the syndrome. -/
def verdict (s : BitVec 16) : Verdict :=
  let s0 := field s 3 0
  let s1 := field s 7 4
  let s2 := field s 11 8
  let s3 := field s 15 12
  if s = 0 then .clean
  else if s0 ≠ 0 then
    let i := gfInv s0
    let x := gfMul s1 i
    let y := gfMul s2 i
    let z := gfMul s3 i
    if x = 0 ∧ y = 0 ∧ z = 0 then .fixed 0
    else if (x = 1 ∨ x = 2 ∨ x = 4 ∨ x = 7) ∧ 8 ≤ y ∧ z = quadric x y then
      let j := 8 * [1, 2, 4, 7].idxOf x + (y ^^^ 8)
      .fixed (BitVec.ofNat 128 (s0 <<< (4 * j)))
    else .bad
  else if (if s1 ≠ 0 then 1 else 0) + (if s2 ≠ 0 then 1 else 0) + (if s3 ≠ 0 then 1 else 0) = 1 then .fixed 0
  else .bad

/-- The symbol a correctable syndrome points to (R323): 0 to 31 of the data, 32 to 35 of the check field. -/
def errorSymbol (s : BitVec 16) : Option Nat :=
  match verdict s with
  | .fixed f => some (if f = 0 then 32 + Nat.log2 s.toNat / 4 else Nat.log2 f.toNat / 4)
  | _ => none

/-- The syndrome of the canonical poisoned word, whose data is 0 (R322). -/
def poisonMark : BitVec 16 := 0x0FF0

/-- A word that is exactly the canonical poisoned word (R322). -/
def isPoison (d : BitVec 128) (s : BitVec 16) : Bool := d == 0 && s == poisonMark

/-- A 144-bit codeword as it is carried (R320): check field above data. -/
def packCode (d : BitVec 128) (s : BitVec 16) : Code := (checkField d ^^^ s) ++ d

/-- The data bits of a carried word. -/
def codeData (c : Code) : BitVec 128 := c.extractLsb' 0 128

/-- The syndrome of a carried word (R323). -/
def codeMark (c : Code) : BitVec 16 := checkField (codeData c) ^^^ c.extractLsb' 128 16

/-- The canonical poisoned word as it is carried. -/
def poisonCode : Code := packCode 0 poisonMark

/-- A carried word with error value `e` added to symbol `sym` (R320): the new data and syndrome. -/
def addSymbol (d : BitVec 128) (s : BitVec 16) (sym e : Nat) : BitVec 128 × BitVec 16 :=
  if sym < 32 then (d ^^^ BitVec.ofNat 128 ((e % 16) <<< (4 * sym)), s ^^^ BitVec.ofNat 16 (symbolChecks sym (e % 16)))
  else (d, s ^^^ BitVec.ofNat 16 ((e % 16) <<< (4 * (sym - 32))))

/-- One bit of the CRC-32 of R335. -/
def crcBit (poly : Nat) (c : Nat) (b : Bool) : Nat :=
  let top := c.testBit 31
  let s := (2 * c) % 2 ^ 32
  if (top != b) then s ^^^ poly else s

end Sys2Proof.Machine
end

