-- ==== Sys2Proof/Machine/Regs.lean ====
section
/-! DEFINITION. The window registers of the manual: one row for each register table, with its addresses, the functions
whose window holds it (R378), its reset kind, the bits of each type (R16) and its reset value. -/

namespace Sys2Proof.Machine

/-- The narrowest reset that returns a register to its reset value (R16, R528). -/
inductive ResetKind where
  | cold | warm | tenant | port
  deriving DecidableEq, Repr

/-- One register table. `who`: 0 every function, 1 VF1-VF16, 2 PF0. Bits not in any mask are RO or reserved. -/
structure RegSpec where
  base : Nat
  stride : Nat
  count : Nat
  stride2 : Nat
  count2 : Nat
  who : Nat
  kind : ResetKind
  rw : Word      -- RW, and RWS without RW1C
  w1c : Word     -- RW1C, RWS with RW1C among them
  rws : Word     -- kept through warm and narrower resets: RWS, and the RETRAINS and FAILOVERS fields of PORT_STATE
  rwc : Word     -- RWC
  reset : Word
  deriving DecidableEq, Repr

/-- EXEC_WDT: Progress watchdog threshold (02). -/
def Reg.execWdt : Nat := 0x2000
/-- EXEC_COUNTS: Execution fault counts for the tenant (02). -/
def Reg.execCounts : Nat := 0x2004
/-- EXEC_STALL_LAST: Record of the most recent PROGRESS_STALL (02). -/
def Reg.execStallLast : Nat := 0x2008
/-- EXEC_FACETS: Tenant Facet count (02). -/
def Reg.execFacets : Nat := 0x200c
/-- FACET_MAP[k]: Placement of logical Facet k, for k = 0–191 (02). -/
def Reg.facetMap (k : Nat) : Nat := 0x2100 + 4 * k
/-- DBG_ENABLE: Per-tenant debug enable (02). -/
def Reg.dbgEnable : Nat := 0x2800
/-- DBG_TARGET: Group addressed by the debug registers (02). -/
def Reg.dbgTarget : Nat := 0x2804
/-- DBG_CMD: Debug command to the target group (02). -/
def Reg.dbgCmd : Nat := 0x2808
/-- DBG_STATUS: State of the target group (02). -/
def Reg.dbgStatus : Nat := 0x280c
/-- DBG_ADDR: Location for DBG_DATA (02). -/
def Reg.dbgAddr : Nat := 0x2810
/-- DBG_DATA: Data port (02). -/
def Reg.dbgData : Nat := 0x2814
/-- SPARE_STATUS: Spare Facets by die (02). -/
def Reg.spareStatus : Nat := 0x2820
/-- POSITION_EMPTY[k]: Module positions without a Facet, for w = 0–5 (02). -/
def Reg.positionEmpty (k : Nat) : Nat := 0x2830 + 4 * k
/-- EXEC_FAULT_ENTRY: Fault handler entry (03). -/
def Reg.execFaultEntry : Nat := 0x2010
/-- EXEC_OPTIONS: Execution options (03). -/
def Reg.execOptions : Nat := 0x2014
/-- EXEC_FAULT_LAST: Most recent fault of the tenant (03). -/
def Reg.execFaultLast : Nat := 0x2018
/-- EXEC_FAULT_PC: Address of the most recent fault (03). -/
def Reg.execFaultPc : Nat := 0x201c
/-- SR_SEED_LO: Staged low half of the stochastic-rounding seed (04). -/
def Reg.srSeedLo : Nat := 0x2020
/-- SR_SEED_HI: High half of the seed, and commit (04). -/
def Reg.srSeedHi : Nat := 0x2024
/-- SR_CTRL: Stochastic-rounding control (04). -/
def Reg.srCtrl : Nat := 0x2028
/-- PRISM_COUNTS: Saturated MMA instructions of the tenant (05). -/
def Reg.prismCounts : Nat := 0x2030
/-- RESCALE_COUNT[k]: Rescale retries on logical Facet k, for k = 0–191 (05). -/
def Reg.rescaleCount (k : Nat) : Nat := 0x2400 + 4 * k
/-- WSET_BASE_A: Base of state-set buffer A (07). -/
def Reg.wsetBaseA : Nat := 0x2040
/-- WSET_BASE_B: Base of state-set buffer B (07). -/
def Reg.wsetBaseB : Nat := 0x2044
/-- WSET_CTRL: State-set length and live buffer (07). -/
def Reg.wsetCtrl : Nat := 0x2048
/-- DRAIN_STATUS: State of the tenant's drain (07). -/
def Reg.drainStatus : Nat := 0x204c
/-- DRAIN_PROGRESS: Progress of the current drain (07). -/
def Reg.drainProgress : Nat := 0x2050
/-- DRAIN_CTRL: Drain control (07). -/
def Reg.drainCtrl : Nat := 0x2054
/-- HULL_PIN_ADDR_LO: Low part of the pin range start (08). -/
def Reg.hullPinAddrLo : Nat := 0x3000
/-- HULL_PIN_ADDR_HI: High part of the pin range start (08). -/
def Reg.hullPinAddrHi : Nat := 0x3004
/-- HULL_PIN_LEN: Pin range length (08). -/
def Reg.hullPinLen : Nat := 0x3008
/-- HULL_PIN_CMD: Pin command (08). -/
def Reg.hullPinCmd : Nat := 0x300c
/-- HULL_PIN_STATUS: Result of the last pin command (08). -/
def Reg.hullPinStatus : Nat := 0x3010
/-- HULL_PIN_TOTAL: Lines pinned by the tenant (08). -/
def Reg.hullPinTotal : Nat := 0x3014
/-- HULL_OPTIONS: Hull options of the tenant (08). -/
def Reg.hullOptions : Nat := 0x3018
/-- HULL_DEAD_COUNTS: Dead-line counts of the tenant (08). -/
def Reg.hullDeadCounts : Nat := 0x301c
/-- HULL_TG_STATUS: Thrash-guard state of the tenant (08). -/
def Reg.hullTgStatus : Nat := 0x3020
/-- HULL_QUOTA_VIEW: The tenant's own quota (08). -/
def Reg.hullQuotaView : Nat := 0x3024
/-- HULL_QUOTA[k]: Way quota of VFj, for j = 1–16 (08). -/
def Reg.hullQuota (k : Nat) : Nat := 0x3800 + 4 * k
/-- HULL_TG_CFG[k]: Thrash-guard configuration of VFj, for j = 1–16 (08). -/
def Reg.hullTgCfg (k : Nat) : Nat := 0x3880 + 4 * k
/-- HULL_HEALTH: Hull tag-store health (08). -/
def Reg.hullHealth : Nat := 0x3900
/-- MEM_STATE: Memory verification and unordered-accumulate state of the function (09). -/
def Reg.memState : Nat := 0x3400
/-- FRUSTUM_CFG: Scrub and remap configuration for all stacks (09). -/
def Reg.frustumCfg : Nat := 0x4000
/-- MEM_VERIFY: Clears UNVERIFIED (09). -/
def Reg.memVerify : Nat := 0x4004
/-- PATH_ERR: Code events outside the HBM cells (09). -/
def Reg.pathErr : Nat := 0x4008
/-- HBM_INJECT: Error injection for test (09). -/
def Reg.hbmInject : Nat := 0x400c
/-- HBM_CE[k]: Corrected symbols on stack HBk, for k = 0–11 (09). -/
def Reg.hbmCe (k : Nat) : Nat := 0x4100 + 16 * k
/-- HBM_UE[k]: Uncorrectable events on HBk (09). -/
def Reg.hbmUe (k : Nat) : Nat := 0x4104 + 16 * k
/-- HBM_REMAP[k]: Spare-row state of HBk (09). -/
def Reg.hbmRemap (k : Nat) : Nat := 0x4108 + 16 * k
/-- HBM_SCRUB[k]: Scrub and refresh state of HBk (09). -/
def Reg.hbmScrub (k : Nat) : Nat := 0x410c + 16 * k
/-- CHORD_SELF: Own logical position of the function (10). -/
def Reg.chordSelf : Nat := 0x5000
/-- COLL_GROUP_LO[k]: Member table base, low (10). -/
def Reg.collGroupLo (k : Nat) : Nat := 0x5010 + 16 * k
/-- COLL_GROUP_HI[k]: Member table base, high (10). -/
def Reg.collGroupHi (k : Nat) : Nat := 0x5014 + 16 * k
/-- COLL_GROUP_SIZE[k]: Group size and validity (10). -/
def Reg.collGroupSize (k : Nat) : Nat := 0x5018 + 16 * k
/-- COLL_GROUP_RANK[k]: Own rank in the group (10). -/
def Reg.collGroupRank (k : Nat) : Nat := 0x501c + 16 * k
/-- COLL_TIMEOUT: Collective progress limit (10). -/
def Reg.collTimeout : Nat := 0x5090
/-- COLL_COUNTS: Collective counts (10). -/
def Reg.collCounts : Nat := 0x5094
/-- CHORD_REMOTE_COUNTS: Remote-access counts (10). -/
def Reg.chordRemoteCounts : Nat := 0x5098
/-- CHORD_CFG: Module Chord options (10). -/
def Reg.chordCfg : Nat := 0x5800
/-- CHORD_ERR: Module Chord error counts (10). -/
def Reg.chordErr : Nat := 0x5804
/-- PORT_CMD: Port decision and retrain command (10). -/
def Reg.portCmd : Nat := 0x5808
/-- DIGEST_BASE_LO: Digest ring base, low (10). -/
def Reg.digestBaseLo : Nat := 0x5810
/-- DIGEST_BASE_HI: Digest ring base, high (10). -/
def Reg.digestBaseHi : Nat := 0x5814
/-- DIGEST_SIZE: Digest ring length (10). -/
def Reg.digestSize : Nat := 0x5818
/-- DIGEST_HEAD: Device write index (10). -/
def Reg.digestHead : Nat := 0x581c
/-- DIGEST_TAIL: Software read index (10). -/
def Reg.digestTail : Nat := 0x5820
/-- PORT_STATE[k]: State of port CPpp (10). -/
def Reg.portState (k : Nat) : Nat := 0x5900 + 16 * k
/-- PORT_FEC[k]: FEC corrections on CPpp (10). -/
def Reg.portFec (k : Nat) : Nat := 0x5904 + 16 * k
/-- PORT_LINK[k]: Link errors on CPpp (10). -/
def Reg.portLink (k : Nat) : Nat := 0x5908 + 16 * k
/-- PORT_ERR[k]: Retries and payload corrections on CPpp (10). -/
def Reg.portErr (k : Nat) : Nat := 0x590c + 16 * k
/-- CHORD_FN_POS[k]: Position of function j (10). -/
def Reg.chordFnPos (k : Nat) : Nat := 0x5c00 + 32 * k
/-- CHORD_FN_PEER_BASE[k]: Lowest permitted peer position (10). -/
def Reg.chordFnPeerBase (k : Nat) : Nat := 0x5c04 + 32 * k
/-- CHORD_FN_PEER_LIMIT[k]: Highest permitted peer position (10). -/
def Reg.chordFnPeerLimit (k : Nat) : Nat := 0x5c08 + 32 * k
/-- CHORD_FN_WEIGHT_A[k]: Egress weights, first part (10). -/
def Reg.chordFnWeightA (k : Nat) : Nat := 0x5c0c + 32 * k
/-- CHORD_FN_WEIGHT_B[k]: Egress weights, second part (10). -/
def Reg.chordFnWeightB (k : Nat) : Nat := 0x5c10 + 32 * k
/-- WIN_ID: Identity of the function (11). -/
def Reg.winId : Nat := 0x0
/-- WIN_STATUS: Window access errors (11). -/
def Reg.winStatus : Nat := 0x4
/-- HIF_SUPPORTED: Advertised HIF versions (11). -/
def Reg.hifSupported : Nat := 0x10
/-- HIF_SELECT: Driver's selection (11). -/
def Reg.hifSelect : Nat := 0x14
/-- TEN_SELF: The tenant's own state and reset (11). -/
def Reg.tenSelf : Nat := 0x20
/-- LOCUS_RING_LO[k]: Ring base, low, for r = 0–63 (11). -/
def Reg.locusRingLo (k : Nat) : Nat := 0x1000 + 32 * k
/-- LOCUS_RING_HI[k]: Ring base, high (11). -/
def Reg.locusRingHi (k : Nat) : Nat := 0x1004 + 32 * k
/-- LOCUS_CQ_LO[k]: Completion queue base, low (11). -/
def Reg.locusCqLo (k : Nat) : Nat := 0x1008 + 32 * k
/-- LOCUS_CQ_HI[k]: Completion queue base, high (11). -/
def Reg.locusCqHi (k : Nat) : Nat := 0x100c + 32 * k
/-- LOCUS_CFG[k]: Ring registration (11). -/
def Reg.locusCfg (k : Nat) : Nat := 0x1010 + 32 * k
/-- LOCUS_STATE[k]: Ring progress (11). -/
def Reg.locusState (k : Nat) : Nat := 0x1014 + 32 * k
/-- TEN_CTRL[k]: Tenant enable and reset, for j = 1–16 (11). -/
def Reg.tenCtrl (j : Nat) : Nat := 0x800 + 0x80 * (j - 1)
/-- TEN_STATUS[k]: Tenant configuration state (11). -/
def Reg.tenStatus (j : Nat) : Nat := 0x804 + 0x80 * (j - 1)
/-- TEN_FACETS[k]: Module positions of VFj, for w = 0–5 (11). -/
def Reg.tenFacets (j w : Nat) : Nat := 0x810 + 0x80 * (j - 1) + 4 * w
/-- TEN_REGION_A[k]: Region r of VFj, tenant side, for r = 0–7 (11). -/
def Reg.tenRegionA (j w : Nat) : Nat := 0x840 + 0x80 * (j - 1) + 8 * w
/-- TEN_REGION_B[k]: Region r of VFj, device side (11). -/
def Reg.tenRegionB (j w : Nat) : Nat := 0x844 + 0x80 * (j - 1) + 8 * w
/-- STEP_STATUS: Dropped-data flag (12). -/
def Reg.stepStatus : Nat := 0x6000
/-- POISON_DROPPED: Dropped words (12). -/
def Reg.poisonDropped : Nat := 0x6004
/-- DELTA_BASE: Delta range start (12). -/
def Reg.deltaBase : Nat := 0x6008
/-- DELTA_MAP: Delta map start (12). -/
def Reg.deltaMap : Nat := 0x600c
/-- DELTA_CTRL: Delta tracking (12). -/
def Reg.deltaCtrl : Nat := 0x6010
/-- MODES: Function modes (12). -/
def Reg.modes : Nat := 0x6800
/-- MODE_FAILOVER: Failover mode per port (12). -/
def Reg.modeFailover : Nat := 0x6804
/-- DEC_PENDING: Decision queue (12). -/
def Reg.decPending : Nat := 0x6810
/-- DEC_INFO: Oldest pending decision (12). -/
def Reg.decInfo : Nat := 0x6814
/-- DEC_ANSWER: Answer (12). -/
def Reg.decAnswer : Nat := 0x6818
/-- AVAIL: Outage since cold start (12). -/
def Reg.avail : Nat := 0x6820
/-- ESC_STATUS: Escalation state (12). -/
def Reg.escStatus : Nat := 0x6824
/-- LIFE_SEL: Lifetime counter index (12). -/
def Reg.lifeSel : Nat := 0x6830
/-- LIFE_DATA_LO: Counter, low half (12). -/
def Reg.lifeDataLo : Nat := 0x6834
/-- LIFE_DATA_HI: Counter, high half (12). -/
def Reg.lifeDataHi : Nat := 0x6838
/-- SPARE_TAKE: Takeover request (12). -/
def Reg.spareTake : Nat := 0x6840
/-- BUDDY_CFG[k]: Buddy of function j, j = 0–16 (12). -/
def Reg.buddyCfg (k : Nat) : Nat := 0x6900 + 16 * k
/-- BUDDY_RX_BASE[k]: Receive region start (12). -/
def Reg.buddyRxBase (k : Nat) : Nat := 0x6904 + 16 * k
/-- BUDDY_RX_LEN[k]: Receive region length (12). -/
def Reg.buddyRxLen (k : Nat) : Nat := 0x6908 + 16 * k
/-- BUDDY_RX_STATUS[k]: Received copy (12). -/
def Reg.buddyRxStatus (k : Nat) : Nat := 0x690c + 16 * k
/-- GN_STATUS: Store state (13). -/
def Reg.gnStatus : Nat := 0x7000
/-- GN_CFG: Store options (13). -/
def Reg.gnCfg : Nat := 0x7004
/-- GN_GEN_SEL: Generation selector (13). -/
def Reg.gnGenSel : Nat := 0x7008
/-- GN_GEN_INFO_A: Selected generation number (13). -/
def Reg.gnGenInfoA : Nat := 0x700c
/-- GN_GEN_INFO_B: Selected generation shape (13). -/
def Reg.gnGenInfoB : Nat := 0x7010
/-- GN_GEN_INFO_C: Selected generation step (13). -/
def Reg.gnGenInfoC : Nat := 0x7014
/-- GN_RESTORE_CMD: Restore command (13). -/
def Reg.gnRestoreCmd : Nat := 0x7020
/-- GN_RESTORE_STATUS: Restore result (13). -/
def Reg.gnRestoreStatus : Nat := 0x7024
/-- GN_HEALTH: Block health (13). -/
def Reg.gnHealth : Nat := 0x7030
/-- GN_WEAR: Erase counts of the data pool (13). -/
def Reg.gnWear : Nat := 0x7034
/-- GN_WRITTEN: Lifetime store-leg writes (13). -/
def Reg.gnWritten : Nat := 0x7038
/-- GN_ERR: Media events since cold start (13). -/
def Reg.gnErr : Nat := 0x703c
/-- PWR_REQ: Facet ratio request of the function (14). -/
def Reg.pwrReq : Nat := 0x7800
/-- POLICY_CLAMP: Clamps of the function's requests (14). -/
def Reg.policyClamp : Nat := 0x7804
/-- PWR_VIEW: Power state as the function sees it (14). -/
def Reg.pwrView : Nat := 0x7808
/-- CLK_STATUS: Clock mode and lock (14). -/
def Reg.clkStatus : Nat := 0x7c00
/-- FREQ_STATUS: Window and ratio (14). -/
def Reg.freqStatus : Nat := 0x7c04
/-- PWR_CMD: Power-state request (14). -/
def Reg.pwrCmd : Nat := 0x7c08
/-- PWR_STATE: Power state and wake record (14). -/
def Reg.pwrState : Nat := 0x7c0c
/-- WAKE_CFG: Wake comparators (14). -/
def Reg.wakeCfg : Nat := 0x7c10
/-- LEVEL_CFG: Level mode (14). -/
def Reg.levelCfg : Nat := 0x7c20
/-- LEVEL_STATUS: Level loop state (14). -/
def Reg.levelStatus : Nat := 0x7c24
/-- SENSE_SUPPLY: Input measurements (14). -/
def Reg.senseSupply : Nat := 0x7c30
/-- SENSE_THERM: Temperatures and thermal state (14). -/
def Reg.senseTherm : Nat := 0x7c34
/-- SUPPLY_EVENTS: Supply warnings since cold start (14). -/
def Reg.supplyEvents : Nat := 0x7c38
/-- SUPPLY_LAST: Length of the last warning (14). -/
def Reg.supplyLast : Nat := 0x7c3c
/-- GATE_CMD: Gate enable write (14). -/
def Reg.gateCmd : Nat := 0x7c40
/-- GATE_STATUS: Result of the last gate write (14). -/
def Reg.gateStatus : Nat := 0x7c44
/-- FW_STATUS: Firmware and trust state (15). -/
def Reg.fwStatus : Nat := 0x8000
/-- FW_CMD: Firmware command (15). -/
def Reg.fwCmd : Nat := 0x8004
/-- FW_STAGE_ADDR: Staged image source (15). -/
def Reg.fwStageAddr : Nat := 0x8008
/-- FW_STAGE_LEN: Staged image length (15). -/
def Reg.fwStageLen : Nat := 0x800c
/-- FW_RESULT: Result of the last command (15). -/
def Reg.fwResult : Nat := 0x8010
/-- FW_DATA: Recovery data port (15). -/
def Reg.fwData : Nat := 0x8014
/-- PROC_STATUS: Firmware processors (15). -/
def Reg.procStatus : Nat := 0x8020
/-- RESET_CTRL: Reset request (15). -/
def Reg.resetCtrl : Nat := 0x8030
/-- RESET_CAUSE: Last warm or cold reset (15). -/
def Reg.resetCause : Nat := 0x8034
/-- ROLLBACK[k]: Anti-rollback counter k, for k = 0–15 (15). -/
def Reg.rollback (k : Nat) : Nat := 0x8080 + 4 * k
/-- LOG_HEAD: Next record (15). -/
def Reg.logHead : Nat := 0x8100
/-- LOG_SEL: Record selection (15). -/
def Reg.logSel : Nat := 0x8104
/-- LOG_DATA[k]: Selected record, word i, for i = 0–15 (15). -/
def Reg.logData (k : Nat) : Nat := 0x8140 + 4 * k

/-- Register tables, part 0. -/
def regTable0 : List RegSpec := [
  ⟨0x2000, 0, 1, 0, 1, 1, .tenant, 0xFFFFFFFF, 0x00000000, 0x00000000, 0x00000000, 0x00010000⟩,
  ⟨0x2004, 0, 1, 0, 1, 1, .tenant, 0x00000000, 0x00000000, 0x00000000, 0x00000000, 0x00000000⟩,
  ⟨0x2008, 0, 1, 0, 1, 1, .tenant, 0x00000000, 0x80000000, 0x00000000, 0x00000000, 0x00000000⟩,
  ⟨0x200c, 0, 1, 0, 1, 1, .tenant, 0x00000000, 0x00000000, 0x00000000, 0x00000000, 0x00000000⟩,
  ⟨0x2100, 4, 192, 0, 1, 1, .tenant, 0x00000000, 0x00000000, 0x00000000, 0x00000000, 0x00000000⟩,
  ⟨0x2800, 0, 1, 0, 1, 2, .warm, 0x0001FFFE, 0x00000000, 0x00000000, 0x00000000, 0x00000000⟩,
  ⟨0x2804, 0, 1, 0, 1, 2, .warm, 0x1F00FF3F, 0x00000000, 0x00000000, 0x00000000, 0x00000000⟩,
  ⟨0x2808, 0, 1, 0, 1, 2, .warm, 0x00000000, 0x00000000, 0x00000000, 0x00000000, 0x00000000⟩,
  ⟨0x280c, 0, 1, 0, 1, 2, .warm, 0x00000000, 0x00000400, 0x00000000, 0x00000000, 0x00000000⟩,
  ⟨0x2810, 0, 1, 0, 1, 2, .warm, 0xFFFFFFFF, 0x00000000, 0x00000000, 0x00000000, 0x00000000⟩,
  ⟨0x2814, 0, 1, 0, 1, 2, .warm, 0xFFFFFFFF, 0x00000000, 0x00000000, 0x00000000, 0x00000000⟩,
  ⟨0x2820, 0, 1, 0, 1, 2, .cold, 0x00000000, 0x00000000, 0x00000000, 0x00000000, 0x00000000⟩,
  ⟨0x2830, 4, 6, 0, 1, 2, .cold, 0x00000000, 0x00000000, 0x00000000, 0x00000000, 0x00000000⟩,
  ⟨0x2010, 0, 1, 0, 1, 1, .tenant, 0x8003FFF8, 0x00000000, 0x00000000, 0x00000000, 0x00000000⟩,
  ⟨0x2014, 0, 1, 0, 1, 1, .tenant, 0x00000001, 0x00000000, 0x00000000, 0x00000000, 0x00000000⟩,
  ⟨0x2018, 0, 1, 0, 1, 1, .tenant, 0x00000000, 0x80000000, 0x00000000, 0x00000000, 0x00000000⟩,
  ⟨0x201c, 0, 1, 0, 1, 1, .tenant, 0x00000000, 0x00000000, 0x00000000, 0x00000000, 0x00000000⟩,
  ⟨0x2020, 0, 1, 0, 1, 1, .tenant, 0xFFFFFFFF, 0x00000000, 0x00000000, 0x00000000, 0x00000000⟩,
  ⟨0x2024, 0, 1, 0, 1, 1, .tenant, 0xFFFFFFFF, 0x00000000, 0x00000000, 0x00000000, 0x00000000⟩,
  ⟨0x2028, 0, 1, 0, 1, 1, .tenant, 0x00000001, 0x00000000, 0x00000000, 0x00000000, 0x00000001⟩,
  ⟨0x2030, 0, 1, 0, 1, 1, .tenant, 0x00000000, 0x00000000, 0x00000000, 0x00000000, 0x00000000⟩,
  ⟨0x2400, 4, 192, 0, 1, 1, .tenant, 0x00000000, 0x00000000, 0x00000000, 0x00000000, 0x00000000⟩,
  ⟨0x2040, 0, 1, 0, 1, 1, .tenant, 0xFFFFFFFF, 0x00000000, 0x00000000, 0x00000000, 0x00000000⟩,
  ⟨0x2044, 0, 1, 0, 1, 1, .tenant, 0xFFFFFFFF, 0x00000000, 0x00000000, 0x00000000, 0x00000000⟩,
  ⟨0x2048, 0, 1, 0, 1, 1, .tenant, 0xC0FFFFFF, 0x00000000, 0x00000000, 0x00000000, 0x00000000⟩,
  ⟨0x204c, 0, 1, 0, 1, 1, .tenant, 0x00000000, 0x04000000, 0x00000000, 0x00000000, 0x00000000⟩,
  ⟨0x2050, 0, 1, 0, 1, 1, .tenant, 0x00000000, 0x00000000, 0x00000000, 0x00000000, 0x00000000⟩,
  ⟨0x2054, 0, 1, 0, 1, 1, .tenant, 0x00000000, 0x00000000, 0x00000000, 0x00000000, 0x00000000⟩,
  ⟨0x3000, 0, 1, 0, 1, 1, .tenant, 0xFFFFF800, 0x00000000, 0x00000000, 0x00000000, 0x00000000⟩,
  ⟨0x3004, 0, 1, 0, 1, 1, .tenant, 0x0000FFFF, 0x00000000, 0x00000000, 0x00000000, 0x00000000⟩,
  ⟨0x3008, 0, 1, 0, 1, 1, .tenant, 0x0001FFFF, 0x00000000, 0x00000000, 0x00000000, 0x00000000⟩,
  ⟨0x300c, 0, 1, 0, 1, 1, .tenant, 0x00000000, 0x00000000, 0x00000000, 0x00000000, 0x00000000⟩,
  ⟨0x3010, 0, 1, 0, 1, 1, .tenant, 0x00000000, 0x40000000, 0x00000000, 0x00000000, 0x00000000⟩,
  ⟨0x3014, 0, 1, 0, 1, 1, .tenant, 0x00000000, 0x00000000, 0x00000000, 0x00000000, 0x00000000⟩,
  ⟨0x3018, 0, 1, 0, 1, 1, .tenant, 0x00000001, 0x00000000, 0x00000000, 0x00000000, 0x00000000⟩,
  ⟨0x301c, 0, 1, 0, 1, 1, .tenant, 0x00000000, 0x00000000, 0x00000000, 0x00000000, 0x00000000⟩,
  ⟨0x3020, 0, 1, 0, 1, 1, .tenant, 0x00000000, 0x00000000, 0x00000000, 0x00000000, 0x00000000⟩,
  ⟨0x3024, 0, 1, 0, 1, 1, .tenant, 0x00000000, 0x00000000, 0x00000000, 0x00000000, 0x00000010⟩,
  ⟨0x3804, 4, 16, 0, 1, 2, .warm, 0x0000001F, 0x80000000, 0x00000000, 0x00000000, 0x00000010⟩,
  ⟨0x3884, 4, 16, 0, 1, 2, .warm, 0x80FFFFFF, 0x00000000, 0x00000000, 0x00000000, 0x00401008⟩]

/-- Register tables, part 1. -/
def regTable1 : List RegSpec := [
  ⟨0x3900, 0, 1, 0, 1, 2, .cold, 0x00000000, 0x00000000, 0x00000000, 0x00000000, 0x00000000⟩,
  ⟨0x3400, 0, 1, 0, 1, 0, .tenant, 0x00000000, 0x00000000, 0x00000000, 0x00000000, 0x00000000⟩,
  ⟨0x4000, 0, 1, 0, 1, 2, .cold, 0xC000FFFF, 0x00000000, 0x00000000, 0x00000000, 0xC0000418⟩,
  ⟨0x4004, 0, 1, 0, 1, 2, .cold, 0x00000000, 0x00000000, 0x00000000, 0x00000000, 0x00000000⟩,
  ⟨0x4008, 0, 1, 0, 1, 2, .cold, 0x00000000, 0x00000000, 0x00000000, 0x00000000, 0x00000000⟩,
  ⟨0x400c, 0, 1, 0, 1, 2, .cold, 0x8FFCFC0F, 0x00000000, 0x00000000, 0x00000000, 0x00000000⟩,
  ⟨0x4100, 16, 12, 0, 1, 2, .cold, 0x00000000, 0x00000000, 0x00000000, 0x00000000, 0x00000000⟩,
  ⟨0x4104, 16, 12, 0, 1, 2, .cold, 0x00000000, 0x00000000, 0x00000000, 0x00000000, 0x00000000⟩,
  ⟨0x4108, 16, 12, 0, 1, 2, .cold, 0x00000000, 0x80000000, 0x00000000, 0x00000000, 0x00000000⟩,
  ⟨0x410c, 16, 12, 0, 1, 2, .cold, 0x00000000, 0x00000000, 0x00000000, 0x00000000, 0x00000000⟩,
  ⟨0x5000, 0, 1, 0, 1, 1, .tenant, 0x00000000, 0x00000000, 0x00000000, 0x00000000, 0x00000000⟩,
  ⟨0x5010, 16, 8, 0, 1, 1, .tenant, 0xFFFFFFC0, 0x00000000, 0x00000000, 0x00000000, 0x00000000⟩,
  ⟨0x5014, 16, 8, 0, 1, 1, .tenant, 0x0000FFFF, 0x00000000, 0x00000000, 0x00000000, 0x00000000⟩,
  ⟨0x5018, 16, 8, 0, 1, 1, .tenant, 0x801FFFFF, 0x00000000, 0x00000000, 0x00000000, 0x00000000⟩,
  ⟨0x501c, 16, 8, 0, 1, 1, .tenant, 0x000FFFFF, 0x00000000, 0x00000000, 0x00000000, 0x00000000⟩,
  ⟨0x5090, 0, 1, 0, 1, 1, .tenant, 0xFFFFFFFF, 0x00000000, 0x00000000, 0x00000000, 0x00002000⟩,
  ⟨0x5094, 0, 1, 0, 1, 1, .tenant, 0x00000000, 0x00000000, 0x00000000, 0x00000000, 0x00000000⟩,
  ⟨0x5098, 0, 1, 0, 1, 1, .tenant, 0x00000000, 0x00000000, 0x00000000, 0x00000000, 0x00000000⟩,
  ⟨0x5800, 0, 1, 0, 1, 2, .cold, 0x80000000, 0x00000000, 0x00000000, 0x00000000, 0x00000000⟩,
  ⟨0x5804, 0, 1, 0, 1, 2, .cold, 0x00000000, 0x00000000, 0x00000000, 0x00000000, 0x00000000⟩,
  ⟨0x5808, 0, 1, 0, 1, 2, .cold, 0x00000000, 0x00000000, 0x00000000, 0x00000000, 0x00000000⟩,
  ⟨0x5810, 0, 1, 0, 1, 2, .warm, 0xFFFFFFC0, 0x00000000, 0x00000000, 0x00000000, 0x00000000⟩,
  ⟨0x5814, 0, 1, 0, 1, 2, .warm, 0x0000FFFF, 0x00000000, 0x00000000, 0x00000000, 0x00000000⟩,
  ⟨0x5818, 0, 1, 0, 1, 2, .warm, 0x000FFFFF, 0x00000000, 0x00000000, 0x00000000, 0x00000000⟩,
  ⟨0x581c, 0, 1, 0, 1, 2, .warm, 0x00000000, 0x00000000, 0x00000000, 0x00000000, 0x00000000⟩,
  ⟨0x5820, 0, 1, 0, 1, 2, .warm, 0x000FFFFF, 0x00000000, 0x00000000, 0x00000000, 0x00000000⟩,
  ⟨0x5900, 16, 36, 0, 1, 2, .port, 0x00000000, 0x00000000, 0x0000FFFF, 0x00000000, 0x00000000⟩,
  ⟨0x5904, 16, 36, 0, 1, 2, .port, 0x00000000, 0x00000000, 0x00000000, 0x00000000, 0x00000000⟩,
  ⟨0x5908, 16, 36, 0, 1, 2, .port, 0x00000000, 0x00000000, 0x00000000, 0x00000000, 0x00000000⟩,
  ⟨0x590c, 16, 36, 0, 1, 2, .port, 0x00000000, 0x00000000, 0x00000000, 0x00000000, 0x00000000⟩,
  ⟨0x5c00, 32, 17, 0, 1, 2, .warm, 0x800FFFFF, 0x40000000, 0x00000000, 0x00000000, 0x00000000⟩,
  ⟨0x5c04, 32, 17, 0, 1, 2, .warm, 0x000FFFFF, 0x00000000, 0x00000000, 0x00000000, 0x00000000⟩,
  ⟨0x5c08, 32, 17, 0, 1, 2, .warm, 0x000FFFFF, 0x00000000, 0x00000000, 0x00000000, 0x00000000⟩,
  ⟨0x5c0c, 32, 17, 0, 1, 2, .warm, 0xFFFFFFFF, 0x00000000, 0x00000000, 0x00000000, 0x44444444⟩,
  ⟨0x5c10, 32, 17, 0, 1, 2, .warm, 0x000000FF, 0x00000000, 0x00000000, 0x00000000, 0x00000044⟩,
  ⟨0x0, 0, 1, 0, 1, 0, .cold, 0x00000000, 0x00000000, 0x00000000, 0x00000000, 0xC960A100⟩,
  ⟨0x4, 0, 1, 0, 1, 0, .tenant, 0x00000000, 0x80000000, 0x00000000, 0x00000000, 0x00000000⟩,
  ⟨0x10, 0, 1, 0, 1, 0, .cold, 0x00000000, 0x00000000, 0x00000000, 0x00000000, 0x03000007⟩,
  ⟨0x14, 0, 1, 0, 1, 0, .tenant, 0x800000FF, 0x40000000, 0x00000000, 0x00000000, 0x00000000⟩,
  ⟨0x20, 0, 1, 0, 1, 1, .cold, 0x00000000, 0x00000000, 0x00000000, 0x00000000, 0x00000000⟩]

/-- Register tables, part 2. -/
def regTable2 : List RegSpec := [
  ⟨0x1000, 32, 64, 0, 1, 1, .tenant, 0xFFFFFFC0, 0x00000000, 0x00000000, 0x00000000, 0x00000000⟩,
  ⟨0x1004, 32, 64, 0, 1, 1, .tenant, 0x0000FFFF, 0x00000000, 0x00000000, 0x00000000, 0x00000000⟩,
  ⟨0x1008, 32, 64, 0, 1, 1, .tenant, 0xFFFFFFC0, 0x00000000, 0x00000000, 0x00000000, 0x00000000⟩,
  ⟨0x100c, 32, 64, 0, 1, 1, .tenant, 0xFFFFFFFF, 0x00000000, 0x00000000, 0x00000000, 0x00000000⟩,
  ⟨0x1010, 32, 64, 0, 1, 1, .tenant, 0x8000000F, 0x40000000, 0x00000000, 0x00000000, 0x00000000⟩,
  ⟨0x1014, 32, 64, 0, 1, 1, .tenant, 0x00000000, 0x00000000, 0x00000000, 0x00000000, 0x00000000⟩,
  ⟨0x800, 128, 16, 0, 1, 2, .warm, 0x80000000, 0x00000000, 0x00000000, 0x00000000, 0x00000000⟩,
  ⟨0x804, 128, 16, 0, 1, 2, .warm, 0x00000000, 0x40000000, 0x00000000, 0x00000000, 0x00000000⟩,
  ⟨0x810, 128, 16, 4, 6, 2, .warm, 0xFFFFFFFF, 0x00000000, 0x00000000, 0x00000000, 0x00000000⟩,
  ⟨0x840, 128, 16, 8, 8, 2, .warm, 0xC03FFFFF, 0x00000000, 0x00000000, 0x00000000, 0x00000000⟩,
  ⟨0x844, 128, 16, 8, 8, 2, .warm, 0x0FFFFFFF, 0x00000000, 0x00000000, 0x00000000, 0x00000000⟩,
  ⟨0x6000, 0, 1, 0, 1, 0, .tenant, 0x00000000, 0x80000000, 0x00000000, 0x00000000, 0x00000000⟩,
  ⟨0x6004, 0, 1, 0, 1, 0, .tenant, 0x00000000, 0x00000000, 0x00000000, 0x00000000, 0x00000000⟩,
  ⟨0x6008, 0, 1, 0, 1, 1, .tenant, 0xFFFFFFFF, 0x00000000, 0x00000000, 0x00000000, 0x00000000⟩,
  ⟨0x600c, 0, 1, 0, 1, 1, .tenant, 0xFFFFFFFF, 0x00000000, 0x00000000, 0x00000000, 0x00000000⟩,
  ⟨0x6010, 0, 1, 0, 1, 1, .tenant, 0x80FFFFFF, 0x00000000, 0x00000000, 0x00000000, 0x00000000⟩,
  ⟨0x6800, 0, 1, 0, 1, 2, .cold, 0x0F0000FF, 0x00000000, 0x00000000, 0x00000000, 0x00000000⟩,
  ⟨0x6804, 0, 1, 0, 1, 2, .cold, 0xFFFFFFFF, 0x00000000, 0x00000000, 0x00000000, 0x00000000⟩,
  ⟨0x6810, 0, 1, 0, 1, 2, .warm, 0x00000000, 0x00000000, 0x00000000, 0x00000000, 0x00000000⟩,
  ⟨0x6814, 0, 1, 0, 1, 2, .warm, 0x00000000, 0x00000000, 0x00000000, 0x00000000, 0x00000000⟩,
  ⟨0x6818, 0, 1, 0, 1, 2, .warm, 0x00000000, 0x00000000, 0x00000000, 0x00000000, 0x00000000⟩,
  ⟨0x6820, 0, 1, 0, 1, 2, .cold, 0x00000000, 0x00000000, 0x00000000, 0x00000000, 0x00000000⟩,
  ⟨0x6824, 0, 1, 0, 1, 2, .warm, 0x00000000, 0x80000FFF, 0x80000FFF, 0x00000000, 0x00000000⟩,
  ⟨0x6830, 0, 1, 0, 1, 2, .cold, 0x000003FF, 0x00000000, 0x00000000, 0x00000000, 0x00000000⟩,
  ⟨0x6834, 0, 1, 0, 1, 2, .cold, 0x00000000, 0x00000000, 0x00000000, 0x00000000, 0x00000000⟩,
  ⟨0x6838, 0, 1, 0, 1, 2, .cold, 0x00000000, 0x00000000, 0x00000000, 0x00000000, 0x00000000⟩,
  ⟨0x6840, 0, 1, 0, 1, 2, .warm, 0x3E0FFFFF, 0xC0000000, 0x00000000, 0x00000000, 0x00000000⟩,
  ⟨0x6900, 16, 17, 0, 1, 2, .warm, 0xFFFFFFFF, 0x00000000, 0x00000000, 0x00000000, 0x00000000⟩,
  ⟨0x6904, 16, 17, 0, 1, 2, .warm, 0xFFFFFFFF, 0x00000000, 0x00000000, 0x00000000, 0x00000000⟩,
  ⟨0x6908, 16, 17, 0, 1, 2, .warm, 0x00FFFFFF, 0x00000000, 0x00000000, 0x00000000, 0x00000000⟩,
  ⟨0x690c, 16, 17, 0, 1, 2, .tenant, 0x00000000, 0x00000000, 0x00000000, 0x00000000, 0x00000000⟩,
  ⟨0x7000, 0, 1, 0, 1, 2, .cold, 0x00000000, 0x00000000, 0x00000000, 0x00000000, 0x10000000⟩,
  ⟨0x7004, 0, 1, 0, 1, 2, .cold, 0x80FFFF07, 0x00000000, 0x00000000, 0x00000000, 0x80070A04⟩,
  ⟨0x7008, 0, 1, 0, 1, 2, .cold, 0x00001F03, 0x00000000, 0x00000000, 0x00000000, 0x00000000⟩,
  ⟨0x700c, 0, 1, 0, 1, 2, .cold, 0x00000000, 0x00000000, 0x00000000, 0x00000000, 0x00000000⟩,
  ⟨0x7010, 0, 1, 0, 1, 2, .cold, 0x00000000, 0x00000000, 0x00000000, 0x00000000, 0x00000000⟩,
  ⟨0x7014, 0, 1, 0, 1, 2, .cold, 0x00000000, 0x00000000, 0x00000000, 0x00000000, 0x00000000⟩,
  ⟨0x7020, 0, 1, 0, 1, 2, .cold, 0x00000000, 0x00000000, 0x00000000, 0x00000000, 0x00000000⟩,
  ⟨0x7024, 0, 1, 0, 1, 2, .cold, 0x00000000, 0x00000000, 0x00000000, 0x00000000, 0x00000000⟩,
  ⟨0x7030, 0, 1, 0, 1, 2, .cold, 0x00000000, 0x00000000, 0x00000000, 0x00000000, 0x00000000⟩]

/-- Register tables, part 3. -/
def regTable3 : List RegSpec := [
  ⟨0x7034, 0, 1, 0, 1, 2, .cold, 0x00000000, 0x00000000, 0x00000000, 0x00000000, 0x00000000⟩,
  ⟨0x7038, 0, 1, 0, 1, 2, .cold, 0x00000000, 0x00000000, 0x00000000, 0x00000000, 0x00000000⟩,
  ⟨0x703c, 0, 1, 0, 1, 2, .cold, 0x00000000, 0x00000000, 0x00000000, 0x00000000, 0x00000000⟩,
  ⟨0x7800, 0, 1, 0, 1, 0, .tenant, 0x00007F7F, 0x00000000, 0x00000000, 0x00000000, 0x00004010⟩,
  ⟨0x7804, 0, 1, 0, 1, 0, .tenant, 0x00000000, 0x00000000, 0x00000000, 0x00000000, 0x00000000⟩,
  ⟨0x7808, 0, 1, 0, 1, 0, .tenant, 0x00000000, 0x00000000, 0x00000000, 0x00000000, 0x00000040⟩,
  ⟨0x7c00, 0, 1, 0, 1, 2, .cold, 0x00000000, 0x00000000, 0x00000000, 0x00000000, 0x20000000⟩,
  ⟨0x7c04, 0, 1, 0, 1, 2, .warm, 0x00000000, 0x00000000, 0x00000000, 0x00000000, 0x80420400⟩,
  ⟨0x7c08, 0, 1, 0, 1, 2, .cold, 0x00000000, 0x00000000, 0x00000000, 0x00000000, 0x00000000⟩,
  ⟨0x7c0c, 0, 1, 0, 1, 2, .warm, 0x0000000F, 0x02000000, 0x0000000F, 0x00000000, 0x00000000⟩,
  ⟨0x7c10, 0, 1, 0, 1, 2, .cold, 0xC3FF0000, 0x00000000, 0x00000000, 0x00000000, 0x80B40000⟩,
  ⟨0x7c20, 0, 1, 0, 1, 2, .cold, 0x003F0FFF, 0x00000000, 0x00000000, 0xC0000000, 0x00000000⟩,
  ⟨0x7c24, 0, 1, 0, 1, 2, .warm, 0x00000000, 0x40000000, 0x00000000, 0x00000000, 0x00000000⟩,
  ⟨0x7c30, 0, 1, 0, 1, 2, .warm, 0x00000000, 0x00000000, 0x00000000, 0x00000000, 0x00000000⟩,
  ⟨0x7c34, 0, 1, 0, 1, 2, .warm, 0x00000000, 0x00000000, 0x00000000, 0x00000000, 0x00000000⟩,
  ⟨0x7c38, 0, 1, 0, 1, 2, .cold, 0x00000000, 0x00000000, 0x00000000, 0x00000000, 0x00000000⟩,
  ⟨0x7c3c, 0, 1, 0, 1, 2, .cold, 0x00000000, 0x00000000, 0x00000000, 0x00000000, 0x00000000⟩,
  ⟨0x7c40, 0, 1, 0, 1, 2, .warm, 0x00000000, 0x00000000, 0x00000000, 0x00000000, 0x00000000⟩,
  ⟨0x7c44, 0, 1, 0, 1, 2, .warm, 0x00000000, 0x00000000, 0x00000000, 0x00000000, 0x00000000⟩,
  ⟨0x8000, 0, 1, 0, 1, 2, .warm, 0x00000000, 0x00200000, 0x00200000, 0x00000000, 0x00000000⟩,
  ⟨0x8004, 0, 1, 0, 1, 2, .warm, 0x00000000, 0x00000000, 0x00000000, 0x00000000, 0x00000000⟩,
  ⟨0x8008, 0, 1, 0, 1, 2, .warm, 0xFFFFFFFF, 0x00000000, 0x00000000, 0x00000000, 0x00000000⟩,
  ⟨0x800c, 0, 1, 0, 1, 2, .warm, 0xFFFFFFFF, 0x00000000, 0x00000000, 0x00000000, 0x00000000⟩,
  ⟨0x8010, 0, 1, 0, 1, 2, .warm, 0x00000000, 0x00000000, 0x00000000, 0x00000000, 0x00000000⟩,
  ⟨0x8014, 0, 1, 0, 1, 2, .warm, 0x00000000, 0x00000000, 0x00000000, 0x00000000, 0x00000000⟩,
  ⟨0x8020, 0, 1, 0, 1, 2, .cold, 0x00000000, 0x00000000, 0x00000000, 0x00000000, 0x00000000⟩,
  ⟨0x8030, 0, 1, 0, 1, 2, .cold, 0x00000000, 0x00000000, 0x00000000, 0x00000000, 0x00000000⟩,
  ⟨0x8034, 0, 1, 0, 1, 2, .cold, 0x0000FFFF, 0x00000000, 0x0000FFFF, 0x00000000, 0x00000000⟩,
  ⟨0x8080, 4, 16, 0, 1, 2, .cold, 0x00000000, 0x00000000, 0x00000000, 0x00000000, 0x00000000⟩,
  ⟨0x8100, 0, 1, 0, 1, 2, .cold, 0x00000000, 0x00000000, 0x00000000, 0x00000000, 0x00000000⟩,
  ⟨0x8104, 0, 1, 0, 1, 2, .cold, 0xFFFFFFFF, 0x00000000, 0x00000000, 0x00000000, 0x00000000⟩,
  ⟨0x8140, 4, 16, 0, 1, 2, .cold, 0x00000000, 0x00000000, 0x00000000, 0x00000000, 0x00000000⟩]

/-- All register tables. -/
def regTable : List RegSpec := regTable0 ++ regTable1 ++ regTable2 ++ regTable3

/-- Whether address `a` is an address of the row: the second index first, then the first. -/
def RegSpec.holds (r : RegSpec) (a : Nat) : Bool :=
  decide (r.base ≤ a) &&
  (let d := a - r.base
   let i := if r.stride = 0 then 0 else d / r.stride
   let e := d - i * r.stride
   let k := if r.stride2 = 0 then 0 else e / r.stride2
   decide (i < r.count) && decide (k < r.count2) && (i * r.stride + k * r.stride2 == d))

/-- Whether function `fn` has the register in its window (R378). -/
def RegSpec.inWindow (r : RegSpec) (fn : Nat) : Bool :=
  match r.who with
  | 0 => true
  | 1 => fn != 0
  | _ => fn == 0

/-- The row of a window address of a function; none at a reserved address (R17, R378). -/
def regSpec? (fn a : Nat) : Option RegSpec := regTable.find? (fun r => r.inWindow fn && r.holds a)

end Sys2Proof.Machine
end

