-- ==== Sys2Proof/Machine/State.lean ====
section
/-! DEFINITION. The state of the module as plain data, and the state right after power-up (State.reset). -/

namespace Sys2Proof.Machine

/-- Addressed memory under the 144/128 code (R320): bytes by address, and for each 16-byte word, by its number, the
syndrome of the codeword held (R323), 0 for a codeword. The canonical poisoned word is data 0 with syndrome 0x0FF0 (R322). -/
structure Ram where
  cells : Cells 8 := []
  marks : Cells 16 := []
  deriving DecidableEq, Repr

/-- One 128-byte sector in transit: 8 data words, and which of them are poisoned (R268). -/
structure Sector where
  data : BitVec 1024 := 0
  pois : BitVec 8 := 0
  deriving DecidableEq, Repr

/-- One entry of a group's reconvergence list. `join` false: an entry of the reconvergence stack (R64, R68): `mask` waits
to run at `target`. `join` true: the lanes that wait at `rcv` after the entry was popped. -/
structure StackEntry where
  join : Bool
  parked : Bool
  rcv : Nat
  target : Nat
  mask : Word
  eventsAt : Nat
  deriving DecidableEq, Repr

/-- A register write an earlier instruction still owes (R104). `token` names the instruction that owes it. A load or ATOM
gathers what its lines returned: its lanes, the lanes that met poison and their word addresses, the lanes of counted
re-reads (R127, R297), and whether memory was modified (R73). `traps`: it may leave a deferred fault. `reads`: source registers
it has still to read (R188). -/
structure PendWrite where
  token : Nat
  vregs : List Nat
  uregs : List Nat
  reads : List Nat := []
  traps : Bool := false
  lanes : Word := 0
  poison : List (Nat × Nat) := []
  reread : List (Nat × Nat) := []
  modified : Bool := false
  deriving DecidableEq, Repr

/-- A deferred fault waiting for its consuming instruction (R127). -/
structure Deferred where
  vregs : List Nat
  code : Nat
  lanes : Word
  addr : Nat
  opc : Bool
  deriving DecidableEq, Repr

/-- The fault state of R105, the stack depth at handler entry (R135), and the fault's number among those its tenant has
recorded (R137). -/
structure Handler where
  code : Nat
  pc : Nat
  mask : Word
  lanes : Word
  addr : Nat
  info : Word
  depth : Nat
  no : Nat := 0
  deriving DecidableEq, Repr

/-- What an issued instruction of the group still waits for before the group may go on. -/
inductive Wait where
  | none                      -- nothing
  | barrier (b : Nat)         -- JOIN.WAIT or REDB on barrier b (R76, R247)
  | lock                      -- ACQ or REL (R120)
  deriving DecidableEq, Repr

/-- The debugger's hold on a group (DBG_STATUS.STATE, R84, R85). `stepping`: the one instruction of a step has yet to
issue; `stepped`: it has issued and completes. -/
inductive Halt where
  | running | pending | halted | stepping | stepped
  deriving DecidableEq, Repr

/-- One lane of a line request: its device address and tenant address, the register it fills, its operand and compare value. -/
structure LaneAcc where
  lane : Nat
  addr : Nat
  taddr : Nat
  reg : Nat
  data : BitVec 128
  cmp : DWord
  deriving DecidableEq, Repr

/-- An ACQ or REL whose lanes the Hull is answering (R67, R69). `late`: the lanes' steps of all its lines are made together,
because the instruction may still fault (R65, R69, R71, R128). -/
structure LockOp where
  acquire : Bool
  late : Bool
  rcv : Nat
  dest : Nat
  lanes : Word
  accs : List LaneAcc
  got : Word       -- lanes that acquired or released
  sibling : Word   -- lanes whose word a lane of the group holds
  wrong : Word     -- REL lanes whose word is not their own tag
  pois : List Nat  -- poisoned words met
  stop : Nat := 0  -- the Hull stored nothing: 1 a lane that is no owner or finds the stack full, 2 every lane parked again
  left : Nat       -- requests not answered yet
  deriving DecidableEq, Repr

/-- The per-group architectural state (R51) and what the group waits for. -/
structure Group where
  vf : Nat
  launch : Nat
  block : Nat                  -- block slot on the Facet
  gidx : Nat                   -- GROUP (R105)
  pc : Nat                     -- code-store byte offset
  v : Cells 32 := []           -- lane l of register n at 32 * n + l
  vbad : List Nat := []        -- vector register words (R54), 8 * n + lane / 4, whose codeword is uncorrectable (R213, R251)
  u : Cells 32 := []
  p : Cells 32 := []           -- predicate n as a lane mask
  stack : List StackEntry := []  -- innermost first
  active : Word := 0xFFFFFFFF
  exited : Word := 0
  shift : Nat := 0             -- output-scale register (R207)
  ovf : Bool := false
  lfsr : Cells 32 := []        -- stochastic-rounding lane states (R160)
  progress : Nat := 0          -- progress counter in half Facet cycles (R73)
  events : Nat := 0            -- progress events so far (R73)
  resumed : Option (Nat × Nat) := none  -- parked lanes resumed: the ACQ's address, and the event count that means no progress (R71)
  wait : Wait := .none
  lock : Option LockOp := none
  halt : Halt := .running
  faulted : Option Handler := none      -- halted at a faulting instruction, the handler not yet entered (R85, R129)
  handler : Option Handler := none      -- inside the fault handler (R130)
  writes : List PendWrite := []
  deferred : List Deferred := []
  awaiting : Option Nat := none  -- barrier of a JOIN.WAIT that raised PROGRESS_STALL with ARRIVED and has not released (R128, R134)
  done : Bool := false         -- no lane remains (R122)
  deriving DecidableEq, Repr

/-- One use of a named barrier (R76, R77, R247). `redb` holds MOD, TYPE and IDX of a REDB use; `entries` the arrived
groups' lane values and lane indices, `dests` by GROUP whether the destination is uniform and its register; `use` numbers a
REDB use. -/
structure Barrier where
  mask : Nat
  arrived : List Nat
  redb : Option (Nat × Nat × Nat)
  entries : List (Nat × List Word × List Word)
  dests : List (Nat × Bool × Nat) := []
  use : Nat := 0
  deriving DecidableEq, Repr

/-- A block resident on a Facet: its launch, its group count, its OPC allocation and its barriers (R51, R217). -/
structure Block where
  vf : Nat
  launch : Nat
  index : Nat
  g : Nat
  granules : Nat
  opc : Ram := {}
  barriers : List (Nat × Barrier) := []
  ended : Bool := false
  aborted : Bool := false
  deriving DecidableEq, Repr

/-- The kinds of line request (R59, R119, R120, R236). -/
inductive ReqKind where
  | load | store | atomic | acq | rel | tmLoad | tmStore | hint
  deriving DecidableEq, Repr

/-- Where a line request stands (R270). -/
inductive ReqStage where
  | formed     -- on its way to the slice
  | busy       -- answered HULL_BUSY
  | accepted   -- accepted, its sectors not yet in the line
  | served     -- served; its data or acknowledgement returns
  deriving DecidableEq, Repr

/-- One line request of a Facet (R59): it holds a slot until its data or its acknowledgement comes back (R62). -/
structure LineReq where
  id : Nat
  f : Nat
  slot : Nat
  vf : Nat
  launch : Nat
  kind : ReqKind
  line : Nat                  -- device line number
  sectors : BitVec 16
  lanes : List LaneAcc
  bytes : List (Nat × Byte)   -- bytes stored, by offset in the line, later ones win (R61)
  pois : List Nat             -- words of the line stored poisoned (R239)
  width : Nat
  signed : Bool
  op : Nat                    -- ATOM operation (R119); ACQ and REL: not 0 when the steps of all lines are made together
  type : Nat
  use : Nat
  cls : Nat
  dead : Bool
  token : Nat                 -- pending register write, or transfer id
  reread : Bool := false      -- counted dead-line re-read (R296)
  bypass : Bool := false      -- not allocated, thrash guard engaged (R291)
  stage : ReqStage := .formed
  result : List (Nat × BitVec 128 × Bool) := []  -- lane, value, poisoned
  deriving DecidableEq, Repr

/-- A tile-mover transfer (R234): the descriptor registers as they were at issue. -/
structure Transfer where
  id : Nat
  slot : Nat
  vf : Nat
  launch : Nat
  block : Nat
  store : Bool
  tag : Nat
  mem : List Word
  opc : List Word
  use : Nat
  cls : Nat
  dead : Bool
  after : List Nat            -- stores and atomics to be acknowledged first (R236)
  lines : List Nat            -- tenant line numbers not yet requested, ascending
  out : Nat := 0              -- requests in flight
  back : Ram := {}            -- bytes returned, by tenant address
  got : List Nat := []        -- tenant lines returned
  written : List Nat := []    -- OPC granules written (R237)
  deriving DecidableEq, Repr

/-- An instruction queued at the vector OPC port (R230): OLD or OST with its lanes, indices and store data. -/
structure PortOp where
  slot : Nat
  block : Nat
  store : Bool
  desc : List Word
  lanes : Word
  rows : List Nat             -- row and column of each lane, exact
  cols : List Nat
  reg : Nat
  regs : Nat                  -- registers per lane
  data : Cells 32             -- store data, as Group.v
  token : Nat
  ralelle : Bool := false     -- an instruction with Ralelle operands, its words read in `rows`, those written in `cols` (R243)
  deriving DecidableEq, Repr

/-- Where an RDU result goes: a group's slot, its pending-write token, and the destination register. -/
structure RduOut where
  slot : Nat
  token : Nat
  uniform : Bool
  reg : Nat
  deriving DecidableEq, Repr

/-- An instruction queued at the RDU (R249): scope 0 REDG, 2 RED.R, 3 one arrival of a REDB; scope 1 is the result of a REDB
use, which waits apart until the RDU has accepted its arrivals. `use` names the REDB use. -/
structure RduOp where
  scope : Nat
  block : Nat
  mod : Nat
  type : Nat
  g : Nat := 0                -- groups of the block, for REDB
  outs : List RduOut
  values : List Word := []    -- REDG lane values
  indices : List Word := []
  groups : List (Nat × List Word × List Word) := []  -- REDB entries by GROUP
  desc : List Word := []
  lanes : Word := 0
  row0 : Nat := 0
  col0 : Nat := 0
  len : Nat := 0
  base : Word := 0
  order : Nat                 -- issue order among the Facet's port and RDU instructions (R230)
  use : Nat := 0
  deriving DecidableEq, Repr

/-- An MMA issued to a Prism: its words and descriptor registers, the accumulator and the scale register E as read at
acceptance (no accumulator while it comes from the latch, R197). -/
structure MmaOp where
  slot : Nat
  block : Nat
  w0 : DWord
  w1 : DWord
  adesc : List Word
  bdesc : List Word
  pbase : Nat
  acc : Option (List Word) := none
  scales : List Word := []
  early : List (List Nat) × List (List Nat) := ([], [])  -- A and B as the OPC held them when this pass began (R214)
  token : Nat
  retries : Nat := 0
  deriving DecidableEq, Repr

/-- The accumulator latch (R197): who left its result there. -/
structure Latch where
  slot : Nat
  op : Nat
  shape : Nat
  dst : Nat
  tile : List Word
  deriving DecidableEq, Repr

/-- A Prism and its output stage: issued, accepted, and finished-with-STAT instructions. -/
structure Prism where
  queue : List MmaOp := []
  flight : List MmaOp := []
  out : List (MmaOp × List Word) := []
  latch : Option Latch := none
  deriving DecidableEq, Repr

/-- A physical Facet (R41). -/
structure Facet where
  groups : List (Nat × Group) := []   -- by slot
  blocks : List (Nat × Block) := []   -- by block slot
  code : Ram := {}
  half : Nat := 0                     -- half Facet cycles since the last Facet reset (R105)
  parts : Nat := 0                    -- 64ths of a half cycle carried on (R456)
  transfers : List Transfer := []
  port : List PortOp := []
  rdu : List RduOp := []
  redb : List RduOp := []             -- released REDB uses with arrivals the RDU has not accepted (R247, R249)
  prisms : List (Nat × Prism) := []
  aged : List (Nat × Nat × Bool) := []  -- client, bank, write (R221)
  failed : Bool := false              -- out of service (R49)
  cleared : Bool := false             -- reset through RESET_CTRL, no new block until tenant reset (R525)
  deriving DecidableEq, Repr

/-- A way's tag entry (R269), and whether it is disabled (R298). -/
structure Way where
  tag : Nat := 0
  valid : BitVec 16 := 0
  dirty : BitVec 16 := 0
  tenant : Nat := 0
  use : Nat := 0
  cls : Nat := 0
  dead : Bool := false
  filling : Bool := false
  age : Nat := 0
  off : Bool := false
  pinner : Nat := 0           -- the tenant that pinned it, for a pinned line (R289)
  deriving DecidableEq, Repr

/-- A fill in flight, holding a tracker (R279): the sectors still to arrive, whether the engine has read them. -/
structure Fill where
  line : Nat
  sectors : BitVec 16
  bypass : Option Nat := none   -- the bypassed request (R291)
  read : Bool := false
  deriving DecidableEq, Repr

/-- A pin or unpin command queued (R286), with its range as it was when MP accepted it: tenant address and lines. -/
structure PinCmd where
  vf : Nat
  pin : Bool
  addr : Nat
  lines : Nat
  running : Bool := false     -- in its loop (R287), with `left` lines still to pin
  left : Nat := 0
  deriving DecidableEq, Repr

/-- The thrash guard of one tenant (R291, R292): this period's counts, the run of low periods, the configuration in force. -/
structure Guard where
  hits : Nat := 0
  requests : Nat := 0
  run : Nat := 0
  engaged : Bool := false
  cfg : Word := 0x00401008
  deriving DecidableEq, Repr

/-- The Hull. -/
structure Hull where
  sets : List (Nat × List Way) := []    -- by 128 * slice + set
  data : Ram := {}                      -- line data by device address
  fills : List Fill := []
  busy : List Nat := []                 -- recorded HULL_BUSY requests, oldest first
  dead : List (Nat × List (Nat × Nat)) := []  -- by slice: line, tenant; oldest first (R296)
  pins : List PinCmd := []
  guards : List (Nat × Guard) := []
  held : List Nat := []                 -- host-held 64-byte lines, oldest first (R385)
  snoops : List Nat := []               -- back-invalidates not answered
  deriving DecidableEq, Repr

/-- A write to one sector on its way to the write sink or in it (R304). -/
structure SinkWrite where
  sector : Nat                -- device address / 128
  mask : BitVec 128
  data : Sector
  deriving DecidableEq, Repr

/-- A near-memory accumulate request (R317); `reply` is the Chord requester's position and tag. -/
structure Nma where
  addr : Nat
  op : Nat
  type : Nat
  mask : DWord
  data : Sector
  ordered : Bool
  vf : Nat
  reply : Option (Nat × Nat)
  stripe : Nat := 0
  taddr : Nat := 0            -- tenant address of the granule (R261)
  ahead : Nat := 0            -- writes to its sector that reached the engine earlier and wait for the sink (R318)
  after : Option SinkWrite := none -- bytes of its sector committed after it: they stay in the sink's entry until it is applied
  since : Nat := 0            -- when it reached the engine (R307)
  deriving DecidableEq, Repr

/-- A run-time remap whose copy runs (R314). -/
structure RemapCopy where
  bank : Nat
  row : Nat
  spare : Nat
  deriving DecidableEq, Repr

/-- A pseudo-channel engine of a Frustum (R304 to R316). -/
structure PseudoChannel where
  inbound : List SinkWrite := []
  sink : List SinkWrite := []
  service : Bool := false
  served : Nat := 0                   -- demand reads served since the last service window (R307)
  nma : List Nma := []
  scrub : Nat := 0                    -- next sector of the pass, in (bank, row, sector) order
  passes : Nat := 0                   -- scrub passes completed
  rowCe : Cells 16 := []              -- corrected words by bank * 40960 + row, in this pass
  rowUe : List Nat := []              -- rows that met a word uncorrectable after its re-read (R314)
  refreshes : Nat := 0
  failedPins : List Nat := []         -- symbols of its data and check pins that failed training (R302, R316)
  copy : Option RemapCopy := none
  agentAt : Option Nat := none        -- since when an agent's read waits for a service window (R307)
  deriving DecidableEq, Repr

/-- The HBM: cells by device address, engines by 64 * stack + pseudo-channel, remap entries by stack. -/
structure Hbm where
  cells : Ram := {}
  pcs : List (Nat × PseudoChannel) := []
  remaps : List (Nat × List (Nat × Nat × Nat × Nat)) := []  -- by stack: pc, bank, row, spare
  waiting : List (Nat × Nat × Nat × Nat × Nat) := []  -- run-time remaps that wait for SP (R314)
  selfRefresh : Bool := false         -- every engine's pseudo-channel is in self-refresh (R310)
  trained : Bool := false             -- stage 6 of a start has trained it (R493, R494)
  deriving DecidableEq, Repr

/-- A Chord message (R336 to R338). `moved`: taken back from a faulted port (R355); `pin`: the port a control message must
take (R355, R359). -/
structure Msg where
  fn : Nat                  -- issuing or receiving function
  dst : Nat
  src : Nat
  kind : Nat
  vc : Nat
  resent : Bool := false
  hdr : BitVec 128
  words : List Code
  stripe : Nat              -- R353
  moved : Bool := false
  pin : Option Nat := none
  deriving DecidableEq, Repr

/-- A message accepted at a port (R345): segments sent, and their sequence numbers not yet acknowledged. -/
structure TxMsg where
  msg : Msg
  ded : Nat := 0            -- dedicated credits reserved; the rest are shared
  sent : Nat := 0
  unacked : List Nat := []
  deriving DecidableEq, Repr

/-- A message received in part (R336): flits held, and how many of them hold shared credits. -/
structure Partial where
  src : Nat
  vc : Nat
  next : Nat
  words : List Code
  flits : Nat
  shared : Nat
  deriving DecidableEq, Repr

/-- A complete received message waiting in the ingress buffer; `checked` once R347 passed. -/
structure RxMsg where
  msg : Msg
  flits : Nat
  shared : Nat
  checked : Bool := false
  deriving DecidableEq, Repr

/-- The states of PORT_STATE (R375). -/
inductive PortState where
  | disabled | training | up | upReduced | failed | down | noVersion
  deriving DecidableEq, Repr

/-- A Chord port. -/
structure Port where
  state : PortState := .disabled
  version : Nat := 0
  lanes : Nat := 0
  adv : Nat := 5                  -- version set advertised in this training (R331)
  reduced : Bool := false         -- width the next training tries
  reducedHi : Bool := false       -- on lanes 2-3 instead of 0-1
  txSeq : Nat := 0
  rxNext : Nat := 0
  ackSeq : Option Nat := none     -- last DATA flit received good and in order
  discarding : Bool := false      -- until the replay arrives (R350)
  seen : Option Nat := none       -- SEQ of the last flit discarded as out of order
  carried : List (Nat × List (Nat × Bool × Nat)) := []  -- credit returns of unacknowledged DATA flits, by SEQ (R342)
  retryDue : Bool := false
  replay : List Nat := []         -- sequence numbers to send again
  replayTimes : List Nat := []
  credits : List (Nat × Nat) := []  -- dedicated credits by VC
  sharedCredits : Nat := 0
  used : List (Nat × Nat) := []   -- ingress flits held: dedicated ones by VC, those of the shared pool under 12
  owed : List (Nat × Bool × Nat) := []  -- credit returns due: VC, shared, count
  slot : Nat := 0                 -- next of the 8 flit slots (R344)
  tx : List TxMsg := []
  part : List Partial := []
  rx : List RxMsg := []
  faultLane : Option Nat := none
  attempts : Nat := 0             -- failed retraining attempts (R358)
  deciding : Bool := false        -- step 6 of R355 reached, decision not made
  trainDue : Bool := false        -- a training is due (R330, R358)
  retrain : Bool := false         -- it is a retraining (R358)
  ordered : Bool := false         -- its next attempt has its command or its expired wait (R358)
  shut : Bool := false            -- DISABLED by a third failed attempt, until PORT_CMD or a cold start (R358)
  sentFlits : Nat := 0            -- flits sent since its training (R329)
  gotFlits : Nat := 0             -- flits received since its training, modulo 1,285 (R329)
  fecNow : Nat × Nat := (0, 0)    -- wrong symbols of the two codewords that the last flit received lies in (R329)
  deriving DecidableEq, Repr

/-- A REMOTE entry waiting for its response (R343, R527). -/
structure Remote where
  fn : Nat
  tag : Nat
  kind : Nat
  len : Nat
  laddr : Nat
  since : Nat
  ring : Nat
  seq : Nat
  landed : Option (List Code) := none   -- a response in its landing space, not yet written (R343)
  deriving DecidableEq, Repr

/-- One action of a collective's fixed schedule (R363 to R366): send the elements of `parts` to a peer rank, or take them
from one. `mode` 0 stores what came, 1 puts the received partial on the right of the own one, 2 on the left. `f32`: the
elements travel as F32 partials, else in TYPE. -/
structure Action where
  send : Bool
  peer : Nat
  step : Nat
  parts : List (Nat × Nat)
  f32 : Bool
  mode : Nat := 0
  deriving DecidableEq, Repr

/-- The words of a COLL message sent or received, for the digests (R371). -/
structure StreamWords where
  received : Bool
  peer : Nat                -- position
  step : Nat
  piece : Nat
  words : List (BitVec 128)
  poisoned : Nat
  deriving DecidableEq, Repr

/-- A collective accepted and not ended (R360 to R370); the first one of its function and group runs. `acc` holds the
elements: F32 patterns for a reducing operation, else patterns of TYPE. -/
structure Collective where
  fn : Nat
  g : Nat
  id : Nat
  op : Nat
  alg : Nat
  red : Nat
  bf16 : Bool
  count : Nat
  src : Nat                 -- device addresses
  dst : Nat
  peer : Nat                -- ROOT or PEER
  tag : Word
  rank : Nat
  members : List Nat        -- positions by rank
  ring : Nat
  seq : Nat
  loaded : Bool := false    -- SRC has been read
  acc : List Word := []
  out : Nat × Nat := (0, 0) -- elements of acc written to DST at the end
  todo : List Action := []
  stream : List StreamWords := []
  progressAt : Nat := 0
  phase : Nat := 1          -- LOWRANK phase
  wait : Bool := false      -- LOWRANK waits for LOWRANK_CONT (R370)
  second : Nat × Nat := (0, 0) -- LOWRANK: elements and device address of Q
  deriving DecidableEq, Repr

/-- A COLL message taken into staging or held (R361). -/
structure Staged where
  id : Nat
  step : Nat
  piece : Nat
  src : Nat
  words : List Code
  deriving DecidableEq, Repr

/-- The state of one (function, group) pair of a collective engine (R361, R367): COLL_ID of the next entry, staging, and
the (COLL_ID, STEP, PIECE) taken. -/
structure CollGroup where
  nextId : Nat := 0
  staged : List Staged := []
  seen : List (Nat × Nat × Nat) := []
  deriving DecidableEq, Repr

/-- A Locus ring's progress (R386, R387). -/
structure Ring where
  nextSeq : Nat := 0
  cqIndex : Nat := 0
  phase : Bool := true
  woken : Bool := false       -- the front end has the head slot still to read (R387)
  judged : Bool := false      -- the head entry is present and passed its at-once checks (R526)
  deriving DecidableEq, Repr

/-- An accepted entry that has not completed (R388). -/
structure Entry where
  fn : Nat
  ring : Nat
  seq : Nat
  opcode : Nat
  user : DWord
  msix : Bool
  dropped : Bool := false     -- an event of R401 since acceptance (R402)
  deriving DecidableEq, Repr

/-- A launch that has not completed (R53, R93, R162). -/
structure Launch where
  id : Nat
  fn : Nat
  ring : Nat
  seq : Nat
  codeBase : Nat
  codeLen : Nat
  h : Nat
  g : Nat
  o : Nat
  ralelle : Bool
  nblocks : Nat
  param : Nat
  seedLo : Word
  seedHi : Word
  seeded : Bool
  next : Nat := 0             -- next block index
  live : Nat := 0             -- blocks dispatched and not ended
  fault : Option (Nat × Nat × Nat × Nat) := none  -- code, logical Facet, slot, FAULT_PC
  lost : Bool := false
  facet0 : Nat := 0           -- physical Facet of logical Facet 0 at dispatch
  start : Nat := 0            -- its half cycles at dispatch of block 0
  finish : Nat := 0           -- and at the end of the last block
  before : Nat := 0           -- half cycles that Facet counted before a reset of it
  deriving DecidableEq, Repr

/-- A CODE_LOAD or LOWER that has not completed (R95, R391). -/
structure CodeLoad where
  fn : Nat
  ring : Nat
  seq : Nat
  dest : Nat
  len : Nat
  src : Nat
  lower : Bool
  cands : List (List Byte) := []  -- LOWER: the candidate images (R143)
  image : Option (List Byte) := none  -- LOWER: the candidate taken
  deriving DecidableEq, Repr

/-- A drain that runs (R258 to R263, R411). -/
structure Drain where
  fn : Nat
  ring : Nat
  seq : Nat
  buf : Nat
  buddy : Bool
  store : Bool
  step : Nat
  base : Nat                  -- tenant base of the buffer
  len : Nat                   -- bytes
  next : Nat := 0             -- offset of the next line to read
  delta : List Nat := []      -- marked sectors of the delta range still to send (R411)
  hadDelta : Bool := false
  hold : Bool := false        -- waits for the decision of function 4 (R406)
  lost : Bool := false        -- a CKPT of the leg was refused at egress (R345)
  sent : Nat := 0             -- data bytes of CKPT messages, marker excluded
  marker : Bool := false      -- marker sector handed over
  overlap : Bool := false
  gen : Nat := 0              -- the open generation
  storeEnd : Nat := 0         -- 0 running, 1 committed, 2 aborted, 3 failed
  deriving DecidableEq, Repr

/-- What a receiving function keeps of its buddy's copy (R412). -/
structure BuddyRx where
  step : Nat := 0
  bytes : Nat := 0
  want : Option Nat := none   -- the marker's byte count
  overlap : Bool := false
  deriving DecidableEq, Repr

/-- One function: its window registers (by address; an address not listed holds its reset value), its committed seed and
its dynamic state. -/
structure Fn where
  regs : List (Nat × Word) := []
  seed : DWord := 0
  rings : List (Nat × Ring) := []
  resetting : Bool := false       -- tenant reset running (R397)
  disableAfter : Bool := false    -- a write of ENABLE = 0 joined it
  faultNo : Nat := 0              -- faults recorded: the number of the one in EXEC_FAULT_LAST (R137)
  recover : Bool := false         -- function 3 holds acceptance until a reset (R406)
  drains : Nat := 0               -- buddy-only drains since the last store leg (function 4)
  rx : BuddyRx := {}
  clamped : Bool := false         -- the function's request is clamped now (R464)
  nextTag : Nat := 0              -- next REMOTE tag
  lastRing : Nat := 63            -- the ring the front end served last (R388)
  owedDigests : List (List Byte) := []  -- digest entries a reset has still to write (R374, R385)
  deriving DecidableEq, Repr

/-- A window access captured that MP has yet to answer (R381, R503); `read`: a read of DBG_DATA. -/
structure Held where
  fn : Nat
  addr : Nat
  size : Nat
  value : Word
  read : Bool := false
  deriving DecidableEq, Repr

/-- A decision that waits for an answer (R408). -/
structure Decision where
  fn : Nat
  subject : Nat
  due : Nat
  data : Nat := 0
  deriving DecidableEq, Repr

/-- A generation of the Gnomon store (R431 to R439): `pages` page units of 12 KiB programmed. -/
structure Generation where
  gen : Nat
  fn : Nat
  step : Nat
  buf : Nat
  len : Nat                   -- 64 KiB units
  stripes : List Nat := []
  data : Ram := {}
  filled : Nat := 0           -- bytes received from the drain
  pages : Nat := 0
  committed : Bool := false   -- copy A of the journal holds its COMMIT (R434)
  told : Bool := false        -- and copy B
  digest : BitVec 128 := 0
  poisoned : Nat := 0
  deriving DecidableEq, Repr

/-- A journal record (R435, R436); `body` holds its bytes 24 to 123. `good`: its words decode, and MAGIC and CHECK match; a torn
program leaves a record that is not (R437, R438). -/
structure JournalRec where
  seq : Nat
  type : Nat
  fn : Nat
  gen : Nat
  body : List Byte
  good : Bool := true
  deriving DecidableEq, Repr

/-- What a copy of the system area holds beside the journal (R447): the lifetime counters (R422), the run-time HBM remaps as stack,
pseudo-channel, bank, row and spare (R314), the retired-Facet record (R45), the retired blocks and their replacements (R445),
the anti-rollback counters and the wrapped identity key (R448). -/
structure SysArea where
  life : Cells 64 := []
  remaps : List (Nat × Nat × Nat × Nat × Nat) := []
  retired : List Nat := []
  bad : List (Nat × Nat) := []
  rollback : List (Nat × Nat) := []
  key : Option (List Byte) := none
  deriving DecidableEq, Repr

/-- A restore that runs (R440): the generation, the buffer's tenant address, the next page unit, what has been read. -/
structure Restore where
  gen : Nat
  fn : Nat
  base : Nat
  next : Nat := 0
  data : Ram := {}
  poisoned : Nat := 0
  deriving DecidableEq, Repr

/-- The Gnomon store. Block numbers are (die * 4 + plane) * 4096 + block. -/
structure Store where
  paused : Bool := false              -- after a supply warning or for S1 or S2 (R449)
  finish : List (Nat × Nat) := []     -- pages in program when it paused or SP crashed: generation, page units to end at
  starting : Bool := true             -- until the rebuild of R438
  readOnly : Bool := false
  nextGen : Nat := 1
  nextSeq : Nat := 1
  gens : List Generation := []        -- open and committed, oldest first
  copyA : List JournalRec := []
  copyB : List JournalRec := []
  upperA : Bool := false              -- the upper half of the copy's blocks holds its journal (R437, log entry 58)
  upperB : Bool := false
  queue : List JournalRec := []       -- records that copy B does not hold yet, in SEQ order (R437)
  inB : Bool := false                 -- copy A holds the first of them
  dropped : List Generation := []     -- discarded, the DISCARD in no copy yet
  areaA : SysArea := {}
  areaB : SysArea := {}
  due : List (Nat × Nat) := []        -- DISCARD records that wait for SP: generation, REASON (R263)
  erases : Cells 16 := []             -- erase counts by block
  reads : Cells 32 := []              -- reads since erase by block (R444)
  bad : List (Nat × Nat) := []        -- retired block and its replacement, same plane (R445)
  factory : Option Nat := none        -- how many of them bear factory marks, once the first start has recorded these (R445)
  erasing : List (Nat × List Nat) := []  -- relocated stripes to erase, by the planes (64 * plane + die) left (R443)
  writtenBytes : Nat := 0
  ratedExceeded : Bool := false
  restore : Option Restore := none
  scrubbing : Bool := false
  scrubbed : List Nat := []           -- pages the running scrub pass has read, as 1024 * block + page (R443)
  corrected : List (Nat × Nat) := []  -- corrected bits of each stripe in that pass (R443)
  relocate : List Nat := []           -- stripes to relocate (R442 to R444)
  deriving DecidableEq, Repr

/-- Clocks, power and heat. -/
structure Power where
  xtalOk : Bool := false
  rcActive : Bool := true
  originLock : BitVec 6 := 0
  islandLock : BitVec 10 := 0         -- paired mode (R455): Facet CD0-CD3, Hull CD0-CD3, IO0, IO1
  islands : List (Nat × Nat × Nat) := []   -- paired mode: island, units of 62.5 MHz, mV
  n : Nat := 64                  -- Facet ratio (R456)
  nLoop : Nat := 64
  limiter : Nat := 64            -- L of R462
  limPeriods : Nat := 0          -- 250-cycle periods of the running 2,500-cycle period (R462)
  limBad : Bool := false         -- one of them met a limit
  lo : Nat := 16
  hi : Nat := 64
  loCut : Nat := 0               -- Level override of a software floor and ceiling (R468)
  hiLift : Nat := 0
  hardHi : Nat := 64
  ballast : Nat := 0             -- b of R466
  ramping : Bool := false        -- N rises under R473
  row : Nat := 0                 -- coolant-curve row (R469)
  cap : Nat := 3000              -- thermal cap PP has written
  rowHeld : Option Nat := none   -- the row whose derating step is held (R470)
  clamp : Bool := false          -- fast current clamp (R462)
  throttle : Bool := false       -- junction throttle (R461)
  ppFloor : Bool := false        -- PP's heartbeat is missing (R465)
  warnAt : Option Nat := none    -- supply warning in force since (R472)
  holds : List Nat := []         -- safe-hold causes in force, the one reported first: HOLD_CAUSE, 5 the inlet limit (R461, R477)
  state : Nat := 0               -- PWR_STATE.STATE
  entering : Nat := 0            -- state being entered, while STATE is 4
  leaving : Nat := 0             -- state being left, while STATE is 4 or 5
  trip : Bool := false           -- the return to P0 that runs follows a junction trip (R404)
  beatAt : Nat := 0              -- last PP heartbeat
  gates : List (Nat × BitVec 3) := []  -- enables that differ from the shipped table (R460)
  volts : Nat := 0               -- mV, mA, W, quarter degrees
  amps : Nat := 0
  watts : Nat := 0
  inlet : Nat := 0
  junction : Nat := 0
  hotDie : Nat := 0
  inrush : Bool := true          -- hot-swap stage limits to 10 A (R514)
  warnInLevel : Bool := false    -- a warning met the running 100 ms window (R481)
  deriving DecidableEq, Repr

/-- HOLD_CAUSE (R482); the inlet limit and the junction trip are both cause 2, thermal. -/
def Power.hold (p : Power) : Nat := if p.holds.headD 0 = 5 then 2 else p.holds.headD 0

/-- Where the start stands (R483 to R494). -/
inductive BootPhase where
  | coldHeld      -- in cold reset
  | warmEntry     -- warm-reset entry (R485)
  | warmHeld      -- entry over, HOST_PERST_N still asserted
  | starting      -- between reset release and Locus acceptance
  | running       -- Locus acceptance has opened
  | recovery      -- recovery mode (R494)
  | stopped       -- in reset, ALERT_N asserted: crystal failure or bad boot cache
  deriving DecidableEq, Repr

/-- A header copy of the config flash (R487). -/
structure Header where
  magic : Nat
  hseq : Nat
  preferred : Nat
  check : Nat
  deriving DecidableEq, Repr

/-- The content of the config flash, and of the boot cache that holds it (R486, R493): the PUF helper data, the module record and
a slot not listed hold what the factory put there (log entry 4); no site block: `none`. -/
structure Flash where
  headers : List Header := [⟨0x48464843, 1, 0, 0x6AE78DA3⟩, ⟨0x48464843, 0, 0, 0xA64D8D3D⟩]  -- copies 0 and 1 (R487)
  helper : Option (List Byte) := none
  record : Option (List Byte) := none
  site : Option (List Byte) := none
  slots : List (Nat × List Byte) := []  -- slots A (0) and B (1)
  deriving DecidableEq, Repr

/-- Start, firmware and trust. -/
structure Boot where
  phase : BootPhase := .coldHeld
  warm : Bool := false            -- the start in progress, or the last one, is a warm start
  opened : Bool := false          -- Locus acceptance has opened since the last cold reset (R517)
  cause : Nat := 1                -- SOURCE of RESET_CAUSE for the reset in progress (R506)
  pinReset : Bool := false        -- MOD_RESET_N asserted
  pinPerst : Bool := false        -- HOST_PERST_N asserted
  seen47 : Bool := false          -- the supply has reached 47.0 V since the last supply reset (R484)
  sealed : Bool := false
  moduleFaults : Nat := 0         -- since the last Locus acceptance (R415)
  faultDue : Bool := false        -- a module fault has been declared and MODULE_FAULT has not run (R415)
  warmDue : Bool := false         -- the warm reset of function 7 is due (R415)
  flash : Flash := {}
  cache : Option Flash := none    -- the boot cache, filled in stage 2 of a cold start (R493)
  measured : List (BitVec 512) := []  -- the measurements of its content, in always-on retention (R493, R499)
  puf : List Byte := []           -- the PUF array as the start read it (R495)
  fellBack : Bool := false        -- the preferred slot was invalid (R492)
  cacheGood : Bool := true        -- the boot cache matched its measurements at the last warm start (R493)
  active : Nat := 0               -- slot whose images are in control
  tables : List Byte := []        -- the table set applied (R502) and its SVN
  tableSvn : Nat := 0
  record : List Byte := []        -- the module record and the site block in force (R497)
  site : Option (List Byte) := none
  recordSvn : Nat := 0
  siteSvn : Nat := 0
  staged : Option Nat := none     -- slot that holds a verified staged image
  staging : Option (Nat × Nat × Nat) := none  -- slot, source and length of a STAGE that runs (R501)
  phaseNo : Nat := 0              -- handover phase (R503), 0 none
  committed : Bool := false       -- commit marker (R503)
  activations : Nat := 0          -- since cold start (R497)
  recoverySlot : Option Nat := none
  recoveryData : List Byte := []
  mpUp : Bool := false
  ppUp : Bool := false
  spUp : Bool := false
  crashAt : List (Nat × Nat) := []  -- processor, time it went absent
  tardy : List Nat := []          -- processors absent beyond their restart time (R499)
  rollback : List (Nat × Nat) := []   -- anti-rollback counters as SP holds them (R491)
  svnWanted : List (Nat × Nat) := []  -- increases that wait for SP (R448)
  identity : Nat := 0             -- IDENTITY (R495)
  identityKey : Option (List Byte) := none  -- the unwrapped key in MP SRAM (R495)
  xtalFailed : Bool := false
  refclk : Bool := true
  deriving DecidableEq, Repr

/-- A record of the log ring (R505). -/
structure LogRec where
  seq : Nat
  time : Nat
  point : Nat
  source : Nat
  fn : Nat
  args : List Nat
  deriving DecidableEq, Repr

/-- The I3C target and the CXL link. -/
structure Side where
  dynAddr : Option Nat := none
  offset : Nat := 0
  latch : List (Nat × Byte) := []   -- bytes of the field latched at its first byte (R511)
  cxlUp : Bool := false
  cxlL2 : Bool := false
  awaitCxl : Bool := false          -- S2 wake, link not retrained (R480)
  session : Bool := false
  senseArmed : Bool := true         -- the WAKE_SENSE comparator is armed (R508)
  deriving DecidableEq, Repr

/-- A completion record as written to host memory (R393). -/
structure HostRecord where
  fn : Nat
  addr : Nat
  bytes : List Byte
  deriving DecidableEq, Repr

/-- What the module has sent out, newest first. -/
structure Outputs where
  records : List HostRecord := []
  msix : List (Nat × Nat) := []          -- function, vector
  answers : List (Nat × Nat × List Byte) := []  -- port (0 window, 1 CXL.mem, 2 agent, 3 I3C, 4 DOE, 5 CCC), id, bytes
  flits : List (Nat × List Byte) := []   -- port, the 256 bytes of a flit
  grants : List (Nat × List Nat) := []   -- port, the credits advertised for VC0 to VC11 and the shared pool (R341)
  snoops : List (Nat × Bool) := []       -- line, true for BISnpInv (R385)
  poisoned : List Nat := []              -- CXL.mem read addresses answered with the poison indication
  deriving DecidableEq, Repr

/-- Lifetime counters (R422): live copy, and the latched pair. -/
structure Life where
  live : Cells 64 := []
  latched : DWord := 0
  deriving DecidableEq, Repr

/-- The whole module. -/
structure State where
  pending : List Instr
  now : Nat                         -- always-on island cycles since cold start
  freeCtr : Nat                     -- the model's counter behind free values
  nextId : Nat                      -- next request, transfer, launch and token number of the model
  positions : List (Option Nat)     -- module position -> physical Facet (R45)
  defects : List Nat                -- defect map (R45)
  retired : List Nat                -- retired-Facet record (R45)
  facets : List (Nat × Facet)
  reqs : List LineReq               -- line requests, in the order formed
  hull : Hull
  hbm : Hbm
  ports : List (Nat × Port)
  egress : List Msg                 -- messages that wait at their issuers
  remotes : List Remote
  colls : List Collective
  groupsOf : List (Nat × CollGroup) -- by 8 * function + g
  fns : List (Nat × Fn)
  held : List Held
  entries : List Entry
  launches : List Launch
  loads : List CodeLoad
  drains : List Drain
  decisions : List Decision
  store : Store
  power : Power
  boot : Boot
  side : Side
  life : Life
  log : List LogRec
  logSeq : Nat
  locusOpen : Bool                  -- Locus acceptance is open (R493, R477)
  out : Outputs
  deriving DecidableEq, Repr

/-- Why the machine stops with a fault. -/
inductive Fault where
  /-- Raised by CXL_MEM_READ and CXL_MEM_WRITE at a device address at or above 960 GiB, which the one HDM decoder does not
  map (R383): no such address exists. Safe: the model stops where the manual gives no behaviour. -/
  | noSuchDeviceAddress (addr : Nat)
  deriving DecidableEq, Repr

/-- Why a command has no meaning. -/
inductive Refusal where
  /-- A command not modelled yet, by its mnemonic. Safe. -/
  | notModelled (mnemonic : String)
  deriving DecidableEq, Repr

/-- The module just after power is applied, before the supply has reached 47.0 V: in cold reset (R484), every register at
its reset value, device memory listing nothing, no Facet holding a position yet. Values the manual does not give are those
of log entries 3, 4, 5, 7 and 8. -/
def State.reset : State where
  pending := []
  now := 0
  freeCtr := 0
  nextId := 0
  positions := []
  defects := []
  retired := []
  facets := []
  reqs := []
  hull := {}
  hbm := {}
  ports := []
  egress := []
  remotes := []
  colls := []
  groupsOf := []
  fns := []
  held := []
  entries := []
  launches := []
  loads := []
  drains := []
  decisions := []
  store := {}
  power := {}
  boot := {}
  side := {}
  life := {}
  log := []
  logSeq := 0
  locusOpen := false
  out := {}

end Sys2Proof.Machine
end

