-- ==== Sys2Proof/Machine/Ops.lean ====
section
/-! DEFINITION. The named operations over memory (Ram), window registers and the parts of the state, and the free values. -/

namespace Sys2Proof.Machine

/-- The outcome type of every meaning. -/
abbrev Out := Host.Outcome State Fault Refusal

/-- The bytes of config-flash slot A (0) or B (1): as programmed, or the factory image (log entry 4). -/
def Flash.slotBytes (x : Flash) (n : Nat) : List Byte := (aget? x.slots n).getD (Config.factorySlot n)

/-- The boot cache, or the flash before a cold start has filled it. -/
def Boot.images (b : Boot) : Flash := b.cache.getD b.flash

/-- What SP writes to the system area, in copy A and then in copy B (R447). -/
def State.saveArea (s : State) (f : SysArea → SysArea) : State :=
  { s with store := { s.store with areaA := f s.store.areaA, areaB := f s.store.areaB } }

/-- The canonical form of a memory: addresses strictly rising, nothing listed that reads as the unlisted value 0. -/
def Memory.wf (m : Ram) : Bool := tableWf 8 m.cells && tableWf 16 m.marks

/-- One byte of a memory. -/
def Ram.byte (m : Ram) (a : Nat) : Byte := tget m.cells a

/-- `n` bytes from address `a`. -/
def Ram.bytes (m : Ram) (a n : Nat) : List Byte := (List.range n).map (fun i => m.byte (a + i))

/-- `n` bytes from address `a` as a little-endian number (R13). -/
def Ram.nat (m : Ram) (a n : Nat) : Nat := leNat (m.bytes a n)

/-- The data bits of 16-byte word `w`. -/
def Ram.word (m : Ram) (w : Nat) : BitVec 128 := BitVec.ofNat 128 (m.nat (16 * w) 16)

/-- The syndrome of word `w` (R323). -/
def Ram.mark (m : Ram) (w : Nat) : BitVec 16 := tget m.marks w

/-- Writes the bytes of a list from address `a`, codes left alone. -/
def Ram.poke (m : Ram) (a : Nat) : List Byte → Ram
  | [] => m
  | b :: t => Ram.poke { m with cells := tset m.cells a b } (a + 1) t

/-- Stores a word with its syndrome. -/
def Ram.setWord (m : Ram) (w : Nat) (d : BitVec 128) (s : BitVec 16) : Ram :=
  let m1 := m.poke (16 * w) (leBytes 16 d.toNat)
  { m1 with marks := tset m1.marks w s }

/-- Stores the canonical poisoned word (R322). -/
def Ram.poison (m : Ram) (w : Nat) : Ram := m.setWord w 0 poisonMark

/-- Whether the word is uncorrectable (R323). -/
def Ram.bad (m : Ram) (w : Nat) : Bool := verdict (m.mark w) == .bad

/-- The word as a check point delivers it: corrected data, or none when uncorrectable (R323). -/
def Ram.decode (m : Ram) (w : Nat) : Option (BitVec 128) :=
  match verdict (m.mark w) with
  | .clean => some (m.word w)
  | .fixed f => some (m.word w ^^^ f)
  | .bad => none

/-- Merges bytes into one word from offset `o` on (R324): the old word decoded and corrected first; an uncorrectable old
word gives the canonical poisoned word; a wholly written word needs no old value. -/
def Ram.mergeWord (m : Ram) (w o : Nat) (new : List Byte) : Ram :=
  if o = 0 ∧ 16 ≤ new.length then m.setWord w (BitVec.ofNat 128 (leNat (new.take 16))) 0
  else match m.decode w with
    | none => m.poison w
    | some d => m.setWord w (BitVec.ofNat 128 (leNat (overlay (leBytes 16 d.toNat) o new))) 0

/-- Writes bytes from address `a`, word by word under R324; `n` bounds the words. -/
def Ram.mergeN (m : Ram) : Nat → Nat → List Byte → Ram
  | 0, _, _ => m
  | n + 1, a, l =>
    if l.isEmpty then m
    else
      let o := a % 16
      Ram.mergeN (m.mergeWord (a / 16) o (l.take (16 - o))) n (a + 16 - o) (l.drop (16 - o))

/-- Writes bytes from address `a` under R324. -/
def Ram.write (m : Ram) (a : Nat) (l : List Byte) : Ram := m.mergeN (l.length / 16 + 2) a l

/-- Whether any word that `n` bytes from `a` touch is uncorrectable. -/
def Ram.badIn (m : Ram) (a n : Nat) : Bool :=
  (List.range ((a + n - 1) / 16 + 1 - a / 16)).any (fun i => n != 0 && m.bad (a / 16 + i))

/-- `n` corrected bytes from `a`; bytes of an uncorrectable word read as 0. -/
def Ram.fetch (m : Ram) (a n : Nat) : List Byte :=
  (List.range n).map (fun i =>
    match m.decode ((a + i) / 16) with
    | none => 0
    | some d => BitVec.ofNat 8 (d.toNat >>> (8 * ((a + i) % 16))))

/-- Removes every word of the range [a, a + n), a whole number of words. -/
def Ram.erase (m : Ram) (a n : Nat) : Ram where
  cells := m.cells.filter (fun e => decide (e.1 < a) || decide (a + n ≤ e.1))
  marks := m.marks.filter (fun e => decide (16 * e.1 < a) || decide (a + n ≤ 16 * e.1))

/-- The words of the carried form of `n` words from word `w` on. -/
def Ram.codes (m : Ram) (w n : Nat) : List Code :=
  (List.range n).map (fun i => packCode (m.word (w + i)) (m.mark (w + i)))

/-- Stores carried words unchanged from word `w` on. -/
def Ram.putCodes (m : Ram) (w : Nat) : List Code → Ram
  | [] => m
  | c :: t => Ram.putCodes (m.setWord w (codeData c) (codeMark c)) (w + 1) t

/-- The sector from words 8 * n of a memory, corrected; an uncorrectable word counts as poisoned. -/
def Ram.sector (m : Ram) (n : Nat) : Sector where
  data := BitVec.ofNat 1024 ((List.range 8).foldl (fun x i => x + ((m.decode (8 * n + i)).getD 0).toNat <<< (128 * i)) 0)
  pois := BitVec.ofNat 8 ((List.range 8).foldl (fun x i => x + (if m.bad (8 * n + i) then 2 ^ i else 0)) 0)

/-- Stores sector `n`: each word encoded, poisoned words as the canonical pattern. Poison is of the 144/128 word (R298, R322), not of the
whole sector as R268 may be read (DESIGN CHOICE, log entry 140). -/
def Ram.putSector (m : Ram) (n : Nat) (x : Sector) : Ram :=
  (List.range 8).foldl (fun m i =>
    if x.pois.getLsbD i then m.poison (8 * n + i) else m.setWord (8 * n + i) (x.data.extractLsb' (128 * i) 128) 0) m

/-- Sector bytes. -/
def Sector.bytes (x : Sector) : List Byte := leBytes 128 x.data.toNat

/-- A sector with the masked bytes of another laid over it, word by word (R305, R324): a word with an uncorrectable old
value stays poisoned unless all its bytes are new; a poisoned new word poisons the word. -/
def Sector.merge (old : Sector) (mask : BitVec 128) (new : Sector) : Sector :=
  let wordMask (i : Nat) := field mask (16 * i + 15) (16 * i)
  let pois := (List.range 8).foldl (fun x i =>
    let m := wordMask i
    let p := if m = 0 then old.pois.getLsbD i
      else if m = 0xFFFF then new.pois.getLsbD i else old.pois.getLsbD i || new.pois.getLsbD i
    x + (if p then 2 ^ i else 0)) 0
  let bytes := (old.bytes.zip new.bytes).mapIdx (fun i (a, b) =>
    if pois.testBit (i / 16) then 0#8 else if mask.getLsbD i then b else a)
  { data := BitVec.ofNat 1024 (leNat bytes), pois := BitVec.ofNat 8 pois }

/-- The sector of a list of at most 128 bytes. -/
def Sector.ofBytes (l : List Byte) : Sector := { data := BitVec.ofNat 1024 (leNat (l.take 128)) }

/-- A sector from 8 carried words: corrected, uncorrectable words poisoned (R325). -/
def Sector.ofCodes (l : List Code) : Sector :=
  let m := ({} : Ram).putCodes 0 (l.take 8)
  m.sector 0

/-- The 8 carried words of a sector. -/
def Sector.codes (x : Sector) : List Code := (({} : Ram).putSector 0 x).codes 0 8

/-- The value a register's bits return to at reset. -/
def regReset (fn a : Nat) : Word :=
  match regSpec? fn a with
  | some r => r.reset
  | none => 0

/-- A function's record. -/
def State.fn (s : State) (j : Nat) : Fn := agetD s.fns j {}

/-- Updates a function's record. -/
def State.updFn (s : State) (j : Nat) (f : Fn → Fn) : State := { s with fns := aput s.fns j (f (s.fn j)) }

/-- The stored bits of a window register of a function. -/
def State.reg (s : State) (j a : Nat) : Word := agetD (s.fn j).regs a (regReset j a)

/-- Stores a window register of a function. -/
def State.setReg (s : State) (j a : Nat) (v : Word) : State := s.updFn j (fun f => { f with regs := aput f.regs a v })

/-- Field [hi:lo] of a window register. -/
def State.regF (s : State) (j a hi lo : Nat) : Nat := field (s.reg j a) hi lo

/-- Replaces a field of a window register. -/
def State.setRegF (s : State) (j a hi lo x : Nat) : State := s.setReg j a (setField (s.reg j a) hi lo x)

/-- Raises a count field of a window register, saturating (R20). -/
def State.count (s : State) (j a hi lo n : Nat) : State := s.setReg j a (addCount (s.reg j a) hi lo n)

/-- What a check point outside the HBM cells counts of the words its consumer reads (R325, R327): corrected ones in PATH_ERR.CE, and
uncorrectable ones in PATH_ERR.UE, but for the canonical poisoned word, which was counted where it arose (log entry 130). -/
def State.pathErr (s : State) (m : Ram) (ws : List Nat) : State :=
  let ce := (ws.filter (fun w => match verdict (m.mark w) with | .fixed _ => true | _ => false)).length
  let ue := (ws.filter (fun w => m.bad w && !isPoison (m.word w) (m.mark w))).length
  let s := if ce = 0 then s else s.count 0 Reg.pathErr 31 16 ce
  if ue = 0 then s else s.count 0 Reg.pathErr 15 0 ue

/-- A free value: the counter moves on and the value is handed to the caller. -/
def State.free (s : State) : State × Nat := ({ s with freeCtr := s.freeCtr + 1 }, s.freeCtr)

/-- The next number of the model. -/
def State.fresh (s : State) : State × Nat := ({ s with nextId := s.nextId + 1 }, s.nextId)

/-- A physical Facet's record. -/
def State.facet (s : State) (f : Nat) : Facet := agetD s.facets f {}

/-- Updates a Facet. -/
def State.updFacet (s : State) (f : Nat) (g : Facet → Facet) : State := { s with facets := aput s.facets f (g (s.facet f)) }

/-- The group in a slot. -/
def State.group? (s : State) (f slot : Nat) : Option Group := aget? (s.facet f).groups slot

/-- Stores the group of a slot. -/
def State.setGroup (s : State) (f slot : Nat) (g : Group) : State :=
  s.updFacet f (fun x => { x with groups := aput x.groups slot g })

/-- Updates the group of a slot, if one is resident. -/
def State.updGroup (s : State) (f slot : Nat) (h : Group → Group) : State :=
  match s.group? f slot with
  | some g => s.setGroup f slot (h g)
  | none => s

/-- A block on a Facet. -/
def State.block? (s : State) (f b : Nat) : Option Block := aget? (s.facet f).blocks b

/-- Updates a block. -/
def State.updBlock (s : State) (f b : Nat) (h : Block → Block) : State :=
  match s.block? f b with
  | some x => s.updFacet f (fun y => { y with blocks := aput y.blocks b (h x) })
  | none => s

/-- A pseudo-channel engine. -/
def State.pc (s : State) (k : Nat) : PseudoChannel := agetD s.hbm.pcs k {}

/-- Updates a pseudo-channel engine. -/
def State.updPc (s : State) (k : Nat) (f : PseudoChannel → PseudoChannel) : State :=
  { s with hbm := { s.hbm with pcs := aput s.hbm.pcs k (f (s.pc k)) } }

/-- A Chord port. -/
def State.port (s : State) (p : Nat) : Port := agetD s.ports p {}

/-- Updates a Chord port. -/
def State.updPort (s : State) (p : Nat) (f : Port → Port) : State := { s with ports := aput s.ports p (f (s.port p)) }

/-- Adds an answer the module gives at an interface. -/
def State.answer (s : State) (port id : Nat) (bytes : List Byte) : State :=
  { s with out := { s.out with answers := (port, id, bytes) :: s.out.answers } }

/-- Updates the launch of a given number. -/
def State.updLaunch (s : State) (id : Nat) (f : Launch → Launch) : State :=
  { s with launches := s.launches.map (fun l => if l.id = id then f l else l) }

/-- The launch of a given number. -/
def State.launch? (s : State) (id : Nat) : Option Launch := s.launches.find? (fun l => l.id == id)

/-- A lifetime counter raised by `n`, saturating (R422, R20). -/
def State.life! (s : State) (k n : Nat) : State :=
  { s with life := { s.life with live := tset s.life.live k (BitVec.ofNat 64 (min (2 ^ 64 - 1) ((tget s.life.live k).toNat + n))) } }

/-- The lanes of a register as a list (R103): lane l of register n at 32 n + l. -/
def lanesOf (t : Cells 32) (n : Nat) : List Word := (List.range 32).map (fun l => tget t (32 * n + l))

/-- Writes the lanes of a mask of a register from a list of 32 values. -/
def setLanes (t : Cells 32) (n : Nat) (mask : Word) (l : List Word) : Cells 32 :=
  (bitsOf mask).foldl (fun t i => tset t (32 * n + i) (l.getD i 0)) t

/-- CLK_STATUS.MODE: paired mode (R455). -/
def State.pairedMode (s : State) : Bool := (s.reg 0 Reg.clkStatus).getLsbD 31

/-- Whether an island is clocked (R453, R454): the origin PLL of its die locked, in paired mode its own PLL. Islands as
`Power.islandLock` numbers them. -/
def State.clocked (s : State) (island die : Nat) : Bool :=
  if s.pairedMode then s.power.islandLock.getLsbD island else s.power.originLock.getLsbD die

/-- Enables of a gate in the shipped table (R460), spares apart: bit 0 RUN, 1 SLEEP, 2 DEEP. -/
def gateDefault (id : Nat) : BitVec 3 :=
  if id = 4 ∨ id = 5 ∨ (0x200 ≤ id ∧ id < 0x224) ∨ (0x240 ≤ id ∧ id < 0x244) then 3 else 1

/-- Enables of a gate. -/
def State.gate (s : State) (id : Nat) : BitVec 3 := agetD s.power.gates id (gateDefault id)

/-- CLK_STATUS.ISLAND_LOCK: the island PLLs of each die (R455). -/
def Power.islandsUp (p : Power) : BitVec 6 :=
  p.islandLock.extractLsb' 8 2 ++ (p.islandLock.extractLsb' 0 4 &&& p.islandLock.extractLsb' 4 4)

end Sys2Proof.Machine
end

