-- ==== Sys2Proof/Machine/Events.lean ====
section
/-! DEFINITION. Events every part of the module records: the log ring (R505), dropped data (R401, R402), policy clamps
(R464), tenant enables, pending decisions (R406 to R408) and stack faults (R415). -/

namespace Sys2Proof.Machine

/-- A log record (R505): `source` 0 hardware, 1 MP, 2 PP, 3 SP; `fn` 255 for the module. -/
def State.trace (s : State) (point source fn : Nat) (args : List Nat) : State :=
  { s with log := { seq := s.logSeq, time := s.now, point, source, fn, args } :: s.log, logSeq := s.logSeq + 1 }

/-- TEN_CTRL[j].ENABLE (R396). -/
def State.enabled (s : State) (j : Nat) : Bool := 1 ≤ j && j ≤ 16 && (s.reg 0 (Reg.tenCtrl j)).getLsbD 31

/-- The enabled tenants. -/
def State.tenants (s : State) : List Nat := (List.range 17).filter s.enabled

/-- Marks every accepted, uncompleted entry of a function (R402). -/
def State.markEntries (s : State) (j : Nat) : State :=
  { s with entries := s.entries.map (fun e => if e.fn = j then { e with dropped := true } else e) }

/-- A drop of `n` words on function `j`'s account (R401): counted, flagged, the source recorded. With `n = 0`, one of the
events that set DROPPED without counting. -/
def State.drop (s : State) (j source n : Nat) : State :=
  let s := s.count j Reg.poisonDropped 31 0 n
  let s := s.setReg j Reg.stepStatus (setField (setField (s.reg j Reg.stepStatus) 31 31 1) 7 0 source)
  s.markEntries j

/-- DROPPED for every enabled tenant (R298, R415). -/
def State.dropAll (s : State) (source : Nat) : State := s.tenants.foldl (fun s j => s.drop j source 0) s

/-- DROPPED for every enabled tenant, LAST_SOURCE left alone: a stack fault has no code in LAST_SOURCE (R415, R424). -/
def State.flagAll (s : State) : State :=
  s.tenants.foldl (fun s j => (s.setRegF j Reg.stepStatus 31 31 1).markEntries j) s

/-- A clamp of a function's request (R464): counted, its cause recorded, the trace point emitted. -/
def State.clampEvent (s : State) (j cause : Nat) : State :=
  let s := s.count j Reg.policyClamp 15 0 1
  let s := s.setRegF j Reg.policyClamp 31 24 cause
  s.trace 0x0040 0 j [cause]

/-- Whether function `k` of R406 is in host-assisted mode for a subject (MODES, MODE_FAILOVER). -/
def State.hostAssisted (s : State) (k subject : Nat) : Bool :=
  if k = 1 then
    if subject < 32 then (s.reg 0 Reg.modeFailover).getLsbD subject else (s.reg 0 Reg.modes).getLsbD (24 + (subject - 32))
  else (s.reg 0 Reg.modes).getLsbD (k - 2)

/-- The wait of a function of R406 in always-on island cycles (R9). -/
def decisionWait : Nat → Nat
  | 1 => 2500000
  | 2 => 25000000
  | 3 => 2500000
  | 4 => 250000
  | 5 => 25000000
  | 6 => 250000
  | 7 => 2500000
  | 8 => 25000000
  | _ => 50000000

/-- Whether two decisions are for one port (R423). -/
def samePort (a : Decision) (fn subject : Nat) : Bool :=
  (a.fn == 1 || a.fn == 2) && (fn == 1 || fn == 2) && a.subject == subject

/-- A decision point reached (R406, R408): the state, and whether the function now waits for an answer. In hardware mode,
or on a full queue (counted in OVERFLOW), it does not wait and its hardware action is taken at once. -/
def State.decisionPoint (s : State) (k subject data : Nat) : State × Bool :=
  if !s.hostAssisted k subject then (s, false)
  else
    let old := s.decisions.filter (fun d => samePort d k subject)
    let s := if old.isEmpty then s else s.count 0 Reg.decPending 31 24 old.length
    let rest := s.decisions.filter (fun d => !samePort d k subject)
    if 16 ≤ rest.length then ({ s.count 0 Reg.decPending 23 16 1 with decisions := rest }, false)
    else ({ s with decisions := rest ++ [{ fn := k, subject, due := s.now + decisionWait k, data }] }, true)

/-- Pending decisions whose subject changes leave the queue: an answer to one is STALE from then on (R408). -/
def State.forget (s : State) (gone : Decision → Bool) : State := { s with decisions := s.decisions.filter (fun d => !gone d) }

/-- A stack fault (R415): ESC_STATUS, and DROPPED for every enabled tenant. -/
def State.stackFault (s : State) (k : Nat) : State := (s.setRegF 0 Reg.escStatus k k 1).flagAll

/-- An event of R415 whose hardware action is a stack fault, under function 7. Decision data 0 names this action. -/
def State.escalateStack (s : State) (k : Nat) : State :=
  let (s, waits) := s.decisionPoint 7 k 0
  if waits then s else s.stackFault k

/-- Length of device memory (R382): 960 GiB. -/
def deviceBytes : Nat := 960 * 2 ^ 30

/-- The reserved region of R500 starts here. -/
def reservedBase : Nat := 0xEFC0000000

/-- A region of a tenant map: tenant base, device base, length in bytes, host-cacheable (R382). -/
structure Region where
  tbase : Nat
  dbase : Nat
  len : Nat
  hc : Bool
  deriving DecidableEq, Repr

/-- Region r of VFj as configured, if valid: VALID set and LEN not 0. -/
def State.region? (s : State) (j r : Nat) : Option Region :=
  let a := s.reg 0 (Reg.tenRegionA j r)
  let b := s.reg 0 (Reg.tenRegionB j r)
  let len := field b 27 14
  if a.getLsbD 31 && len != 0 then
    some { tbase := field a 21 0 * 2 ^ 26, dbase := field b 13 0 * 2 ^ 26, len := len * 2 ^ 26, hc := a.getLsbD 30 }
  else none

/-- The valid regions of VFj. -/
def State.regions (s : State) (j : Nat) : List Region := (List.range 8).filterMap (s.region? j)

/-- The region a tenant address, of 48 bits, lies in. -/
def State.regionOf (s : State) (j a : Nat) : Option Region :=
  if 2 ^ 48 ≤ a then none else (s.regions j).find? (fun r => decide (r.tbase ≤ a) && decide (a < r.tbase + r.len))

/-- The device address of a tenant address (R382); PF0 addresses are device addresses, below the reserved region (R500;
DESIGN CHOICE, log entry 144). -/
def State.translate (s : State) (j a : Nat) : Option Nat :=
  if j = 0 then (if a < reservedBase then some a else none)
  else (s.regionOf j a).map (fun r => r.dbase + (a - r.tbase))

/-- Whether the `n` bytes from a tenant address lie within one region (R382). -/
def State.inOneRegion (s : State) (j a n : Nat) : Bool :=
  if j = 0 then decide (a + n ≤ reservedBase)
  else match s.regionOf j a with
    | some r => decide (a + n ≤ r.tbase + r.len) && decide (a + n ≤ 2 ^ 48)
    | none => false

/-- Whether every one of `n` bytes from a tenant address is mapped. -/
def State.mapped (s : State) (j a n : Nat) : Bool := (List.range n).all (fun i => (s.translate j (a + i)).isSome)

/-- Whether a device line lies in a host-cacheable region of an enabled tenant (R385). -/
def State.hcLine (s : State) (line : Nat) : Bool :=
  s.tenants.any (fun j => (s.regions j).any (fun r =>
    r.hc && decide (r.dbase ≤ 2048 * line) && decide (2048 * line < r.dbase + r.len)))

/-- The logical Facet list of a tenant (R48): assigned, non-empty positions in ascending order, with their Facets. -/
def State.logical (s : State) (j : Nat) : List (Nat × Nat) :=
  ((List.range 192).filter (fun p => (s.reg 0 (Reg.tenFacets j (p / 32))).getLsbD (p % 32))).filterMap (fun p =>
    match s.positions.getD p none with
    | some f => some (p, f)
    | none => none)

/-- The tenant whose enabled assignment holds a physical Facet's position. -/
def State.ownerOf (s : State) (f : Nat) : Option Nat :=
  s.tenants.find? (fun j => (s.logical j).any (fun e => e.2 == f))

/-- The logical Facet number of a physical Facet within a tenant; 0 when it has none. -/
def State.logicalOf (s : State) (j f : Nat) : Nat := ((s.logical j).findIdx? (fun e => e.2 == f)).getD 0

/-- Whether debug is on for a tenant (R83). -/
def State.debugOn (s : State) (j : Nat) : Bool := 1 ≤ j && (s.reg 0 Reg.dbgEnable).getLsbD j

/-- Whether a gate is in use (R460). -/
def State.gateInUse (s : State) (id : Nat) : Bool :=
  if id < 0x100 then true
  else if id < 0x1D0 then (s.ownerOf (id - 0x100)).isSome || !(s.facet (id - 0x100)).groups.isEmpty
  else if id < 0x224 then (s.port (id - 0x200)).state != .disabled
  else (List.range 17).any (fun j => (List.range 8).any (fun g =>
    g % 4 == id - 0x240 && (s.reg j (Reg.collGroupSize g)).getLsbD 31))

/-- Whether the enable in force keeps a gate's unit clocked (R459, R460): SLEEP in S1 and in the safe hold, DEEP in S2. In P0 a
unit is stopped where RUN is 0 and the gate is not in use. -/
def State.gateOn (s : State) (id : Nat) : Bool :=
  match s.power.state with
  | 1 | 3 => (s.gate id).getLsbD 1
  | 2 => (s.gate id).getLsbD 2
  | 4 => if s.power.leaving = 1 then (s.gate id).getLsbD 1 else (s.gate id).getLsbD 0 || s.gateInUse id
  | _ => (s.gate id).getLsbD 0 || s.gateInUse id

/-- The Facet island of a compute die. -/
def State.facetClocked (s : State) (die : Nat) : Bool := s.clocked die die && s.gateOn (0x10 + 4 * die)

/-- The Hull island of a device line: the die of its slice (R267). -/
def State.hullClocked (s : State) (line : Nat) : Bool :=
  let die := line % 160 / 40
  s.clocked (4 + die) die && s.gateOn (0x11 + 4 * die)

/-- The I/O logic of I/O die 0 or 1: MP and the front end on IO0, SP and the flash controller on IO1 (R454). -/
def State.ioClocked (s : State) (io : Nat) : Bool := s.clocked (8 + io) (4 + io) && s.gateOn (4 + io)

/-- Whether MP, SP run: up, with their clock (R454, R498). -/
def State.mpRuns (s : State) : Bool := s.boot.mpUp && s.ioClocked 0
def State.spRuns (s : State) : Bool := s.boot.spUp && s.ioClocked 1

/-- The I/O die of a Chord port, and of a collective engine (R458). -/
def ioOfPort (p : Nat) : Nat := if p ≤ 17 then 0 else 1
def ioOfCe (e : Nat) : Nat := if e ≤ 1 then 0 else 1

/-- Whether a Chord port is clocked (R453, R459, R460). -/
def State.portClocked (s : State) (p : Nat) : Bool := s.ioClocked (ioOfPort p) && s.gateOn (0x200 + p)

/-- Whether a collective engine is clocked (R453, R459, R460); that of group `g` is CE (g mod 4) (R362). -/
def State.ceClocked (s : State) (g : Nat) : Bool := s.ioClocked (ioOfCe (g % 4)) && s.gateOn (0x240 + g % 4)

end Sys2Proof.Machine
end

