-- ==== Sys2Proof/Machine/Number.lean ====
section
/-! DEFINITION. Number formats, rounding and the exact arithmetic under them (R145 to R159, R172 to R176). A finite value
is held exactly as sign, integer significand and binary exponent. -/

namespace Sys2Proof.Machine

/-- A floating-point value: (−1)^neg · m · 2^e when finite. -/
inductive Val where
  | nan
  | inf (neg : Bool)
  | fin (neg : Bool) (m : Nat) (e : Int)
  deriving DecidableEq, Repr

/-- How a format spends its top exponent (R145): infinities and NaNs, the E4M3 NaN only, or nothing. -/
inductive TopCode where
  | ieee | nanOnly | none
  deriving DecidableEq, Repr

/-- A floating-point format (R145). -/
structure Fmt where
  eb : Nat
  sb : Nat
  bias : Nat
  top : TopCode
  deriving DecidableEq, Repr

def f64 : Fmt := ⟨11, 52, 1023, .ieee⟩
def f32 : Fmt := ⟨8, 23, 127, .ieee⟩
def f16 : Fmt := ⟨5, 10, 15, .ieee⟩
def bf16 : Fmt := ⟨8, 7, 127, .ieee⟩
def e4m3 : Fmt := ⟨4, 3, 7, .nanOnly⟩
def e5m2 : Fmt := ⟨5, 2, 15, .ieee⟩
def e2m1 : Fmt := ⟨2, 1, 1, .none⟩

/-- The format of a floating TYPE code (R100). -/
def fmtOf : Nat → Option Fmt
  | 2 => some f32
  | 3 => some f64
  | 4 => some f16
  | 5 => some bf16
  | 6 => some e4m3
  | 7 => some e5m2
  | 8 => some e2m1
  | _ => none

/-- Width and signedness of an integer TYPE code (R100, R148). -/
def intOf : Nat → Option (Nat × Bool)
  | 0 => some (32, false)
  | 1 => some (32, true)
  | 10 => some (8, true)
  | 11 => some (8, false)
  | 12 => some (16, true)
  | 13 => some (16, false)
  | _ => none

namespace Fmt

/-- Exponent of the smallest subnormal. -/
def emin (f : Fmt) : Int := 1 - (f.bias : Int) - f.sb

/-- Exponent field of the largest finite value. -/
def topField (f : Fmt) : Nat := if f.top = .ieee then 2 ^ f.eb - 2 else 2 ^ f.eb - 1

/-- Significand of the largest finite value. -/
def maxM (f : Fmt) : Nat := if f.top = .nanOnly then 2 ^ (f.sb + 1) - 2 else 2 ^ (f.sb + 1) - 1

/-- Exponent of the last place of the largest finite value. -/
def emax (f : Fmt) : Int := (f.topField : Int) - f.bias - f.sb

/-- The sign bit. -/
def signBit (f : Fmt) : Nat := 2 ^ (f.eb + f.sb)

/-- The canonical NaN (R146); E2M1 has none and takes +0 (R155). -/
def nanBits (f : Fmt) : Nat :=
  match f.top with
  | .ieee => (2 ^ f.eb - 1) * 2 ^ f.sb + 2 ^ (f.sb - 1)
  | .nanOnly => 2 ^ (f.eb + f.sb) - 1
  | .none => 0

/-- The largest finite magnitude with a sign. -/
def maxBits (f : Fmt) (neg : Bool) : Nat :=
  (if neg then f.signBit else 0) + f.topField * 2 ^ f.sb + (f.maxM - 2 ^ f.sb)

/-- Infinity with a sign, for formats that have it. -/
def infBits (f : Fmt) (neg : Bool) : Nat := (if neg then f.signBit else 0) + (2 ^ f.eb - 1) * 2 ^ f.sb

/-- The value of a bit pattern (R145, R147). -/
def decode (f : Fmt) (x : Nat) : Val :=
  let neg := x.testBit (f.eb + f.sb)
  let e := fieldN x (f.eb + f.sb - 1) f.sb
  let m := x % 2 ^ f.sb
  if f.top = .ieee ∧ e = 2 ^ f.eb - 1 then (if m = 0 then .inf neg else .nan)
  else if f.top = .nanOnly ∧ e = 2 ^ f.eb - 1 ∧ m = 2 ^ f.sb - 1 then .nan
  else if e = 0 then .fin neg m f.emin
  else .fin neg (2 ^ f.sb + m) (f.emin + (e - 1 : Nat))

/-- A pattern, every NaN as the canonical one (R146). -/
def canon (f : Fmt) (x : Nat) : Nat := if f.decode x = .nan then f.nanBits else x

/-- The pattern of a rounded significand `q` at last-place exponent `u`. -/
def pack (f : Fmt) (neg : Bool) (q : Nat) (u : Int) : Nat :=
  (if neg then f.signBit else 0) +
  (if q < 2 ^ f.sb then q else ((u - f.emin).toNat + 1) * 2 ^ f.sb + (q - 2 ^ f.sb))

/-- What an overflowing magnitude becomes (R155, R156): `away` when the IEEE rule for the mode gives infinity. -/
def overflow (f : Fmt) (neg away sat : Bool) : Nat :=
  match f.top with
  | .none => f.maxBits neg
  | .nanOnly => if sat || !away then f.maxBits neg else f.nanBits
  | .ieee => if sat || !away then f.maxBits neg else f.infBits neg

/-- What an infinite source becomes (R155). -/
def ofInf (f : Fmt) (neg sat : Bool) : Nat :=
  match f.top with
  | .none => f.maxBits neg
  | .nanOnly => if sat then f.maxBits neg else f.nanBits
  | .ieee => f.infBits neg

end Fmt

/-- Whether a rounding mode of R108 takes a magnitude with the given remainder away from zero. `rem` compares the discarded
part with half a unit: 0 none, 1 below, 2 equal, 3 above. -/
def roundsUp (mode : Nat) (neg odd : Bool) (rem : Nat) : Bool :=
  match mode with
  | 0 => rem == 3 || (rem == 2 && odd)
  | 2 => rem != 0 && !neg
  | 3 => rem != 0 && neg
  | _ => false

/-- `m · 2^e`, with more below it when `sticky`, rounded to a multiple of 2^u. -/
def roundQuot (mode : Nat) (neg : Bool) (m : Nat) (e u : Int) (sticky : Bool) : Nat :=
  if u ≤ e then
    let q := m <<< (e - u).toNat
    if roundsUp mode neg (q % 2 == 1) (if sticky then 1 else 0) then q + 1 else q
  else
    let s := (u - e).toNat
    let q := m >>> s
    let r := m % 2 ^ s
    let h := 2 ^ (s - 1)
    let rem := if r = 0 then (if sticky then 1 else 0) else if r < h then 1 else if r = h then (if sticky then 3 else 2) else 3
    if roundsUp mode neg (q % 2 == 1) rem then q + 1 else q

/-- Rounds a value once to a format in a mode of R108 (R154 to R156). -/
def Fmt.round (f : Fmt) (mode : Nat) (sat : Bool) (v : Val) (sticky : Bool := false) : Nat :=
  match v with
  | .nan => f.nanBits
  | .inf neg => f.ofInf neg sat
  | .fin neg m e =>
    if m = 0 then (if neg then f.signBit else 0)
    else
      let u := max f.emin ((Nat.log2 m : Int) + e - f.sb)
      let q := roundQuot mode neg m e u sticky
      let (q, u) := if q = 2 ^ (f.sb + 1) then (2 ^ f.sb, u + 1) else (q, u)
      if f.emax < u ∨ (u = f.emax ∧ f.maxM < q) then
        f.overflow neg (mode == 0 || (mode == 2 && !neg) || (mode == 3 && neg)) sat
      else f.pack neg q u

/-- Seeded stochastic rounding of a value with draw `r` (R159). -/
def Fmt.stochastic (f : Fmt) (sat : Bool) (r : Nat) (v : Val) : Nat :=
  match v with
  | .nan => f.nanBits
  | .inf neg => f.ofInf neg sat
  | .fin neg m e =>
    if m = 0 then (if neg then f.signBit else 0)
    else
      let u := min f.emax (max f.emin ((Nat.log2 m : Int) + e - f.sb))
      let s := (u - e).toNat
      let q := if u ≤ e then m <<< (e - u).toNat else m >>> s
      let frac := if u ≤ e then 0 else ((m % 2 ^ s) <<< 32) >>> s
      let q := if r < frac then q + 1 else q
      let (q, u) := if q = 2 ^ (f.sb + 1) ∧ u < f.emax then (2 ^ f.sb, u + 1) else (q, u)
      if u = f.emax ∧ f.maxM < q then f.overflow neg true sat else f.pack neg q u

/-- The signed integer of a finite value at exponent `e`, which is at most its own. -/
def Val.scaled (neg : Bool) (m : Nat) (d : Nat) : Int := if neg then -((m <<< d : Nat) : Int) else ((m <<< d : Nat) : Int)

/-- The product of two values, exact (R153, R172). -/
def Val.mul : Val → Val → Val
  | .nan, _ => .nan
  | _, .nan => .nan
  | .inf a, .inf b => .inf (a != b)
  | .inf a, .fin b m _ => if m = 0 then .nan else .inf (a != b)
  | .fin a m _, .inf b => if m = 0 then .nan else .inf (a != b)
  | .fin a m e, .fin b n k => .fin (a != b) (m * n) (e + k)

/-- A value with its sign inverted. -/
def Val.neg : Val → Val
  | .nan => .nan
  | .inf s => .inf (!s)
  | .fin s m e => .fin (!s) m e

/-- Whether a value is a zero. -/
def Val.isZero : Val → Bool
  | .fin _ m _ => m == 0
  | _ => false

/-- The exact sum of the finite values of a list, as an integer at exponent `e0`. -/
def sumScaled (e0 : Int) : List Val → Int
  | [] => 0
  | .fin s m e :: t => Val.scaled s m (e - e0).toNat + sumScaled e0 t
  | _ :: t => sumScaled e0 t

/-- The least exponent of the finite values of a list. -/
def minExp : List Val → Int → Int
  | [], d => d
  | .fin _ _ e :: t, d => minExp t (min e d)
  | _ :: t, d => minExp t d

/-- The exact sum of addends, with the NaN, infinity and signed-zero rules of R153 and R172. Addends that are all +0 sum to −0
in mode 3, by R153's second bullet, where IEEE 754 (R154) has +0 (DESIGN CHOICE, log entry 110). -/
def sumVals (mode : Nat) (l : List Val) : Val :=
  if l.any (· == .nan) then .nan
  else
    let pinf := l.any (· == .inf false)
    let ninf := l.any (· == .inf true)
    if pinf && ninf then .nan
    else if pinf then .inf false
    else if ninf then .inf true
    else
      let e0 := minExp l 0
      let t := sumScaled e0 l
      if t = 0 then
        let allNeg := l.all (fun v => match v with | .fin s m _ => s && m == 0 | _ => false)
        .fin ((allNeg && !l.isEmpty) || mode == 3) 0 0
      else .fin (decide (t < 0)) t.natAbs e0

/-- Orders two values; `none` when either is NaN. Zeros of either sign are equal. -/
def Val.cmp : Val → Val → Option Ordering
  | .nan, _ => none
  | _, .nan => none
  | .inf a, .inf b => some (if a = b then .eq else if a then .lt else .gt)
  | .inf a, _ => some (if a then .lt else .gt)
  | _, .inf b => some (if b then .gt else .lt)
  | .fin a m e, .fin b n k =>
    let e0 := min e k
    some (compare (Val.scaled a m (e - e0).toNat) (Val.scaled b n (k - e0).toNat))

/-- Whether the first value orders below the second for FMIN, FMAX and the RDU: −0 below +0 (R108, R174). -/
def Val.below (x y : Val) : Bool :=
  match x.cmp y with
  | some .lt => true
  | some .eq => match x, y with
    | .fin a m _, .fin b _ _ => m == 0 && a && !b
    | _, _ => false
  | _ => false

namespace Fmt

def add (f : Fmt) (mode a b : Nat) : Nat := f.round mode false (sumVals mode [f.decode a, f.decode b])
def mul (f : Fmt) (mode a b : Nat) : Nat := f.round mode false ((f.decode a).mul (f.decode b))
def fma (f : Fmt) (mode a b c : Nat) : Nat :=
  f.round mode false (sumVals mode [(f.decode a).mul (f.decode b), f.decode c])

/-- FMIN (R108). -/
def minOf (f : Fmt) (a b : Nat) : Nat :=
  match f.decode a, f.decode b with
  | .nan, .nan => f.nanBits
  | .nan, _ => b
  | _, .nan => a
  | x, y => if y.below x then b else a

/-- FMAX (R108). -/
def maxOf (f : Fmt) (a b : Nat) : Nat :=
  match f.decode a, f.decode b with
  | .nan, .nan => f.nanBits
  | .nan, _ => b
  | _, .nan => a
  | x, y => if x.below y then b else a

/-- FABS (R108); a NaN gives the canonical NaN (R109). -/
def abs (f : Fmt) (a : Nat) : Nat := if f.decode a = .nan then f.nanBits else a % f.signBit

/-- The comparison of R108 and R109; conditions 0 EQ to 7 ORD. -/
def compare (f : Fmt) (cond a b : Nat) : Bool :=
  match cond, (f.decode a).cmp (f.decode b) with
  | 0, some .eq => true
  | 1, some .eq => false
  | 1, _ => true
  | 2, some .lt => true
  | 3, some .lt => true
  | 3, some .eq => true
  | 4, some .gt => true
  | 5, some .gt => true
  | 5, some .eq => true
  | 6, none => true
  | 7, some _ => true
  | _, _ => false

end Fmt

/-- Correctly rounded reciprocal of binary32 (R110, R152). -/
def rcp32 (x : Nat) : Nat :=
  match f32.decode x with
  | .nan => f32.nanBits
  | .inf s => if s then f32.signBit else 0
  | .fin s m e =>
    if m = 0 then f32.infBits s
    else
      let k := Nat.log2 m + 40
      f32.round 0 false (.fin s (2 ^ k / m) (-(k : Int) - e)) (2 ^ k % m != 0)

/-- Correctly rounded square root of binary32 (R110, R152). -/
def sqrt32 (x : Nat) : Nat :=
  match f32.decode x with
  | .nan => f32.nanBits
  | .inf s => if s then f32.nanBits else f32.infBits false
  | .fin s m e =>
    if m = 0 then x
    else if s then f32.nanBits
    else
      let (m, e) := if e % 2 = 0 then (m, e) else (2 * m, e - 1)
      let n := m <<< 60
      let r := isqrt 45 n
      f32.round 0 false (.fin false r (e / 2 - 30)) (r * r != n)

/-- A value rounded to an integer in a mode of R108. -/
def Val.toInt (mode : Nat) : Val → Int
  | .fin s m e => let q := roundQuot mode s m e 0 false; if s then -(q : Int) else q
  | _ => 0

/-- Clamps an integer to an integer type (R157). -/
def clampInt (w : Nat) (signed : Bool) (x : Int) : Int :=
  if signed then max (-(2 ^ (w - 1) : Int)) (min (2 ^ (w - 1) - 1) x) else max 0 (min (2 ^ w - 1) x)

/-- The value of an integer pattern of a type (R148). -/
def intVal (w : Nat) (signed : Bool) (x : Nat) : Int := if signed then signedN w (x % 2 ^ w) else (x % 2 ^ w : Nat)

/-- An integer as an exact value. -/
def Val.ofInt (x : Int) : Val := .fin (decide (x < 0)) x.natAbs 0

/-- The value of an E8M0 code (R145). -/
def e8m0Val (x : Nat) : Val := if x % 256 = 255 then .nan else .fin false 1 ((x % 256 : Nat) - 127 : Int)

/-- Conversion of a value to E8M0 (R158). -/
def toE8m0 : Val → Nat
  | .fin _ m e => if m = 0 then 0 else (max 0 (min 254 ((Nat.log2 m : Int) + e + 127))).toNat
  | _ => 255

/-- The value of a bit pattern of a TYPE code. -/
def typeVal (t x : Nat) : Val :=
  match fmtOf t with
  | some f => f.decode x
  | none =>
    match intOf t with
    | some (w, sg) => .ofInt (intVal w sg x)
    | none => if t = 9 then e8m0Val x else .nan

/-- A value as a bit pattern of a TYPE code: mode 0 to 3 of R108, 4 with draw `r` (R155 to R159). -/
def ofVal (t mode : Nat) (sat : Bool) (r : Nat) (v : Val) : Nat :=
  match fmtOf t with
  | some f => if mode = 4 then f.stochastic sat r v else f.round mode sat v
  | none =>
    match intOf t with
    | some (w, sg) =>
      match v with
      | .inf s => (clampInt w sg (if s then -(2 ^ 64 : Int) else 2 ^ 64) % 2 ^ w).toNat
      | _ => (clampInt w sg (v.toInt mode) % 2 ^ w).toNat
    | none => toE8m0 v

/-- I2I of R157. -/
def i2i (src dst : Nat) (sat : Bool) (x : Nat) : Nat :=
  match intOf src, intOf dst with
  | some (w, sg), some (k, tg) =>
    let v := intVal w sg x
    ((if sat then clampInt k tg v else v) % 2 ^ k).toNat
  | _, _ => 0

/-- binary32 addition, round to nearest. -/
def addF32 (a b : Word) : Word := BitVec.ofNat 32 (f32.add 0 a.toNat b.toNat)

/-- binary32 product, round to nearest. -/
def mulF32 (a b : Word) : Word := BitVec.ofNat 32 (f32.mul 0 a.toNat b.toNat)

/-- A bfloat16 pattern widened to binary32, exactly. -/
def widenBf16 (x : Nat) : Word := BitVec.ofNat 32 ((x % 65536) <<< 16)

/-- A binary32 pattern rounded to bfloat16, to nearest (R167). -/
def toBf16 (x : Word) : Nat := bf16.round 0 false (f32.decode x.toNat)

/-- One level of the pairwise tree of R173. -/
def pairUp (f : Word → Word → Word) : List Word → List Word
  | a :: b :: t => f a b :: pairUp f t
  | l => l

/-- The pairwise tree sum of R173; `fuel` bounds the levels. -/
def treeFold (f : Word → Word → Word) : Nat → List Word → Word
  | _, [] => 0
  | _, [a] => a
  | 0, a :: _ => a
  | n + 1, l => treeFold f n (pairUp f l)

/-- tree_sum of R173 over F32 patterns; the NaN of a single entry comes out canonical (R146). -/
def treeSum (l : List Word) : Word := BitVec.ofNat 32 (f32.canon (treeFold addF32 l.length l).toNat)

/-- The RDU maximum or minimum of F32 entries with the lowest index that equals it (R174). -/
def extreme (isMax : Bool) (l : List Word) : Word × Nat :=
  let better (x y : Word) : Bool :=
    let a := f32.decode x.toNat; let b := f32.decode y.toNat
    if isMax then b.below a else a.below b
  let step (acc : Option (Word × Nat)) (p : Word × Nat) : Option (Word × Nat) :=
    if f32.decode p.1.toNat = .nan then acc
    else match acc with
      | none => some p
      | some q => if better p.1 q.1 then some p else some q
  (l.zipIdx.foldl step none).getD (BitVec.ofNat 32 f32.nanBits, 0)

/-- The signed or unsigned integer maximum or minimum with the lowest index. -/
def extremeInt (isMax signed : Bool) (l : List Word) : Word × Nat :=
  let v (x : Word) : Int := if signed then x.toInt else x.toNat
  let step (acc : Option (Word × Nat)) (p : Word × Nat) : Option (Word × Nat) :=
    match acc with
    | none => some p
    | some q => if (if isMax then v q.1 < v p.1 else v p.1 < v q.1) then some p else some q
  (l.zipIdx.foldl step none).getD (0, 0)

/-- One step of the Galois LFSR of R160. -/
def lfsrStep (s : Nat) : Nat := if s % 2 = 1 then (s / 2) ^^^ 0x80200003 else s / 2

/-- next_draw of R160: the new state, which is the draw. -/
def nextDraw (s : Word) : Word := BitVec.ofNat 32 (Nat.iterate lfsrStep 32 s.toNat)

/-- The initial lane state of R161. -/
def laneSeed (lo hi : Word) (block group lane codeBase : Nat) : Word :=
  let x := lo ^^^ (BitVec.ofNat 32 (block + 1) * 0x9E3779B9#32)
  let x := x ^^^ (BitVec.ofNat 32 (32 * group + lane + 1) * 0x85EBCA6B#32)
  let x := x ^^^ hi ^^^ (BitVec.ofNat 32 (codeBase / 8 + 1) * 0xC2B2AE35#32)
  let x := x ^^^ (x >>> 16)
  let x := x * 0x7FEB352D#32
  let x := x ^^^ (x >>> 15)
  let x := x * 0x846CA68B#32
  let x := x ^^^ (x >>> 16)
  if x = 0 then 1 else x

end Sys2Proof.Machine
end

