-- ==== Sys2Proof/Machine/Operands.lean ====
section
/-! DEFINITION. The instruction word (R97, R98), its operand forms (R99 to R103, R241, R242) and the reading and writing of
a group's registers. -/

namespace Sys2Proof.Machine

/-- A fetched instruction: word 0, and word 1 of format W (R97). -/
structure Ins where
  w0 : DWord
  w1 : DWord
  deriving DecidableEq, Repr

namespace Ins
def guarded (i : Ins) : Bool := i.w0.getLsbD 63
def negated (i : Ins) : Bool := i.w0.getLsbD 62
def gp (i : Ins) : Nat := field i.w0 61 59
def fmt (i : Ins) : Nat := field i.w0 58 56
def op (i : Ins) : Nat := field i.w0 55 48
def type (i : Ins) : Nat := field i.w0 47 44
def mod (i : Ins) : Nat := field i.w0 43 40
def d (i : Ins) : Nat := field i.w0 39 32
def a (i : Ins) : Nat := field i.w0 31 24
def b (i : Ins) : Nat := field i.w0 23 16
def c (i : Ins) : Nat := field i.w0 15 8
def ext (i : Ins) : Nat := field i.w0 7 0
def imm (i : Ins) : Nat := field i.w0 23 8
/-- EXT[2:0] of formats R, I and W. -/
def ext3 (i : Ins) : Nat := field i.w0 2 0
/-- RLX: EXT[3] (R98, R114). -/
def rlx (i : Ins) : Bool := i.w0.getLsbD 3
/-- UMASK: EXT[7:4], uniform D, A, B, C (R98). -/
def ud (i : Ins) : Bool := i.w0.getLsbD 7
def ua (i : Ins) : Bool := i.w0.getLsbD 6
def ub (i : Ins) : Bool := i.w0.getLsbD 5
def uc (i : Ins) : Bool := i.w0.getLsbD 4
/-- Format I (R98). -/
def isI (i : Ins) : Bool := i.fmt == 1
/-- Bytes of the instruction (R97). -/
def size (i : Ins) : Nat := if i.fmt = 4 then 16 else 8
end Ins

/-- What issuing an instruction comes to: it is not ready and nothing changes, it raises a fault (code, lanes, address), or
it is done. -/
inductive Issue where
  | hold
  | fault (code : Nat) (lanes : Word) (addr : Nat)
  | done (s : State) (g : Group)
  deriving DecidableEq, Repr

/-- The lanes that execute: active and not exited. -/
def Group.live (g : Group) : Word := g.active &&& ~~~ g.exited

/-- The guard's value as a lane mask (R99). -/
def Group.guard (g : Group) (i : Ins) : Word :=
  if i.guarded then (if i.negated then ~~~ (tget g.p i.gp) else tget g.p i.gp) else BitVec.allOnes 32

/-- The active guard-true lanes (R99). -/
def Group.lanes (g : Group) (i : Ins) : Word := g.live &&& g.guard i

/-- The lowest-numbered lane of a mask. -/
def lowLane (m : Word) : Nat := (bitsOf m).headD 0

/-- Whether a uniform-only instruction executes: the guard in the lowest-numbered active lane (R102). -/
def Group.onceTrue (g : Group) (i : Ins) : Bool :=
  match bitsOf g.live with
  | [] => false
  | l :: _ => (g.guard i).getLsbD l

/-- Distinct elements in order of first occurrence. -/
def distinct (l : List Nat) : List Nat := l.foldl (fun r x => if r.contains x then r else r ++ [x]) []

/-- A register operand: where it lives and how many 32-bit registers it spans. -/
structure Reg? where
  uniform : Bool
  rlx : Bool
  n : Nat
  span : Nat
  deriving DecidableEq, Repr

/-- A register operand of formats R, I and W: UMASK bit, field, span; RLX from EXT[3] (R102, R103, R242). -/
def operand (i : Ins) (um : Bool) (n span : Nat) : Reg? := { uniform := um, rlx := i.rlx && !um, n, span }

/-- The encoding rules of one register operand (R101, R102, R242): `true` when it is legal. -/
def Reg?.legal (r : Reg?) : Bool :=
  (r.span == 1 || r.n % 2 == 0) &&
  (if r.uniform then decide (r.n + r.span ≤ 64) else if r.rlx then decide (r.n + r.span ≤ 32) else true)

/-- The register-range rule of R101. -/
def Reg?.inRange (r : Reg?) (h : Nat) : Bool :=
  r.uniform || r.rlx || (List.range r.span).all (fun k => r.n + k == 255 || decide (r.n + k ≤ h))

/-- The numbers under which R104 tracks an operand's vector registers; a Ralelle register n is 1000 + n. -/
def Reg?.vregs (r : Reg?) : List Nat :=
  if r.uniform then []
  else if r.rlx then (List.range r.span).map (fun k => 1000 + r.n + k)
  else ((List.range r.span).map (r.n + ·)).filter (fun n => decide (n < 255))

/-- The uniform registers of an operand. -/
def Reg?.uregs (r : Reg?) : List Nat := if r.uniform then (List.range r.span).map (r.n + ·) else []

/-- The OPC offset of Ralelle register n of a group, lane l (R241). -/
def ralelleAt (s : State) (g : Group) (n l : Nat) : Nat :=
  match s.launch? g.launch with
  | some k => 4096 * (ceilDiv k.o 4096 + g.gidx) + 128 * n + 4 * l
  | none => 0

/-- The OPC words that an operand's Ralelle registers hold (R241). -/
def Reg?.words (r : Reg?) (s : State) (g : Group) : List Nat :=
  if r.rlx && !r.uniform then (List.range (8 * r.span)).map (fun k => ralelleAt s g r.n 0 / 16 + k) else []

/-- One 32-bit register of an operand in a lane; v255 reads as zero (R51). A Ralelle register in a poisoned OPC word reads as zero
and counts nothing (DESIGN CHOICE, log entry 134). -/
def readReg (s : State) (f : Nat) (g : Group) (r : Reg?) (k lane : Nat) : Word :=
  if r.uniform then tget g.u (r.n + k)
  else if r.rlx then
    match s.block? f g.block with
    | some b => BitVec.ofNat 32 (leNat (b.opc.fetch (ralelleAt s g (r.n + k) lane) 4))
    | none => 0
  else if r.n + k = 255 then 0 else tget g.v (32 * (r.n + k) + lane)

/-- An operand's value in a lane, low register first (R101). -/
def readOp (s : State) (f : Nat) (g : Group) (r : Reg?) (lane : Nat) : Nat :=
  (List.range r.span).foldl (fun x k => x + (readReg s f g r k lane).toNat <<< (32 * k)) 0

/-- One lane of a vector register takes a value; its word is encoded anew (R324). -/
def Group.setLane (g : Group) (n lane : Nat) (x : Word) : Group :=
  { g with v := tset g.v (32 * n + lane) x, vbad := g.vbad.filter (· != 8 * n + lane / 4) }

/-- The words of the lanes of a vector register whose codeword is uncorrectable (R54, R213, R251). -/
def Group.badWords (g : Group) (n : Nat) (lanes : List Nat) : List Nat :=
  if n = 255 then [] else g.vbad.filter (fun w => lanes.any (fun l => w == 8 * n + l / 4))

/-- One lane of a vector register as a Prism or the RDU reads it: +0 in an uncorrectable word, and in v255 (R51, R213, R251). -/
def Group.readLane? (g : Group) (n lane : Nat) : Word :=
  if n = 255 ∨ 8 * n + lane / 4 ∈ g.vbad then 0 else tget g.v (32 * n + lane)

/-- Writes one lane of one register of a destination; writes to v255 are discarded (R51). -/
def writeReg (s : State) (f : Nat) (g : Group) (r : Reg?) (k lane : Nat) (x : Word) : State × Group :=
  if r.uniform then (s, { g with u := tset g.u (r.n + k) x })
  else if r.rlx then
    (s.updBlock f g.block (fun b => { b with opc := b.opc.write (ralelleAt s g (r.n + k) lane) (leBytes 4 x.toNat) }), g)
  else if r.n + k = 255 then (s, g)
  else (s, g.setLane (r.n + k) lane x)

/-- Writes a destination in a lane, low register first. -/
def writeOp (s : State) (f : Nat) (g : Group) (r : Reg?) (lane x : Nat) : State × Group :=
  (List.range r.span).foldl (fun (p : State × Group) k => writeReg p.1 f p.2 r k lane (BitVec.ofNat 32 (x >>> (32 * k)))) (s, g)

/-- Whether any register has a pending write (R104). -/
def Group.owes (g : Group) (vs us : List Nat) : Bool :=
  g.writes.any (fun w => w.vregs.any vs.contains || w.uregs.any us.contains)

/-- Whether an earlier instruction has still to read one of the vector registers (R44, R188). -/
def Group.unread (g : Group) (vs : List Nat) : Bool := g.writes.any (fun w => w.reads.any vs.contains)

/-- Immediate source B in format I (R98): for 32-bit integer operations sign-extended, 64-bit for IADD64. -/
def immInt (i : Ins) (w : Nat) : Nat := (signedN 16 i.imm % 2 ^ w).toNat

/-- Immediate source B for a floating TYPE (R98). -/
def immFloat (i : Ins) : Nat :=
  match i.type with
  | 2 => i.imm <<< 16
  | 3 => i.imm <<< 48
  | _ => i.imm + i.imm <<< 16

/-- An OPC tile descriptor (R222) as its four uniform registers. -/
structure Desc where
  orient : Bool
  panel : Bool
  esize : Nat
  base : Nat
  cols : Nat
  rows : Nat
  rstride : Nat
  cstride : Nat
  reserved : Bool    -- a reserved bit is nonzero
  deriving DecidableEq, Repr

/-- Reads a descriptor from its registers. -/
def Desc.of (l : List Word) : Desc :=
  let w (k : Nat) : Word := l.getD k 0
  { orient := (w 0).getLsbD 25, panel := (w 0).getLsbD 24, esize := field (w 0) 23 20, base := field (w 0) 19 0
    cols := field (w 1) 31 16, rows := field (w 1) 15 0, rstride := field (w 2) 20 0, cstride := field (w 3) 15 0
    reserved := field (w 0) 31 26 != 0 || field (w 2) 31 21 != 0 || field (w 3) 31 16 != 0 }

/-- Element size in bits. -/
def Desc.bits (d : Desc) : Nat := 4 <<< d.esize

/-- R225; `need` is the element size in bits the instruction requires, if any. -/
def Desc.malformed (d : Desc) (need : Option Nat) : Bool :=
  d.reserved || decide (5 ≤ d.esize) || d.rows == 0 || decide (8192 < d.rows) || d.cols == 0 || decide (8192 < d.cols) ||
  (d.panel && (d.esize == 4 || d.base % 32 != 0 || d.rstride % 32 != 0 || d.cstride != 1)) ||
  (!d.panel && decide (8 ≤ d.bits) && (d.base % (d.bits / 8) != 0 || d.rstride % (d.bits / 8) != 0)) ||
  (match need with | some e => d.bits != e | none => false)

/-- The bit address of element (r, c) (R223). -/
def Desc.bit (d : Desc) (r c : Nat) : Nat :=
  let major := if d.orient then c else r
  let minor := if d.orient then r else c
  if d.panel then
    let epw := 64 / d.bits
    8 * (d.base + major / 4 * d.rstride + 32 * (minor / epw) + 8 * (major % 4)) + d.bits * (minor % epw)
  else 8 * (d.base + major * d.rstride) + d.bits * minor * d.cstride

/-- The last byte of a descriptor's range (R226). -/
def Desc.last (d : Desc) : Nat := (d.bit (d.rows - 1) (d.cols - 1) + d.bits - 1) / 8

/-- Whether the range lies in an allocation of `gr` granules (R226). -/
def Desc.fits (d : Desc) (gr : Nat) : Bool := decide (d.last < 4096 * gr)

/-- Whether an element lies within the extents (R226). -/
def Desc.holds (d : Desc) (r c : Nat) : Bool := decide (r < d.rows) && decide (c < d.cols)

/-- Elements per lane (R229). -/
def elemsOf (cnt e : Nat) : Nat := cnt * 32 / e

/-- The elements of a lane of a port operation: their bit addresses. -/
def PortOp.laneBits (o : PortOp) (l : Nat) : List Nat :=
  let q := Desc.of o.desc
  (List.range (elemsOf o.regs q.bits)).map (fun k => q.bit (o.rows.getD l 0) (o.cols.getD l 0 + k))

/-- The OPC words a queued vector instruction reads, or, an OST, writes; of one with Ralelle operands, those it reads. -/
def PortOp.words (o : PortOp) : List Nat :=
  if o.ralelle then o.rows else distinct (((bitsOf o.lanes).flatMap o.laneBits).map (· / 128))

/-- The OPC words of one lane's row of RED.R. -/
def RduOp.rowWords (o : RduOp) (l : Nat) : List Nat :=
  distinct ((List.range o.len).map (fun j => (Desc.of o.desc).bit (o.row0 + l) (o.col0 + j) / 128))


end Sys2Proof.Machine
end

