-- ==== Sys2Proof/Machine/Group.lean ====
section
/-! DEFINITION. What every group instruction shares: fetch and issue (R97, R104), reconvergence (R64, R68), the progress
counter (R73), taking a fault (R125 to R137), ending and aborting a block (R122, R133), and barriers (R76 to R79). -/

namespace Sys2Proof.Machine

/-- A progress event (R73): the counter returns to zero. -/
def Group.progressed (g : Group) : Group := { g with progress := 0, events := g.events + 1 }

/-- Entries of the reconvergence stack in use (R65): those whose lanes wait to run. -/
def Group.depth (g : Group) : Nat := (g.stack.filter (!·.join)).length

/-- Pops the innermost waiting entry (R64, R68): the lanes that ran wait at the reconvergence offset, unless all exited. -/
def Group.pop (g : Group) (e : StackEntry) (rest : List StackEntry) : Group :=
  let g := g.progressed
  let rest := if g.live = 0 then rest else { e with join := true, parked := false, mask := g.live } :: rest
  { g with
    stack := rest, active := e.mask, pc := e.target
    resumed := if e.parked then some (e.target, e.eventsAt + 1) else g.resumed }

/-- Reconvergence at the group's present offset (R64): an entry whose offset the active path has reached, or whose path
has no lane left, is popped; lanes that waited join. `fuel` bounds the entries. -/
def Group.reconverge (g : Group) : Nat → Group
  | 0 => g
  | n + 1 =>
    match g.stack with
    | [] => g
    | e :: rest =>
      if g.live = 0 then
        if e.join then Group.reconverge { g with active := e.mask, pc := e.rcv, stack := rest } n
        else Group.reconverge (g.pop e rest) n
      else if g.pc = e.rcv then
        if e.join then Group.reconverge { g with active := g.active ||| e.mask, stack := rest } n
        else Group.reconverge (g.pop e rest) n
      else g

/-- Entries that were on the stack when the handler was entered are not resumed while it runs (R130): only entries above
that depth reconverge. -/
def Group.settle (g : Group) : Group :=
  match g.handler with
  | none => g.reconverge (2 * g.stack.length + 2)
  | some h =>
    let keep := g.stack.drop (g.stack.length - h.depth)
    let inner := { g with stack := g.stack.take (g.stack.length - h.depth) }.reconverge (2 * g.stack.length + 2)
    { inner with stack := inner.stack ++ keep }

/-- The bounds of execution (R93, R121, R131): the kernel's instruction range, or the whole store inside a handler. -/
def State.codeRange (s : State) (g : Group) : Nat × Nat :=
  match g.handler, s.launch? g.launch with
  | some _, _ => (0, 262144)
  | none, some k => (k.codeBase + 32, k.codeBase + 32 + k.codeLen)
  | none, none => (0, 0)

/-- Whether an offset lies in the range. -/
def State.inCode (s : State) (g : Group) (a : Nat) : Bool := decide ((s.codeRange g).1 ≤ a) && decide (a < (s.codeRange g).2)

/-- The 64-bit word of a code store at an offset (R92, R97); none when its 144/128 word is uncorrectable (R325). -/
def Facet.codeWord (x : Facet) (a : Nat) : Option DWord :=
  (x.code.decode (a / 16)).map (fun d => d.extractLsb' (8 * (a % 16)) 64)

/-- The instruction at a group's offset. -/
def State.fetchIns (s : State) (f : Nat) (g : Group) : Option Ins :=
  match (s.facet f).codeWord g.pc with
  | none => none
  | some w0 =>
    if field w0 58 56 = 4 then ((s.facet f).codeWord (g.pc + 8)).map (fun w1 => { w0, w1 }) else some { w0, w1 := 0 }

/-- Words that the fetch of an instruction corrects (R325). -/
def State.codeFixes (s : State) (f : Nat) (g : Group) (i : Ins) : Nat :=
  let m := (s.facet f).code
  let words := if g.pc / 16 = (g.pc + i.size - 1) / 16 then [g.pc / 16] else [g.pc / 16, g.pc / 16 + 1]
  (words.filter (fun w => match verdict (m.mark w) with | .fixed _ => true | _ => false)).length

/-- The fetch of an instruction that issues counts the words it corrected in PATH_ERR.CE (R325). -/
def State.fetched (s : State) (f : Nat) (g : Group) (i : Ins) : State :=
  if s.codeFixes f g i = 0 then s else s.count 0 Reg.pathErr 31 16 (s.codeFixes f g i)

/-- Whether a Facet's clock runs: in service, its island clocked, the module in P0 (R49, R453, R474, R478). -/
def State.facetRuns (s : State) (f : Nat) : Bool :=
  !(s.facet f).failed && s.power.state == 0 && s.facetClocked (f / 52) && s.gateOn (0x100 + f)

/-- Whether a group can issue: resident, running or owing the one instruction of a step, and waiting for nothing (R43). -/
def Group.canIssue (g : Group) : Bool :=
  !g.done && g.wait == .none && (g.halt == .running || g.halt == .stepping)

/-- Time of a Facet for a launch's ELAPSED (R394): half cycles of the Facet of logical Facet 0. -/
def State.launchTime (s : State) (l : Launch) : Nat := (s.facet l.facet0).half + l.before

/-- A Facet's blocks are lost (R49, R525): their launches are marked; ELAPSED goes on for launches that the Facet times. -/
def State.loseBlocks (s : State) (f : Nat) : State :=
  let t := (s.facet f).half
  let s := (s.facet f).blocks.foldl (fun s b => if b.2.ended then s
    else s.updLaunch b.2.launch (fun (l : Launch) => { l with lost := true, live := l.live - 1, finish := s.launchTime l })) s
  { s with launches := s.launches.map (fun (l : Launch) => if l.facet0 = f then { l with before := l.before + t } else l) }

/-- A Facet faults at run time (R49): out of service, recorded, its blocks lost and their launches marked. -/
def State.facetFault (s : State) (f : Nat) : State :=
  let s := s.loseBlocks f
  let s := s.updFacet f (fun x => { x with
    failed := true, groups := [], blocks := [], transfers := [], port := [], rdu := [], redb := [], prisms := [], aged := []
    code := {}, half := 0 })
  let s := { s with reqs := s.reqs.map (fun (r : LineReq) => if r.f = f then { r with slot := 64 } else r) }
  if s.retired.contains f then s
  else
    let s := { s with retired := s.retired ++ [f] }
    if s.spRuns then s.saveArea (fun a => { a with retired := s.retired }) else s

/-- A block ends (R122, R133): its launch has one block fewer running. -/
def State.endBlock (s : State) (f b : Nat) : State :=
  match s.block? f b with
  | none => s
  | some x =>
    if x.ended then s
    else
      let s := s.updBlock f b (fun x => { x with ended := true })
      s.updLaunch x.launch (fun l => { l with live := l.live - 1, finish := s.launchTime l })

/-- Whether a group has line requests outstanding, its transfers apart. -/
def State.requestsOut (s : State) (f slot launch : Nat) : Bool :=
  s.reqs.any (fun r => r.f == f && r.slot == slot && r.launch == launch &&
    (match r.kind with | .tmLoad | .tmStore => false | _ => true))

/-- Whether the OPC port, the RDU and the Prisms hold nothing of a slot's group any more. -/
def Facet.unitsIdle (x : Facet) (slot : Nat) : Bool :=
  !x.port.any (fun o => o.slot == slot) &&
  !(x.rdu ++ x.redb).any (fun o => o.outs.any (fun d => d.slot == slot)) &&
  !x.prisms.any (fun p => (p.2.queue ++ p.2.flight).any (fun o => o.slot == slot) || p.2.out.any (fun o => o.1.slot == slot))

/-- Whether a group's line requests have completed and no unit of its Facet works for it. -/
def State.slotIdle (s : State) (f slot : Nat) (g : Group) : Bool :=
  !s.requestsOut f slot g.launch && (s.facet f).unitsIdle slot

/-- The groups of a block on a Facet, with their slots, in order of GROUP. -/
def State.blockGroups (s : State) (f b : Nat) : List (Nat × Group) :=
  (s.facet f).groups.filter (fun e => e.2.block == b)

/-- Frees the allocation of an ended block once its slots are free and its transfers have completed (R217, R252). -/
def State.reapBlock (s : State) (f b : Nat) : State :=
  match s.block? f b with
  | none => s
  | some x =>
    if x.ended && (s.blockGroups f b).isEmpty && !(s.facet f).transfers.any (fun t => t.block == b) then
      s.updFacet f (fun y => { y with blocks := adel y.blocks b })
    else s

/-- The slot of a group frees; its transfers run to completion (R252) for no group any more: slot 64. -/
def State.freeSlotOf (s : State) (f slot : Nat) : State :=
  s.updFacet f (fun x => { x with
    groups := adel x.groups slot
    transfers := x.transfers.map (fun t => if t.slot = slot then { t with slot := 64 } else t) })

/-- The end of a block whose last group has left (R122, R133). -/
def State.blockOver (s : State) (f b : Nat) : State :=
  if (s.blockGroups f b).isEmpty then (s.endBlock f b).reapBlock f b else s

/-- A group of an aborted block stops (R133): it issues nothing more; a lock request in flight still completes. -/
def Group.stopped (g : Group) : Group :=
  { g with done := true, halt := .running, faulted := none, handler := none, deferred := [], awaiting := none
           wait := if g.lock.isSome then .lock else .none }

/-- Aborts a block (R133): its groups stop, the launch keeps the first fault, and the slot of each group frees once what it
has issued has completed (GROUP_SLOT_RELEASE), at once where nothing is outstanding. -/
def State.abortBlock (s : State) (f slot : Nat) (g : Group) (code pc : Nat) : State :=
  let s := s.updLaunch g.launch (fun l => if l.fault.isSome then l else { l with fault := some (code, s.logicalOf g.vf f, slot, pc) })
  let s := s.updBlock f g.block (fun b => { b with aborted := true, barriers := [] })
  let s := s.updFacet f (fun x => { x with groups := x.groups.map (fun e => if e.2.block = g.block then (e.1, e.2.stopped) else e) })
  let s := (s.blockGroups f g.block).foldl (fun s e => if s.slotIdle f e.1 e.2 then s.freeSlotOf f e.1 else s) s
  s.blockOver f g.block

/-- EXEC_FAULT_LAST and EXEC_FAULT_PC (R137). -/
def State.recordFault (s : State) (f slot : Nat) (g : Group) (code pc : Nat) (aborted : Bool) : State :=
  let w := setField (setField (setField (setField (setField 0 31 31 1) 30 30 (if aborted then 1 else 0)) 29 22 code)
    21 14 (s.logicalOf g.vf f)) 13 8 slot
  let s := s.updFn g.vf (fun x => { x with faultNo := x.faultNo + 1 })
  (s.setReg g.vf Reg.execFaultLast w).setReg g.vf Reg.execFaultPc (BitVec.ofNat 32 (pc % 2 ^ 18))

/-- ABORTED of the record of a fault that aborts its block later, where EXEC_FAULT_LAST still shows that fault (R137). -/
def State.markAborted (s : State) (j no : Nat) : State :=
  if (s.fn j).faultNo = no then s.setRegF j Reg.execFaultLast 30 30 1 else s

/-- Enters the tenant's fault handler (R130): the fault state is loaded, the active mask is FAULT_MASK, the stack stays. -/
def State.enterHandler (s : State) (g : Group) (h : Handler) : Group :=
  { g with
    handler := some { h with depth := g.stack.length }, faulted := none, active := h.mask
    pc := 8 * s.regF g.vf Reg.execFaultEntry 17 3, wait := .none, lock := none }

/-- Delivers a fault that is not halted by the debugger: the handler, or the abort of the block (R130, R132). -/
def State.deliver (s : State) (f slot : Nat) (g : Group) (h : Handler) : State :=
  if (s.reg g.vf Reg.execFaultEntry).getLsbD 31 then
    (s.recordFault f slot g h.code h.pc false).setGroup f slot (s.enterHandler g h)
  else (s.recordFault f slot g h.code h.pc true).abortBlock f slot g h.code h.pc

/-- Delivers a fault at which the debugger had halted the group, recorded then (R85, R129): the handler, or the abort. -/
def State.deliverHalted (s : State) (f slot : Nat) (g : Group) (h : Handler) : State :=
  if (s.reg g.vf Reg.execFaultEntry).getLsbD 31 then s.setGroup f slot (s.enterHandler g h)
  else ((s.markAborted g.vf h.no).setGroup f slot g).abortBlock f slot g h.code h.pc

/-- A fault of a group (R128 to R136). `cause` is EXEC_STALL_LAST.CAUSE and `bar` its barrier for PROGRESS_STALL; `info` is
FAULT_INFO. Inside its own handler the block is aborted with DOUBLE_FAULT, debug on or not (R135 before R129: DESIGN CHOICE,
log entry 105); otherwise, with debug on, the group halts first, with EN = 0 as well (R129 before R132: DESIGN CHOICE, log
entry 105). -/
def State.raise (s : State) (f slot : Nat) (g : Group) (code pc : Nat) (lanes : Word) (addr : Nat) (info : Word)
    (cause bar : Nat) : State :=
  let g := { g with progress := 0 }
  let s := if code = 1 then
      let s := s.count g.vf Reg.execCounts 15 0 1
      s.setReg g.vf Reg.execStallLast
        (setField (setField (setField (setField (setField 0 31 31 1) 30 29 cause) 28 25 bar) 24 17 (s.logicalOf g.vf f)) 16 11 slot)
    else if code = 7 then s.count g.vf Reg.execCounts 31 16 1
    else s
  if g.handler.isSome then
    (s.recordFault f slot g code pc true).abortBlock f slot g 0xFF pc
  else
    let h : Handler := { code, pc, mask := g.live, lanes, addr, info, depth := g.stack.length, no := (s.fn g.vf).faultNo + 1 }
    if s.debugOn g.vf then
      -- R129: halted at the faulting instruction; the handler runs on the next resume or step
      (s.recordFault f slot g code pc false).setGroup f slot { g with halt := .halted, faulted := some h }
    else s.deliver f slot g h

/-- FAULT_INFO (R105): TRAP code, OPC, ARRIVED, DEFERRED. -/
def faultInfo (trap : Nat) (opc arrived deferred : Bool) : Word :=
  BitVec.ofNat 32 (trap * 65536 + (if opc then 4 else 0) + (if arrived then 2 else 0) + (if deferred then 1 else 0))

/-- After an instruction: the group settles; a step's instruction has issued. -/
def State.afterIssue (s : State) (f slot : Nat) (g : Group) : State :=
  let g := if g.halt = .stepping then { g with halt := .stepped } else g
  s.setGroup f slot g.settle

/-- Whether a group's progress counter has reached THRESH × 1,024 Facet cycles (R74); a THRESH of 0 disables it. -/
def State.stallDue (s : State) (g : Group) : Bool :=
  let thresh := (s.reg g.vf Reg.execWdt).toNat
  thresh != 0 && decide (2048 * thresh ≤ g.progress)

/-- Whether loads of a tenant may raise deferred faults (R127, R297). -/
def State.trapsOn (s : State) (j : Nat) : Bool :=
  (s.reg j Reg.execOptions).getLsbD 0 || (s.reg j Reg.hullOptions).getLsbD 0

/-- Issues one instruction of a group. `accept` recognises the instruction of the command; `sources` and `dests` are the
registers R104 and R127 look at; `deferPoint` marks FENCE, JOIN and EXIT; `run` checks and performs it; `chained` names
registers whose pending write an MMA takes from the accumulator latch (R197). Nothing changes while the group is not ready or its
offset holds another instruction. A word 1 past the instruction range raises CODE_RANGE before any other fault of its word 0
(R125: DESIGN CHOICE, log entry 131). -/
def State.issue (s : State) (f slot : Nat) (accept : Ins → Bool) (sources dests : Ins → List Nat × List Nat)
    (deferPoint : Bool) (run : State → Group → Ins → Issue) (chained : State → Group → Ins → List Nat := fun _ _ _ => []) : State :=
  match s.group? f slot with
  | none => s
  | some g =>
    if !g.canIssue || !s.facetRuns f || !s.inCode g g.pc then s
    else match s.fetchIns f g with
      | none => s.facetFault f
      | some i =>
        if !accept i then s
        else if s.stallDue g then (s.fetched f g i).raise f slot g 1 g.pc g.live 0 0 0 0
        else if i.fmt = 4 && !s.inCode g (g.pc + 8) then
          (s.fetched f g i).raise f slot g 6 (g.pc + 8) g.live 0 0 0 0
        else if g.owes (((sources i).1 ++ (dests i).1).filter (fun r => !(chained s g i).contains r)) ((sources i).2 ++ (dests i).2) || g.unread (dests i).1 then s
        else if deferPoint && g.lanes i != 0 && s.trapsOn g.vf && g.writes.any (·.traps) then s
        else
          -- deferred faults (R127), the lowest code first (R125)
          let due := g.deferred.filter (fun d => deferPoint || d.vregs.any (sources i).1.contains)
          let due := if g.lanes i = 0 then [] else due
          match (due.find? (fun d => d.code == 2)).orElse (fun _ => due.head?) with
          | some d =>
            let g := { g with deferred := g.deferred.filter (fun x => x != d) }
            (s.fetched f g i).raise f slot g d.code g.pc d.lanes d.addr (faultInfo 0 d.opc false true) 0 0
          | none =>
            match run (s.fetched f g i) g i with
            | .hold => s
            | .fault code lanes addr =>
              (s.fetched f g i).raise f slot g code g.pc lanes addr
                (if code = 15 then faultInfo i.imm false false false else 0) (if code = 1 then 2 else 0) 0
            | .done s g => s.afterIssue f slot g

/-- The next instruction of a group. -/
def Group.next (g : Group) (i : Ins) : Group := { g with pc := g.pc + i.size }

/-- Whether a group has stores, atomics or lock requests the Hull has not acknowledged (R118). -/
def State.storesOut (s : State) (f slot launch : Nat) : Bool :=
  s.reqs.any (fun r => r.f == f && r.slot == slot && r.launch == launch &&
    (match r.kind with | .store | .atomic | .acq | .rel => true | _ => false))

/-- The mask of the groups a participant mask stands for (R76). -/
def participants (m g : Nat) : Nat := if m = 0 then 2 ^ g - 1 else m % 2 ^ g

/-- Whether a block's use of a barrier releases: every group of its mask that has not exited has arrived (R76, R78). -/
def barrierReady (groups : List (Nat × Group)) (b : Barrier) : Bool :=
  (List.range 32).all (fun k => !b.mask.testBit k || b.arrived.contains k ||
    !groups.any (fun e => e.2.gidx == k && !e.2.done))

/-- A group that waits at barrier `n` goes on past its JOIN.WAIT or REDB (R73, R76). One whose wait was left for its
handler no longer awaits it (R134). -/
def State.releaseWaiter (s : State) (f n slot : Nat) (g : Group) : State :=
  if g.wait == .barrier n then
    match s.fetchIns f g with
    | some i => s.setGroup f slot (({ g with wait := .none }.progressed).next i).settle
    | none => s
  else if g.awaiting == some n then s.setGroup f slot { g with awaiting := none }.progressed
  else s

/-- One entry of a reduction widened by TYPE (R245). -/
def redEntry (type : Nat) (x : Word) : Word := if type = 5 then widenBf16 x.toNat else x

/-- Reduces positions (R173, R174, R246); a position without entry is none. The result and its index. -/
def reduce (mod type : Nat) (l : List (Option (Word × Word))) : Word × Word :=
  let live := l.filterMap id
  let values := live.map (·.1)
  let floating := type == 2 || type == 5
  if mod = 0 then
    (if floating then treeSum values else BitVec.ofNat 32 ((values.map (·.toNat)).sum), 0)
  else
    let isMax := mod == 1 || mod == 3
    let v := if floating then (extreme isMax values).1 else (extremeInt isMax (type == 1) values).1
    let equal := live.filter (fun e => e.1 == v && (!floating || f32.decode e.1.toNat != .nan))
    let low := equal.foldl (fun (b : Option Word) e => match b with | none => some e.2 | some x => some (if e.2 < x then e.2 else x)) none
    match low with
    | some x => (v, x)
    -- every entry NaN: the index of position 0 (R174)
    | none => (v, ((l.head?.join).map (·.2)).getD 0)

/-- Writes an RDU result to a destination, all lanes of a vector register alike (R246). -/
def State.writeReduced (s : State) (f : Nat) (o : RduOut) (indexed : Bool) (lanes : Word) (x : Nat → Word × Word) : State :=
  match s.group? f o.slot with
  | none => s
  | some g =>
    let put (g : Group) (k : Nat) (sel : Word × Word → Word) : Group :=
      if o.uniform then { g with u := tset g.u (o.reg + k) (sel (x (lowLane lanes))) }
      else if o.reg + k = 255 then g
      else (bitsOf lanes).foldl (fun g l => g.setLane (o.reg + k) l (sel (x l))) g
    let g := put g 0 (·.1)
    let g := if indexed then put g 1 (·.2) else g
    s.setGroup f o.slot { g with writes := g.writes.filter (fun w => w.token != o.token) }

/-- What a REDB use comes to (R247): each group's lanes reduced, then the groups by GROUP; a group that has exited enters +0 for
SUM and nothing else. -/
def RduOp.redbValue (o : RduOp) : Word × Word :=
  let entry (k : Nat) : Option (Word × Word) :=
    match o.groups.find? (fun e => e.1 == k) with
    | some e => some (reduce o.mod o.type ((e.2.1.zip e.2.2).map (fun v => some (redEntry o.type v.1, v.2))))
    | none => if o.mod = 0 then some (0, 0) else none
  reduce o.mod (if o.type = 5 then 2 else o.type) ((List.range o.g).map entry)

/-- Writes the results of the released REDB uses whose arrivals the RDU has all accepted (R247, R249). -/
def State.finishRedb (s : State) (f : Nat) : State :=
  let x := s.facet f
  let ready (o : RduOp) : Bool := !x.rdu.any (fun a => a.scope == 3 && a.use == o.use)
  (x.redb.filter ready).foldl (fun s o => o.outs.foldl (fun s d => s.writeReduced f d (decide (3 ≤ o.mod)) (BitVec.allOnes 32) (fun _ => o.redbValue)) s)
    (s.updFacet f (fun y => { y with redb := y.redb.filter (fun o => !ready o) }))

/-- REDB's release (R247): one result for the arrived groups, each of which owes the write of its destination (R104). The
result is there once the RDU has accepted every arrival (R249). -/
def State.queueRedb (s : State) (f blk : Nat) (b : Barrier) (k : Nat × Nat × Nat) : State :=
  let arrived := (s.blockGroups f blk).filter (fun e => b.arrived.contains e.2.gidx && !e.2.done)
  let start := s.nextId
  let outs := arrived.mapIdx (fun n e =>
    let d := agetD b.dests e.2.gidx (false, 255)
    ({ slot := e.1, token := start + n, uniform := d.1, reg := d.2 } : RduOut))
  let s := { s with nextId := start + outs.length + 1 }
  let wide := decide (3 ≤ k.1)
  let s := outs.foldl (fun s o => s.updGroup f o.slot (fun g =>
    let rs := if wide then [o.reg, o.reg + 1] else [o.reg]
    { g with writes := { token := o.token, vregs := if o.uniform then [] else rs, uregs := if o.uniform then rs else [] } :: g.writes })) s
  let op : RduOp := { scope := 1, block := blk, mod := k.1, type := k.2.1, g := ((s.block? f blk).map (·.g)).getD 0, outs,
                      groups := b.entries, order := start + outs.length, use := b.use }
  (s.updFacet f (fun y => { y with redb := y.redb ++ [op] })).finishRedb f

/-- Completes every use of a block's barriers that is ready (R76, R78). -/
def State.releaseBarriers (s : State) (f blk : Nat) : State :=
  match s.block? f blk with
  | none => s
  | some x =>
    x.barriers.foldl (fun s nb =>
      if barrierReady (s.blockGroups f blk) nb.2 then
        let s := s.updBlock f blk (fun y => { y with barriers := adel y.barriers nb.1 })
        let s := match nb.2.redb with
          | none => s
          | some k => s.queueRedb f blk nb.2 k
        (s.blockGroups f blk).foldl (fun s e => if nb.2.arrived.contains e.2.gidx then s.releaseWaiter f nb.1 e.1 e.2 else s) s
      else s) s

/-- Whether a joining group converges (R80): the active mask holds every lane that has not exited. -/
def Group.joinConverged (g : Group) : Bool := g.active ||| g.exited == BitVec.allOnes 32

/-- Whether a group-wide collective converges (R80). -/
def Group.fullConverged (g : Group) : Bool := g.active == BitVec.allOnes 32 && g.exited == 0

/-- A guard over the active lanes (R81): some true when uniform true, some false when uniform false, none when mixed. -/
def Group.uniformGuard (g : Group) (i : Ins) : Option Bool :=
  if g.lanes i = g.live then some true else if g.lanes i = 0 then some false else none

/-- An arrival at barrier `n` with participant mask `m` (R76, R77, R247): none when it raises JOIN_MISMATCH. -/
def arrive (blk : Block) (n : Nat) (m : Nat) (gidx : Nat) (redb : Option (Nat × Nat × Nat))
    (entry : List Word × List Word) (dest : Option (Bool × Nat) := none) (use : Nat := 0) : Option Block :=
  let set := participants m blk.g
  match aget? blk.barriers n with
  | none =>
    if !set.testBit gidx then none
    else
      let b : Barrier := { mask := set, arrived := [gidx], redb, entries := [(gidx, entry.1, entry.2)]
                           dests := (dest.map (fun d => (gidx, d.1, d.2))).toList, use := use }
      some { blk with barriers := aput blk.barriers n b }
  | some b =>
    if b.mask != set || !b.mask.testBit gidx || b.arrived.contains gidx || b.redb != redb then none
    else
      let b := { b with arrived := b.arrived ++ [gidx], entries := b.entries ++ [(gidx, entry.1, entry.2)]
                        dests := b.dests ++ (dest.map (fun d => (gidx, d.1, d.2))).toList }
      some { blk with barriers := aput blk.barriers n b }

/-- Lanes exit (R122): they leave every mask; when none remains the group is done, which counts as an arrival (R78) and is
a progress event. -/
def Group.exitLanes (g : Group) (m : Word) : Group :=
  let g := { g with exited := g.exited ||| m }
  let g := g.settle
  if g.live = 0 && g.stack.isEmpty then { g.progressed with done := true } else g

end Sys2Proof.Machine
end

