-- ==== Sys2Proof/Machine/Special.lean ====
section
/-! DEFINITION. The special functions of R110, R111 and R170. The manual fixes each result by an algorithm it does not print
and gives error bounds only: a result is a free value of `Config` held inside its bound. The reference values are signed
fixed-point numbers with 448 bits after the point, which is far below the bounds. Log entry 10. -/

namespace Sys2Proof.Machine

namespace Special

/-- One. -/
def one : Int := 2 ^ 448

/-- The product of two fixed-point numbers. -/
def mul (a b : Int) : Int := a * b / one

/-- The quotient of two fixed-point numbers. -/
def div (a b : Int) : Int := a * one / b

/-- The fixed-point number of a finite binary32 value, exactly. -/
def ofFin (neg : Bool) (m : Nat) (e : Int) : Int := Val.scaled neg m (e + 448).toNat

/-- The sum of z^(2i+1)/(2i+1) for `n` terms from `i` on, `t` the power z^(2i+1) and `q` the square of z. -/
def atanhTerms (q : Int) : Nat → Nat → Int → Int
  | 0, _, _ => 0
  | n + 1, i, t => t / (2 * i + 1 : Nat) + atanhTerms q n (i + 1) (mul t q)

/-- The inverse hyperbolic tangent of |z| ≤ 1/3; with `q` negated it is the inverse tangent. -/
def atanh (z : Int) : Int := atanhTerms (mul z z) 160 0 z

/-- The inverse tangent of 1/k. -/
def atanInv (k : Nat) : Int := atanhTerms (-(one / (k * k : Nat))) 160 0 (one / k)

def ln2 : Int := 2 * atanh (one / 3)

/-- π, by Machin's formula. -/
def pi : Int := 16 * atanInv 5 - 4 * atanInv 239

/-- The sum of the series whose next term is the last one times `q` over (i+1)…(i+w), `n` terms. -/
def series (q : Int) (w : Nat) : Nat → Nat → Int → Int
  | 0, _, _ => 0
  | n + 1, i, t => t + series q w n (i + w) (mul t q / ((List.range w).foldl (fun p j => p * (i + j + 1)) 1 : Nat))

/-- e^x, held within e^(±260), beyond every binary32 value. -/
def exp (x : Int) : Int :=
  let x := max (-260 * one) (min (260 * one) x)
  let k := x / ln2
  let y := series (x - k * ln2) 1 100 0 one
  if 0 ≤ k then y * (2 ^ k.toNat : Nat) else y / (2 ^ (-k).toNat : Nat)

/-- ln(1 + u) for 0 ≤ u ≤ 1. -/
def log1p (u : Int) : Int := 2 * atanh (div u (2 * one + u))

/-- log₂ of m · 2^e, m > 0. -/
def log2 (m : Nat) (e : Int) : Int :=
  let k := Nat.log2 m
  let y := (one * m) / (2 ^ k : Nat)
  ((k : Int) + e) * one + div (log1p (y - one)) ln2

/-- 1/√x for x > 0. -/
def rsqrt (x : Int) : Int := (isqrt 700 (2 ^ 1344 / x.toNat) : Nat)

/-- sin x. -/
def sin (x : Int) : Int :=
  let r := x % (2 * pi)
  let r := if pi < r then r - 2 * pi else r
  series (-(mul r r)) 2 110 1 r

/-- cos x. -/
def cos (x : Int) : Int :=
  let r := x % (2 * pi)
  let r := if pi < r then r - 2 * pi else r
  series (-(mul r r)) 2 110 0 one

/-- The logistic function. -/
def sigmoid (x : Int) : Int := if 0 ≤ x then div one (one + exp (-x)) else div (exp x) (one + exp x)

def tanh (x : Int) : Int :=
  let e := exp (-2 * x.natAbs)
  let y := div (one - e) (one + e)
  if x < 0 then -y else y

def softplus (x : Int) : Int := max 0 x + log1p (exp (-x.natAbs))

/-- The normal density. -/
def density (x : Int) : Int := mul (exp (-(mul x x) / 2)) (rsqrt (2 * pi))

/-- The terms x^(2i+1)/(2i+1)!! of the normal distribution. -/
def normalTerms (q : Int) : Nat → Nat → Int → Int
  | 0, _, _ => 0
  | n + 1, i, t => t + normalTerms q n (i + 1) (mul t q / (2 * i + 3 : Nat))

/-- The normal distribution function Φ. Beyond 15 its distance from 0 or 1 is below every bound. -/
def normal (x : Int) : Int :=
  if x < -15 * one then 0 else if 15 * one < x then one
  else one / 2 + mul (density x) (normalTerms (mul x x) 600 0 x)

/-- f of R111 at a finite argument, for the functions that are no exact sequence. -/
def act (m : Nat) (x : Int) : Int :=
  match m with
  | 0 => sigmoid x
  | 1 => tanh x
  | 4 => exp x - one
  | 5 => exp x
  | 6 => softplus x
  | 7 => mul x (normal x)
  | _ => mul x (sigmoid x)

/-- f' of R170 at a finite argument, for the forms that are no exact sequence: softplus from its output, and the IN = 1
forms. -/
def deriv (m : Nat) (fromInput : Bool) (x : Int) : Int :=
  let bell (e : Int) := div e (mul (one + e) (one + e))
  match m, fromInput with
  | 0, _ => bell (exp (-x.natAbs))
  | 1, _ => 4 * bell (exp (-2 * x.natAbs))
  | 6, false => one - exp (-x)
  | 6, true => sigmoid x
  | 7, _ => normal x + mul x (density x)
  | 8, _ => let s := sigmoid x; mul s (one + mul x (sigmoid (-x)))
  | _, _ => exp x

/-- One unit in the last place of binary32 at a value. -/
def ulp (v : Int) : Int :=
  if v = 0 then 2 ^ 299 else 2 ^ (max 299 ((Nat.log2 v.natAbs : Int) - 23)).toNat

/-- The place of a binary32 pattern in the order of values, −0 just below +0. -/
def rank (x : Nat) : Int := if x < f32.signBit then x else f32.signBit - 1 - x

/-- The binary32 pattern at a place of the order. -/
def ofRank (r : Int) : Nat := if 0 ≤ r then r.toNat else (f32.signBit - 1 - r).toNat

/-- A fixed-point value rounded to binary32 in a mode of R108. -/
def toF32 (mode : Nat) (v : Int) : Nat := f32.round mode false (.fin (decide (v < 0)) v.natAbs (-448))

/-- The binary32 result within `d` of the reference value `v` that the free value picks: the free value counts, over the
patterns of the bound in their order, from the lowest. A bound that reaches past the largest finite value takes in the
infinity. -/
def within (v d : Int) (free : Nat) : Nat :=
  let lo := v - d
  let hi := v + d
  let top : Int := (2 ^ 24 - 1) * 2 ^ (104 + 448)
  let a := if lo < -top then rank (f32.infBits true) else rank (toF32 2 lo)
  let b := if top < hi then rank (f32.infBits false) else rank (toF32 3 hi)
  ofRank (a + ((free : Int) % (b - a + 1)))

/-- The result within `k` units in the last place of the reference value; the slack of 2^-100 of a unit stands for the error of
the fixed-point reference (log entry 10). A value too small for every binary32 number
underflows to the zero that rounding to nearest selects (R152; DEDUCED, log entry 10). -/
def near (k : Nat) (v : Int) (free : Nat) : Nat :=
  if v ≠ 0 ∧ v.natAbs ≤ 2 ^ 298 then (if v < 0 then f32.signBit else 0) else within v (k * ulp v + ulp v / 2 ^ 100) free

/-- The bound of SIN and COS: 2 ulp up to |A| = 2^15·π, beyond it 2^−20. -/
def nearTrig (x v : Int) (free : Nat) : Nat :=
  if (x.natAbs : Int) ≤ 2 ^ 15 * pi then near 2 v free else within v (one / 2 ^ 20) free

end Special

/-- A function of a binary32 argument whose result is `g` of the exact argument and a free value; at an infinity, and at a
zero where `noZero`, the manual states no value and the free value stands alone. -/
def Special.at32 (noZero : Bool) (g : Int → Nat → Nat) (x : Nat) (free : BitVec 32) : Nat :=
  match f32.decode x with
  | .fin neg m e => if m = 0 ∧ noZero then free.toNat else g (Special.ofFin neg m e) free.toNat
  | _ => free.toNat

end Sys2Proof.Machine
end

