-- ==== Sys2Proof/Machine/Alu.lean ====
section
/-! DEFINITION. The instructions of the lanes: the integer (R107), floating-point (R108), special-function (R110, R111),
conversion (R112) and shuffle, permute and pack (R113, R530) classes. -/

namespace Sys2Proof.Machine

/-- What an ALU instruction reads and writes: sources with their spans, and its destination: none for a predicate. -/
structure Shape where
  a : Nat := 0          -- span of A, 0 when not read
  b : Nat := 0
  c : Nat := 0
  dsrc : Nat := 0       -- span of D when it is also read
  dest : Nat := 1       -- span of D; 0 for a predicate destination
  formats : List Nat := [0, 1]
  deriving DecidableEq, Repr

/-- The source register operands of an instruction of a shape (R98: in format I, IMM16 is source B). -/
def Shape.sources (h : Shape) (i : Ins) : List Reg? :=
  (if h.a = 0 then [] else [operand i i.ua i.a h.a]) ++
  (if h.b = 0 || i.isI then [] else [operand i i.ub i.b h.b]) ++
  (if h.c = 0 then [] else [operand i i.uc i.c h.c]) ++
  (if h.dsrc = 0 then [] else [operand i i.ud i.d h.dsrc])

/-- The destination register operand. -/
def Shape.target (h : Shape) (i : Ins) : Reg? := operand i i.ud i.d h.dest

/-- Registers for R104 and R127. -/
def regSets (l : List Reg?) : List Nat × List Nat := (l.flatMap Reg?.vregs, l.flatMap Reg?.uregs)

/-- The encoding rules every ALU instruction shares (R98, R101 to R103, R106): `own` adds the instruction's own. -/
def Shape.legal (h : Shape) (i : Ins) (ralelle own : Bool) : Bool :=
  own && (!i.rlx || ralelle) && (!i.isI || (!i.ub && !i.uc && h.c == 0)) &&
  (h.sources i).all Reg?.legal &&
  (if h.dest = 0 then decide (i.d < 8) && !i.ud
   else (h.target i).legal && (!i.ud || (h.sources i).all (·.uniform)))

/-- Whether the launch runs in Ralelle mode (R103). -/
def State.ralelle (s : State) (g : Group) : Bool := ((s.launch? g.launch).map (·.ralelle)).getD false

/-- Highest vector register of the kernel (R101). -/
def State.topReg (s : State) (g : Group) : Nat := ((s.launch? g.launch).map (·.h)).getD 0

/-- Whether an access before it at the vector port, a queued OLD or OST or a RED.R input, touches the Ralelle area of a group,
which the group's Ralelle operands follow (R230, R231, R241). -/
def State.portTouches (s : State) (f : Nat) (g : Group) : Bool :=
  let inside (w : Nat) : Bool := w / 256 == ralelleAt s g 0 0 / 4096
  (s.facet f).port.any (fun o => o.block == g.block && !o.ralelle && o.words.any inside) ||
  (s.facet f).rdu.any (fun o => o.scope == 2 && o.block == g.block && (bitsOf o.lanes).any (fun l => (o.rowWords l).any inside))

/-- The values an ALU instruction computes with in one lane. -/
structure Lane where
  a : Nat
  b : Nat
  c : Nat
  d : Nat
  lane : Nat
  deriving DecidableEq, Repr

/-- Reads the sources of one lane; `imm` stands for B in format I. -/
def readLane (s : State) (f : Nat) (g : Group) (h : Shape) (i : Ins) (imm lane : Nat) : Lane where
  a := if h.a = 0 then 0 else readOp s f g (operand i i.ua i.a h.a) lane
  b := if h.b = 0 then 0 else if i.isI then imm else readOp s f g (operand i i.ub i.b h.b) lane
  c := if h.c = 0 then 0 else readOp s f g (operand i i.uc i.c h.c) lane
  d := if h.dsrc = 0 then 0 else readOp s f g (operand i i.ud i.d h.dsrc) lane
  lane := lane

/-- The lanes an ALU instruction computes in: one for a uniform-only instruction (R102), else the guard-true lanes. -/
def aluLanes (g : Group) (i : Ins) (uniform : Bool) : List Nat :=
  if uniform then (if g.onceTrue i then [lowLane g.live] else []) else bitsOf (g.lanes i)

/-- Writes the results of an ALU instruction. -/
def writeAll (s : State) (f : Nat) (g : Group) (h : Shape) (i : Ins) (res : List (Nat × Nat)) : State × Group :=
  if h.dest = 0 then
    (s, { g with p := tset g.p (i.d % 8) (res.foldl (fun m r =>
      if r.2 = 0 then m &&& ~~~ (1#32 <<< r.1) else m ||| (1#32 <<< r.1)) (tget g.p (i.d % 8))) })
  else res.foldl (fun (p : State × Group) r => writeOp p.1 f p.2 (h.target i) r.1 r.2) (s, g)

/-- The effect of an ALU instruction whose checks pass. `fn` gives a lane's result from all lanes' values. -/
def aluEffect (s : State) (f : Nat) (g : Group) (h : Shape) (i : Ins) (imm : Nat)
    (fn : List Lane → Lane → Nat) : State × Group :=
  let lanes := aluLanes g i (h.dest != 0 && i.ud)
  let all := (List.range 32).map (readLane s f g h i imm)
  writeAll s f g h i (lanes.map (fun l => (l, fn all ((all[l]?).getD ⟨0, 0, 0, 0, l⟩))))

/-- The instruction-level checks of an ALU instruction and its readiness: illegal encodings (4), register range (5). -/
def aluChecks (s : State) (g : Group) (h : Shape) (i : Ins) (own : Bool) : Option Nat :=
  if !h.legal i (s.ralelle g) own then some 4
  else if !((h.sources i).all (Reg?.inRange · (s.topReg g)) && (h.dest == 0 || (h.target i).inRange (s.topReg g))) then some 5
  else none

/-- Whether an instruction with Ralelle operands is not ready (R230, R231, R243): the port's queue is full, an access before it
touches the group's area, or an earlier load still owes the area a write. -/
def rlxHeld (s : State) (f slot : Nat) (i : Ins) : Bool :=
  i.rlx && (decide (8 ≤ (s.facet f).port.length) ||
    match s.group? f slot with
    | none => false
    | some g => s.portTouches f g || g.writes.any (fun w => w.vregs.any (1000 ≤ ·)))

/-- The place an instruction with Ralelle operands takes in the port's queue while instructions wait there (R230, R243). Nothing
before it touches its registers, so its access is made at issue (DEDUCED, log entry 107). -/
def State.takePort (s : State) (f slot : Nat) (g : Group) (i : Ins) (reads writes : List Reg?) : State :=
  if i.rlx && g.lanes i != 0 && !(s.facet f).port.isEmpty && (reads ++ writes).any (fun r => r.rlx && !r.uniform) then
    let op : PortOp :=
      { slot := slot, block := g.block, store := false, desc := [], lanes := 0, rows := reads.flatMap (·.words s g)
        cols := writes.flatMap (·.words s g), reg := 0, regs := 0, data := [], token := s.nextId, ralelle := true }
    s.updFacet f (fun x => { x with port := x.port ++ [op] })
  else s

/-- Checks and performs an ALU instruction. -/
def runAlu (f slot : Nat) (h : Shape) (own : Bool) (imm : Nat) (fn : List Lane → Lane → Nat)
    (s : State) (g : Group) (i : Ins) : Issue :=
  match aluChecks s g h i own with
  | some c => .fault c g.live 0
  | none =>
    if rlxHeld s f slot i then .hold
    else let r := aluEffect s f g h i imm fn; .done (r.1.takePort f slot g i (h.sources i) (if h.dest = 0 then [] else [h.target i])) (r.2.next i)

/-- Issues an ALU instruction with opcode `op`: `shape`, `own`, `imm` and `fn` may depend on the instruction. -/
def issueAlu (s : State) (f slot op : Nat) (shape : Ins → Shape) (own : Ins → Bool) (imm : Ins → Nat)
    (fn : Ins → Group → List Lane → Lane → Nat) : State :=
  s.issue f slot (fun i => i.op == op && (shape i).formats.contains i.fmt)
    (fun i => regSets ((shape i).sources i)) (fun i => if (shape i).dest = 0 then ([], []) else regSets [(shape i).target i]) false
    (fun s g i => runAlu f slot (shape i) (own i) (imm i) (fn i g) s g i)

/-- The encoding rule of the integer class (R107): TYPE U32 or S32, MOD 0, EXT[2:0] 0. -/
def ownInt (i : Ins) : Bool := decide (i.type ≤ 1) && i.mod == 0 && i.ext3 == 0

/-- Issues a one-result integer instruction. -/
def issueInt (s : State) (f slot op : Nat) (h : Shape) (fn : Ins → Lane → Nat) : State :=
  issueAlu s f slot op (fun _ => h) ownInt (fun i => immInt i (32 * h.b)) (fun i _ _ l => fn i l)

/-- The 32-bit integer value of a pattern by TYPE (R107). -/
def intOfType (i : Ins) (x : Nat) : Int := if i.type = 1 then signedN 32 x else x

/-- Low 32 bits. -/
def low32 (x : Int) : Nat := (x % 2 ^ 32).toNat

/-- Low 64 bits. -/
def low64 (x : Int) : Nat := (x % 2 ^ 64).toNat

def execMov (f slot : Nat) (s : State) : Out := .next (issueInt s f slot 0x00 { a := 1 } (fun _ l => l.a))

/-- The special values of R105; none for an index that is not listed. -/
def specialValue (s : State) (f slot : Nat) (g : Group) (n lane : Nat) : Option Nat :=
  let l := s.launch? g.launch
  let b := s.block? f g.block
  let h := g.handler
  match n with
  | 0 => some lane
  | 1 => some g.gidx
  | 2 => some ((b.map (·.g)).getD 0)
  | 3 => some ((b.map (·.index)).getD 0)
  | 4 => some ((l.map (·.nblocks)).getD 0)
  | 5 => some (s.logicalOf g.vf f)
  | 6 => some slot
  | 7 => some (slot / 16)
  | 8 => some ((l.map (·.param)).getD 0 % 2 ^ 32)
  | 9 => some ((l.map (·.param)).getD 0 / 2 ^ 32)
  | 10 => some ((b.map (fun b => 4096 * b.granules)).getD 0)
  | 11 => some ((s.facet f).half / 2 % 2 ^ 32)
  | 12 => some ((s.facet f).half / 2 / 2 ^ 32 % 2 ^ 32)
  | 13 => some g.live.toNat
  | 16 => some ((h.map (·.code)).getD 0)
  | 17 => some ((h.map (·.pc)).getD 0)
  | 18 => some ((h.map (·.mask.toNat)).getD 0)
  | 19 => some ((h.map (·.lanes.toNat)).getD 0)
  | 20 => some ((h.map (·.addr)).getD 0 % 2 ^ 32)
  | 21 => some ((h.map (·.addr)).getD 0 / 2 ^ 32 % 2 ^ 32)
  | 22 => some ((h.map (·.info.toNat)).getD 0)
  | _ => none

/-- MOVS (R105): A is an index, not a register, so UMASK A set is an illegal encoding; LANE into a uniform destination is the
number of the lowest active lane (both DESIGN CHOICE, log entry 108). -/
def execMovs (f slot : Nat) (s : State) : Out :=
  .next (s.issue f slot (fun i => i.op == 0x01 && decide (i.fmt ≤ 1)) (fun _ => ([], []))
    (fun i => regSets [(({} : Shape).target i)]) false (fun s g i =>
      runAlu f slot {} (ownInt i && (specialValue s f slot g i.a 0).isSome && !i.ua) 0
        (fun _ l => (specialValue s f slot g i.a l.lane).getD 0) s g i))

def execIadd (f slot : Nat) (s : State) : Out :=
  .next (issueInt s f slot 0x02 { a := 1, b := 1 } (fun _ l => low32 (l.a + l.b)))
def execIsub (f slot : Nat) (s : State) : Out :=
  .next (issueInt s f slot 0x03 { a := 1, b := 1 } (fun _ l => low32 (l.a - l.b : Int)))
def execImul (f slot : Nat) (s : State) : Out :=
  .next (issueInt s f slot 0x04 { a := 1, b := 1 } (fun _ l => low32 (l.a * l.b)))
def execImulh (f slot : Nat) (s : State) : Out :=
  .next (issueInt s f slot 0x05 { a := 1, b := 1 } (fun i l => low32 (intOfType i l.a * intOfType i l.b / 2 ^ 32)))
def execImad (f slot : Nat) (s : State) : Out :=
  .next (issueInt s f slot 0x06 { a := 1, b := 1, c := 1, formats := [0, 1] } (fun _ l => low32 (l.a * l.b + l.c)))
def execImin (f slot : Nat) (s : State) : Out :=
  .next (issueInt s f slot 0x07 { a := 1, b := 1 } (fun i l => if intOfType i l.b < intOfType i l.a then l.b else l.a))
def execImax (f slot : Nat) (s : State) : Out :=
  .next (issueInt s f slot 0x08 { a := 1, b := 1 } (fun i l => if intOfType i l.a < intOfType i l.b then l.b else l.a))
def execIabs (f slot : Nat) (s : State) : Out :=
  .next (issueInt s f slot 0x09 { a := 1 } (fun _ l => low32 ((signedN 32 l.a).natAbs)))
def execAnd (f slot : Nat) (s : State) : Out := .next (issueInt s f slot 0x0A { a := 1, b := 1 } (fun _ l => l.a &&& l.b))
def execOr (f slot : Nat) (s : State) : Out := .next (issueInt s f slot 0x0B { a := 1, b := 1 } (fun _ l => l.a ||| l.b))
def execXor (f slot : Nat) (s : State) : Out := .next (issueInt s f slot 0x0C { a := 1, b := 1 } (fun _ l => l.a ^^^ l.b))
def execNot (f slot : Nat) (s : State) : Out :=
  .next (issueInt s f slot 0x0D { a := 1 } (fun _ l => 2 ^ 32 - 1 - l.a))
def execShl (f slot : Nat) (s : State) : Out :=
  .next (issueInt s f slot 0x0E { a := 1, b := 1 } (fun _ l => low32 (l.a <<< (l.b % 32) : Nat)))
def execShr (f slot : Nat) (s : State) : Out :=
  .next (issueInt s f slot 0x0F { a := 1, b := 1 } (fun _ l => l.a >>> (l.b % 32)))
def execSar (f slot : Nat) (s : State) : Out :=
  .next (issueInt s f slot 0x10 { a := 1, b := 1 } (fun _ l => low32 (signedN 32 l.a / 2 ^ (l.b % 32))))
def execPopc (f slot : Nat) (s : State) : Out :=
  .next (issueInt s f slot 0x11 { a := 1 } (fun _ l => popCount (BitVec.ofNat 32 l.a)))
def execClz (f slot : Nat) (s : State) : Out :=
  .next (issueInt s f slot 0x12 { a := 1 } (fun _ l => if l.a = 0 then 32 else 31 - Nat.log2 l.a))

/-- Integer conditions of R107: 0 EQ, 1 NE, 2 LT, 3 LE, 4 GT, 5 GE. -/
def icond (c : Nat) (x y : Int) : Bool :=
  match c with
  | 0 => decide (x = y)
  | 1 => decide (x ≠ y)
  | 2 => decide (x < y)
  | 3 => decide (x ≤ y)
  | 4 => decide (y < x)
  | _ => decide (y ≤ x)

def execIcmp (f slot : Nat) (s : State) : Out :=
  .next (issueAlu s f slot 0x13 (fun _ => { a := 1, b := 1, dest := 0 })
    (fun i => decide (i.type ≤ 1) && decide (i.mod ≤ 5) && i.ext3 == 0) (fun i => immInt i 32)
    (fun i _ _ l => if icond i.mod (intOfType i l.a) (intOfType i l.b) then 1 else 0))

/-- SEL (R107): C names a predicate, which is no uniform source (R102). Whatever the TYPE, A, B and D are one 32-bit register
each (DESIGN CHOICE, log entry 109). -/
def execSel (f slot : Nat) (s : State) : Out :=
  .next (issueAlu s f slot 0x14 (fun _ => { a := 1, b := 1 })
    (fun i => decide (i.type ≤ 13) && i.mod == 0 && i.ext3 == 0 && !i.isI && decide (i.c < 8) && !i.uc && !i.ud) (fun i => immInt i 32)
    (fun i g _ l => if (tget g.p (i.c % 8)).getLsbD l.lane then l.a else l.b))

def execIadd64 (f slot : Nat) (s : State) : Out :=
  .next (issueInt s f slot 0x15 { a := 2, b := 2, dest := 2 } (fun _ l => low64 (l.a + l.b)))
def execImad64 (f slot : Nat) (s : State) : Out :=
  .next (issueInt s f slot 0x16 { a := 1, b := 1, c := 2, dest := 2 }
    (fun i l => low64 (intOfType i l.a * intOfType i l.b + l.c)))

/-- Whether a TYPE is one of the floating-point class (R108). -/
def floatType (i : Ins) : Bool := decide (2 ≤ i.type) && decide (i.type ≤ 5)

/-- Span of a floating operand: a pair for F64 (R101). -/
def fspan (i : Ins) : Nat := if i.type = 3 then 2 else 1

/-- The sign bits of a lane of a TYPE; both halves for the 16-bit types. -/
def signMask (i : Ins) : Nat :=
  match i.type with
  | 2 => 0x80000000
  | 3 => 0x8000000000000000
  | _ => 0x80008000

/-- Applies a floating operation of one lane, both halves for the 16-bit types (R101), after the negations of EXT[2:0]. -/
def floatLane (i : Ins) (op : Fmt → Nat → Nat → Nat → Nat) (l : Lane) : Nat :=
  let a := if i.w0.getLsbD 0 then l.a ^^^ signMask i else l.a
  let b := if i.w0.getLsbD 1 then l.b ^^^ signMask i else l.b
  let c := if i.w0.getLsbD 2 then l.c ^^^ signMask i else l.c
  match i.type with
  | 2 => op f32 a b c
  | 3 => op f64 a b c
  | t =>
    let k := if t = 4 then f16 else bf16
    op k (a % 65536) (b % 65536) (c % 65536) + 65536 * op k (a / 65536 % 65536) (b / 65536 % 65536) (c / 65536 % 65536)

/-- Issues a floating-point instruction. -/
def issueFloat (s : State) (f slot op : Nat) (nb nc : Bool) (fn : Nat → Fmt → Nat → Nat → Nat → Nat) : State :=
  issueAlu s f slot op
    (fun i => { a := fspan i, b := if nb then fspan i else 0, c := if nc then fspan i else 0, dest := fspan i })
    (fun i => floatType i && decide (i.mod ≤ 3)) immFloat (fun i _ _ l => floatLane i (fn i.mod) l)

def execFadd (f slot : Nat) (s : State) : Out := .next (issueFloat s f slot 0x20 true false (fun m k a b _ => k.add m a b))
def execFmul (f slot : Nat) (s : State) : Out := .next (issueFloat s f slot 0x21 true false (fun m k a b _ => k.mul m a b))
def execFfma (f slot : Nat) (s : State) : Out := .next (issueFloat s f slot 0x22 true true (fun m k a b c => k.fma m a b c))
def execFmin (f slot : Nat) (s : State) : Out := .next (issueFloat s f slot 0x23 true false (fun _ k a b _ => k.minOf a b))
def execFmax (f slot : Nat) (s : State) : Out := .next (issueFloat s f slot 0x24 true false (fun _ k a b _ => k.maxOf a b))

/-- FCMP (R108): the low halves of the 16-bit types. -/
def execFcmp (f slot : Nat) (s : State) : Out :=
  .next (issueAlu s f slot 0x25 (fun i => { a := fspan i, b := fspan i, dest := 0 })
    (fun i => floatType i && decide (i.mod ≤ 7)) immFloat
    (fun i _ _ l => floatLane i (fun k a b _ => if k.compare i.mod a b then 1 else 0) l % 65536))

def execFabs (f slot : Nat) (s : State) : Out := .next (issueFloat s f slot 0x26 false false (fun _ k a _ _ => k.abs a))

/-- The encoding rules of the special functions of one source (R110). -/
def ownSpecial (i : Ins) : Bool := i.type == 2 && i.mod == 0 && i.ext3 == 0 && i.b == 0 && i.c == 0 && !i.ub && !i.uc

/-- Issues a special function of one source. -/
def issueSpecial (s : State) (f slot op : Nat) (fn : Nat → Nat) : State :=
  issueAlu s f slot op (fun _ => { a := 1 }) (fun i => ownSpecial i && !i.isI) (fun _ => 0) (fun _ _ _ l => fn l.a)

/-- A special function's bits at an argument (R110): a NaN argument and an invalid one give the canonical NaN (R152); the
rest is the stepping's algorithm, a free value inside the bound `g` of R110. -/
def special (key : Nat) (invalid : Val → Bool) (noZero : Bool) (g : Int → Nat → Nat) (x : Nat) : Nat :=
  let v := f32.decode x
  if v == .nan || invalid v then f32.nanBits else f32.canon <| Special.at32 noZero g x (Config.sfun key (BitVec.ofNat 32 x))

/-- LOG2 of a binary32 pattern inside its bound. -/
def log2Value (x : Nat) (free : BitVec 32) : Nat :=
  match f32.decode x with
  | .fin false m e => if m = 0 then f32.canon free.toNat else Special.near 2 (Special.log2 m e) free.toNat
  | _ => f32.canon free.toNat

/-- A negative value other than −0. -/
def negative : Val → Bool
  | .inf s => s
  | .fin s m _ => s && m != 0
  | .nan => false

/-- An infinite value. -/
def infinite : Val → Bool
  | .inf _ => true
  | _ => false

def execRcp (f slot : Nat) (s : State) : Out := .next (issueSpecial s f slot 0x40 rcp32)
def execRsq (f slot : Nat) (s : State) : Out := .next (issueSpecial s f slot 0x41 (special 0x410 negative true (fun x => Special.near 1 (Special.rsqrt x))))
def execSqrt (f slot : Nat) (s : State) : Out := .next (issueSpecial s f slot 0x42 sqrt32)
def execExp2 (f slot : Nat) (s : State) : Out := .next (issueSpecial s f slot 0x43 (special 0x430 (fun _ => false) false
  (fun x => Special.near 2 (Special.exp (Special.mul x Special.ln2)))))
def execLog2 (f slot : Nat) (s : State) : Out := .next (issueSpecial s f slot 0x44 (fun x =>
  let v := f32.decode x
  if v == .nan || negative v then f32.nanBits else log2Value x (Config.sfun 0x440 (BitVec.ofNat 32 x))))
def execSin (f slot : Nat) (s : State) : Out := .next (issueSpecial s f slot 0x45 (special 0x450 infinite false
  (fun x => Special.nearTrig x (Special.sin x))))
def execCos (f slot : Nat) (s : State) : Out := .next (issueSpecial s f slot 0x46 (special 0x460 infinite false
  (fun x => Special.nearTrig x (Special.cos x))))

/-- EXP (R110): e^A; +0 at −∞ as the worked tile of R206 has it, and +∞ at +∞ (R529). -/
def expValue (x : Nat) : Nat :=
  match f32.decode x with
  | .inf neg => if neg then 0 else x
  | _ => special 0x470 (fun _ => false) false (fun x => Special.near 2 (Special.exp x)) x

def execExp (f slot : Nat) (s : State) : Out := .next (issueSpecial s f slot 0x47 expValue)

/-- ACT (R111, R529): NaN, the limits at infinity, the exact functions; the rest is the stepping's algorithm. -/
def actValue (m x c : Nat) : Nat :=
  let one := 0x3F800000
  let minusOne := 0xBF800000
  let act (x : Nat) := Special.at32 false (fun v => Special.near 2 (Special.act m v)) x (Config.sfun (16 * 0x48 + m) (BitVec.ofNat 32 x))
  match f32.decode x with
  | .nan => f32.nanBits
  | .inf false =>
    if m ≤ 1 then one else f32.infBits false
  | .inf true =>
    match m with
    | 0 | 2 | 5 | 6 => 0
    | 1 | 4 => minusOne
    | 3 => f32.mul 0 c x
    | _ => f32.signBit
  | .fin neg n _ =>
    match m with
    | 2 => if neg || n == 0 then 0 else x
    | 3 => if neg || n == 0 then f32.mul 0 c x else x
    | 4 => if neg then act x else x
    | _ => act x

def execAct (f slot : Nat) (s : State) : Out :=
  .next (issueAlu s f slot 0x48 (fun i => { a := 1, c := if i.mod = 3 then 1 else 0 })
    (fun i => i.type == 2 && decide (i.mod ≤ 8) && i.ext3 == 0 && !i.isI && i.b == 0 && !i.ub &&
      (i.mod == 3 || (i.c == 0 && !i.uc))) (fun _ => 0) (fun i _ _ l => actValue i.mod l.a l.c))

/-- f' of R170 at an infinite saved value, by its steps: the sigmoid, tanh and exponential there are their limits (R529). GELU
has no step sequence and takes the free value. -/
def derivativeAtInf (m x : Nat) (neg fromInput : Bool) (free : BitVec 32) : Nat :=
  let one := 0x3F800000
  let minus (a b : Nat) := f32.add 0 a (b ^^^ f32.signBit)
  let s := if neg then 0 else one
  let e (up : Bool) := if up then f32.infBits false else 0
  match m, fromInput with
  | 0, _ => f32.mul 0 s (minus one s)
  | 1, _ => minus one one
  | 4, _ => if neg then e false else one
  | 5, _ => e (!neg)
  | 6, false => minus one (e neg)
  | 6, true => s
  | 8, _ => f32.mul 0 s (f32.add 0 one (f32.mul 0 x (minus one s)))
  | _, _ => f32.canon free.toNat

/-- f' of R170 from the saved value. -/
def derivative (m x c : Nat) (fromInput : Bool) : Nat :=
  let one := 0x3F800000
  let neg (y : Nat) := y ^^^ f32.signBit
  let positive := (f32.decode x).cmp (.fin false 0 0) == some .gt
  let free := Config.sderiv (2 * m + (if fromInput then 1 else 0)) (BitVec.ofNat 32 x)
  let slope := match f32.decode x with
    | .inf neg => derivativeAtInf m x neg fromInput free
    | _ => Special.at32 false (fun v => Special.near 2 (Special.deriv m fromInput v)) x free
  if f32.decode x = .nan then f32.nanBits
  else match m, fromInput with
    | 0, false => f32.mul 0 x (f32.add 0 one (neg x))
    | 1, false => f32.add 0 one (neg (f32.mul 0 x x))
    | 2, _ => if positive then one else 0
    | 3, false =>
      let cv := f32.decode c
      if cv = .nan || cv.cmp (.fin false 0 0) != some .gt then f32.nanBits else if positive then one else c
    | 3, true => if positive then one else c
    | 4, false => if positive then one else f32.add 0 x one
    | 5, false => x
    | 4, true => if positive then one else slope
    | _, _ => slope

def execActd (f slot : Nat) (s : State) : Out :=
  .next (issueAlu s f slot 0x49 (fun i => { a := 1, b := 1, c := if i.mod = 3 then 1 else 0 })
    (fun i => i.type == 2 && decide (i.mod ≤ 8) && i.ext3 % 4 == 0 && !i.isI && (i.mod == 3 || (i.c == 0 && !i.uc)) &&
      (decide (i.mod ≤ 6) || i.w0.getLsbD 2)) (fun _ => 0)
    (fun i _ _ l =>
      let d := derivative i.mod l.a l.c (i.w0.getLsbD 2)
      bf16.round 0 false (f32.decode (f32.mul 0 (widenBf16 l.b).toNat d))))

/-- Bits of a TYPE code (R100). -/
def typeBits : Nat → Nat
  | 3 => 64
  | 4 | 5 | 12 | 13 => 16
  | 6 | 7 | 9 | 10 | 11 => 8
  | 8 => 4
  | _ => 32

/-- CVT of one value (R155 to R159); between two integer types a value outside the destination is clamped with SAT (R112), and
without it a free value. -/
def cvtValue (src dst mode : Nat) (sat : Bool) (r x : Nat) : Nat :=
  let x := x % 2 ^ typeBits src
  match intOf src, intOf dst with
  | some (w, sg), some (k, tg) =>
    let v := intVal w sg x
    if sat || clampInt k tg v = v then (clampInt k tg v % 2 ^ k).toNat
    else (Config.cvtInt (16 * src + dst) (BitVec.ofNat 32 x)).toNat % 2 ^ k
  | _, _ => ofVal dst mode sat r (typeVal src x)

/-- Shape of CVT and I2I: pairs for F64 (R112). -/
def cvtShape (i : Ins) : Shape :=
  { a := if i.b % 16 = 3 then 2 else 1, dest := if i.type = 3 then 2 else 1, formats := [0] }

/-- CVT (R112): mode 4 advances the state of each active guard-true lane, a uniform destination or not (R160). One that executes
once, for a uniform destination, rounds with the lowest active lane's draw (DESIGN CHOICE, log entry 136). -/
def execCvt (f slot : Nat) (s : State) : Out :=
  .next (s.issue f slot (fun i => i.op == 0x50 && i.fmt == 0) (fun i => regSets ((cvtShape i).sources i))
    (fun i => regSets [(cvtShape i).target i]) false (fun s g i =>
      let m := i.mod % 8
      let own := decide (i.type ≤ 13) && decide (i.b ≤ 13) && !i.ub && i.ext3 == 0 && decide (m ≤ 4) &&
        (m != 4 || (decide (4 ≤ i.type) && decide (i.type ≤ 7)))
      let drawn : Group := if m = 4 then
          { g with lfsr := (bitsOf (g.lanes i)).foldl (fun t l => tset t l (nextDraw (tget g.lfsr l))) g.lfsr }
        else g
      match runAlu f slot (cvtShape i) own 0
          (fun _ l => cvtValue (i.b % 16) i.type m (i.w0.getLsbD 43) (tget drawn.lfsr l.lane).toNat l.a) s g i with
      | .done s g => .done s { g with lfsr := drawn.lfsr }
      | r => r))

def execI2i (f slot : Nat) (s : State) : Out :=
  .next (issueAlu s f slot 0x51 (fun _ => { a := 1, formats := [0] })
    (fun i => (intOf i.type).isSome && (intOf i.b).isSome && !i.ub && i.ext3 == 0 && decide (i.mod % 8 ≤ 3)) (fun _ => 0)
    (fun i _ _ l => i2i i.b i.type (i.w0.getLsbD 43) (l.a % 2 ^ typeBits i.b)))

/-- The source lane of SHFL (R113): none outside 0-31. -/
def shuffleSource (mode l b : Nat) : Option Nat :=
  let k := b % 32
  match mode with
  | 0 => some k
  | 1 => if k ≤ l then some (l - k) else none
  | 2 => if l + k < 32 then some (l + k) else none
  | _ => some (l ^^^ k)

/-- The encoding rules of SHFL and SHFL.P (R113, R530). -/
def ownShuffle (i : Ins) : Bool := i.type == 0 && decide (i.mod ≤ 3) && i.ext3 == 0

/-- SHFL (R113): group-collective (R80 to R82). -/
def execShfl (f slot : Nat) (s : State) : Out :=
  .next (s.issue f slot (fun i => i.op == 0x58 && decide (i.fmt ≤ 1))
    (fun i => regSets (({ a := 1, b := 1 } : Shape).sources i)) (fun i => regSets [({} : Shape).target i]) false
    (fun s g i =>
      let h : Shape := { a := 1, b := 1 }
      match aluChecks s g h i (ownShuffle i) with
      | some c => .fault c g.live 0
      | none =>
        match g.uniformGuard i with
        | some false => .done s (g.next i)
        | u => if u.isNone || !g.fullConverged then .fault 7 g.live 0
               else runAlu f slot h (ownShuffle i) (immInt i 32) (fun all l =>
                 match shuffleSource i.mod l.lane l.b with
                 | some k => ((all[k]?).map (·.a)).getD l.a
                 | none => l.a) s g i))

def execShflP (f slot : Nat) (s : State) : Out :=
  .next (issueAlu s f slot 0x59 (fun _ => { a := 1, b := 1 }) ownShuffle (fun i => immInt i 32)
    (fun i g all l =>
      match shuffleSource i.mod l.lane l.b with
      | some k => if g.live.getLsbD k then ((all[k]?).map (·.a)).getD l.a else l.a
      | none => l.a))

/-- One byte of BSWZ (R113). -/
def swizzleByte (sel i a d : Nat) : Nat :=
  if sel < 4 then a / 256 ^ sel % 256
  else if sel = 4 then 0
  else if sel = 5 then 255
  else if sel = 6 then d / 256 ^ i % 256
  else 255 - d / 256 ^ i % 256

def execBswz (f slot : Nat) (s : State) : Out :=
  .next (issueAlu s f slot 0x5A (fun _ => { a := 1, b := 1, dsrc := 1 })
    (fun i => i.type == 0 && i.mod == 0 && i.ext3 == 0 && (!i.isI || decide (i.imm < 4096))) (fun i => i.imm)
    (fun _ _ _ l => (List.range 4).foldl (fun x k => x + swizzleByte (l.b / 8 ^ k % 8) k l.a l.d * 256 ^ k) 0))

/-- Fields per lane of a narrow type of PACK and UNPK (R113, R530); 0 for any other type. -/
def packFields (t : Nat) : Nat := if t = 9 || t ≤ 3 || 14 ≤ t then 0 else 32 / typeBits t

def execPack (f slot : Nat) (s : State) : Out :=
  .next (issueAlu s f slot 0x5B (fun _ => { a := 1, dsrc := 1 }) (fun i => decide (i.mod < packFields i.type) && decide (i.ext3 ≤ 3))
    (fun _ => 0) (fun i _ _ l =>
      let w := typeBits i.type
      let v := match fmtOf i.type with
        | some k => k.round i.ext3 false (f32.decode l.a)
        | none => l.a % 2 ^ w
      let sh := w * i.mod
      l.d - ((l.d >>> sh) % 2 ^ w) <<< sh + v <<< sh))

def execUnpk (f slot : Nat) (s : State) : Out :=
  .next (issueAlu s f slot 0x5C (fun i => { a := 1, b := if i.type = 8 then 1 else 0 })
    (fun i => decide (i.mod < packFields i.type) && i.ext3 == 0) (fun i => immInt i 32) (fun i _ _ l =>
      let w := typeBits i.type
      let e := (l.a >>> (w * i.mod)) % 2 ^ w
      if i.type = 8 then f32.round 0 false ((e2m1.decode e).mul (e8m0Val l.b))
      else match intOf i.type with
        | some (w, sg) => low32 (intVal w sg e)
        | none => f32.round 0 false (typeVal i.type e)))

/-- VOTE (R530). It has no vector operand: with RLX set it is illegal in every kernel (R242: DESIGN CHOICE, log entry 137). -/
def execVote (f slot : Nat) (s : State) : Out :=
  .next (s.issue f slot (fun i => i.op == 0x5D && decide (i.fmt ≤ 1)) (fun _ => ([], [])) (fun i => ([], [i.d])) false
    (fun s g i =>
      if !(i.type == 0 && decide (i.mod ≤ 2) && i.ext == 0x80 && decide (i.a < 8) && i.b == 0 && i.c == 0 && decide (i.d < 64)) then
        .fault 4 g.live 0
      else
        let m := g.lanes i
        let v := tget g.p (i.a % 8) &&& m
        let r : Word := match i.mod with
          | 0 => if v = m then 1 else 0
          | 1 => if v = 0 then 0 else 1
          | _ => v
        .done s ((if m = 0 then g else { g with u := tset g.u i.d r }).next i)))

end Sys2Proof.Machine
end

