-- ==== Sys2Proof/Machine/Complete.lean ====
section
/-! DEFINITION. Completion records (R393, R394) and the ends of accepted entries. -/

namespace Sys2Proof.Machine

/-- The fields of a completion record beyond those of its entry (R394). -/
structure Rec where
  status : Nat
  overlap : Bool := false
  elapsed : Nat := 0
  faultCode : Nat := 0
  faultSlot : Nat := 0
  faultFacet : Nat := 0
  faultPc : Nat := 0
  collId : Nat := 0
  buddyLeg : Nat := 0
  storeLeg : Nat := 0
  remote : Nat := 0
  stepNo : Nat := 0
  deriving DecidableEq, Repr

/-- A ring's progress. -/
def State.ring (s : State) (j r : Nat) : Ring := agetD (s.fn j).rings r {}

/-- Updates a ring's progress. -/
def State.updRing (s : State) (j r : Nat) (f : Ring → Ring) : State :=
  s.updFn j (fun x => { x with rings := aput x.rings r (f (s.ring j r)) })

/-- Whether a ring is registered: its LOCUS_CFG.VALID reads 1 (R386). -/
def State.registered (s : State) (j r : Nat) : Bool := decide (r < 64) && (s.reg j (Reg.locusCfg r)).getLsbD 31

/-- Entries of a registered ring. -/
def State.ringSize (s : State) (j r : Nat) : Nat := 2 ^ s.regF j (Reg.locusCfg r) 3 0

/-- The selected HIF minor version of a function (R395). -/
def State.hifMinor (s : State) (j : Nat) : Nat := s.regF j Reg.hifSelect 7 0

/-- The 64 bytes of a completion record (R394). -/
def recordBytes (e : Entry) (x : Rec) (phase dropped : Bool) : List Byte :=
  let bit (b : Bool) (n : Nat) : Nat := if b then 2 ^ n else 0
  leBytes 2 e.seq ++ leBytes 1 e.opcode ++ leBytes 1 (bit x.overlap 2 + bit dropped 1 + bit phase 0) ++
  leBytes 1 x.status ++ leBytes 1 (e.ring % 64) ++ leBytes 2 0 ++ leBytes 8 e.user.toNat ++ leBytes 8 x.elapsed ++
  leBytes 1 x.faultCode ++ leBytes 1 (x.faultSlot % 64) ++ leBytes 2 (x.faultFacet % 256) ++
  leBytes 4 (x.faultPc % 2 ^ 18) ++ leBytes 4 x.collId ++ leBytes 1 (x.buddyLeg % 4 + 4 * (x.storeLeg % 4)) ++
  leBytes 1 x.remote ++ leBytes 2 0 ++ leBytes 4 x.stepNo ++ leBytes 20 0

/-- COMPLETION_RECORD_WRITE (R393, R394): one record at the ring's write index, then the vector the entry asked for. DROPPED
is 0 under HIF 3.0 and 3.1. A ring that is no longer registered takes no record. -/
def State.writeRecord (s : State) (e : Entry) (x : Rec) : State :=
  if !s.registered e.fn e.ring then s
  else
    let q := s.ring e.fn e.ring
    let base := (s.reg e.fn (Reg.locusCqHi e.ring)).toNat * 2 ^ 32 + s.regF e.fn (Reg.locusCqLo e.ring) 31 6 * 64
    let r : HostRecord := { fn := e.fn, addr := base + 64 * q.cqIndex
                            bytes := recordBytes e x q.phase (e.dropped && 2 ≤ s.hifMinor e.fn) }
    let wrap := q.cqIndex + 1 == 2 * s.ringSize e.fn e.ring
    let s := s.updRing e.fn e.ring (fun q => { q with cqIndex := if wrap then 0 else q.cqIndex + 1, phase := q.phase != wrap })
    { s with out := { s.out with
        records := r :: s.out.records
        msix := if e.msix then (e.fn, e.ring) :: s.out.msix else s.out.msix } }

/-- The accepted, uncompleted entry of a ring with a SEQ. -/
def State.entry? (s : State) (j r seq : Nat) : Option Entry :=
  s.entries.find? (fun e => e.fn == j && e.ring == r && e.seq == seq)

/-- An accepted entry completes: its record is written and it counts no longer (R388, R393). -/
def State.completeEntry (s : State) (j r seq : Nat) (x : Rec) : State :=
  match s.entry? j r seq with
  | none => s
  | some e =>
    { s.writeRecord e x with
      entries := s.entries.filter (fun (y : Entry) => !(y.fn == j && y.ring == r && y.seq == seq)) }

/-- The record of an accepted entry that goes on (R370, phase 1 of a LOWRANK). -/
def State.noteEntry (s : State) (j r seq : Nat) (x : Rec) : State :=
  match s.entry? j r seq with
  | none => s
  | some e => s.writeRecord e x

/-- Accepted entries of a function, or of a ring, not yet completed. -/
def State.outstanding (s : State) (j : Nat) : Nat := (s.entries.filter (fun e => e.fn == j)).length

/-- Accepted entries of a ring not yet completed: LOCUS_STATE.OUTSTANDING. -/
def State.outstandingOn (s : State) (j r : Nat) : Nat := (s.entries.filter (fun e => e.fn == j && e.ring == r)).length

end Sys2Proof.Machine
end

