-- ==== Sys2Proof/Machine/Frustum.lean ====
section
/-! DEFINITION. The Frustum engines: address mapping (R303), write sinks (R304, R305), cell reads with correction (R325),
service windows (R307), refresh (R309), patrol scrub (R312), spare rows (R313 to R315) and error injection (R327). -/

namespace Sys2Proof.Machine

/-- Where a device address lies (R303): stack, pseudo-channel, bank, row. -/
def placeOf (a : Nat) : Nat × Nat × Nat × Nat :=
  let gn := a / 4096
  let h := (a / 2048) % 2
  let s := 2 * (gn / 12) + h
  let t := s / 64
  let row := t / 16
  (gn % 12, s % 64, (t % 16) ^^^ (row % 16), row)

/-- The engine of a sector (device address / 128): 64 * stack + pseudo-channel. -/
def engineOf (sector : Nat) : Nat := let p := placeOf (128 * sector); 64 * p.1 + p.2.1

/-- Bank and row of a sector as one number: bank * 40960 + row. -/
def rowOf (sector : Nat) : Nat := let p := placeOf (128 * sector); p.2.2.1 * 40960 + p.2.2.2

/-- The sector at a scrub index, counted in ascending (bank, row, sector) (R312). -/
def sectorAt (stack pc index : Nat) : Nat :=
  let bank := index / 655360
  let row := (index / 16) % 40960
  let t := 16 * row + (bank ^^^ (row % 16))
  let s := 64 * t + pc
  let gn := 12 * (s / 2) + stack
  (4096 * gn + 2048 * (s % 2)) / 128 + index % 16

/-- Scrub steps of a pass. -/
def scrubSteps : Nat := 10485760

/-- The committed writes of the engine's sink (R304): the bytes of an entry that came after a queued accumulate to its sector are
kept with that accumulate (R318). -/
def PseudoChannel.entries (p : PseudoChannel) : List SinkWrite := p.sink ++ p.nma.filterMap (·.after)

/-- The writes of an engine, oldest first of each sector: committed, then waiting for the sink. -/
def PseudoChannel.writes (p : PseudoChannel) : List SinkWrite := p.entries ++ p.inbound

/-- Whether the sector has a write waiting or in the sink (R304). -/
def PseudoChannel.hasEntry (p : PseudoChannel) (sector : Nat) : Bool := p.writes.any (·.sector == sector)

/-- The distinct sectors waiting or in the sink. -/
def PseudoChannel.occupied (p : PseudoChannel) : Nat := (p.writes.map (·.sector)).dedup.length

/-- Sink entries in use: one for each sector (R304). -/
def PseudoChannel.used (p : PseudoChannel) : Nat := (p.entries.map (·.sector)).dedup.length

/-- Whether the sink has room for the sectors, coalescing counted (R306). -/
def PseudoChannel.roomFor (p : PseudoChannel) (sectors : List Nat) : Bool :=
  decide (p.occupied + (sectors.filter (fun x => !p.hasEntry x)).length ≤ 256)

/-- Coalesces a write into a sink (R304): masks combine, later bytes win. -/
def coalesce : List SinkWrite → SinkWrite → List SinkWrite
  | [], w => [w]
  | x :: t, w =>
    if x.sector = w.sector then { sector := x.sector, mask := x.mask ||| w.mask, data := x.data.merge w.mask w.data } :: t
    else x :: coalesce t w

/-- An agent's read of an engine's cells has run (R307). -/
def State.agentServed (s : State) (k : Nat) : State :=
  if (s.pc k).agentAt.isNone then s else s.updPc k (fun p => { p with agentAt := none })

/-- Sends a write to its pseudo-channel; SINK_WRITE lets it into the sink. -/
def State.toSink (s : State) (w : SinkWrite) : State :=
  s.updPc (engineOf w.sector) (fun p => { p with inbound := p.inbound ++ [w] })

/-- Full byte mask. -/
def fullMask : BitVec 128 := BitVec.allOnes 128

/-- What one read of a word of the cells meets. -/
inductive CellWord where
  | good                           -- correct
  | poison                         -- exactly the canonical poisoned word (R322)
  | fixed (d : BitVec 128)         -- corrected to d
  | reread (d : BitVec 128) (fix : Bool) -- uncorrectable, then correct (or correctable) on the re-read
  | lost                           -- uncorrectable after the re-read
  deriving DecidableEq, Repr

/-- One reading of a word whose pins `pins` have failed (R316): each carries a bad symbol, which the code corrects where the word
has no other. -/
def seenWord (d : BitVec 128) (m : BitVec 16) (pins : List Nat) : CellWord :=
  match pins, verdict m with
  | [], .clean => .good
  | [], .fixed f => .fixed (d ^^^ f)
  | [_], .clean => .fixed d
  | [p], .fixed f => if errorSymbol m = some p then .fixed (d ^^^ f) else .lost
  | _, _ => .lost

/-- Decodes a word of the cells met with transient symbol errors, re-read once when uncorrectable (R325); a word read as exactly the
canonical poisoned one, at once or on the re-read, is poisoned already (R322). Under a failed pin no word is read so: the pin's bad
symbol makes it uncorrectable (R316, R323; DESIGN CHOICE that it never decodes as another codeword, log entry 142). -/
def readWord (d : BitVec 128) (m : BitVec 16) (noise : Noise) (word : Nat) (pins : List Nat) : CellWord :=
  let hit := noise.foldl (fun (x : BitVec 128 × BitVec 16) e => if e.1 = word then addSymbol x.1 x.2 e.2.1 e.2.2 else x) (d, m)
  if pins.isEmpty && isPoison hit.1 hit.2 then .poison
  else match seenWord hit.1 hit.2 pins with
    | .lost =>
      if pins.isEmpty && isPoison d m then .poison
      else match seenWord d m pins with
        | .good => .reread d false
        | .fixed x => .reread x true
        | r => r
    | r => r

/-- The eight words of a sector as one read of the cells meets them. -/
def State.readCells (s : State) (sector : Nat) (noise : Noise) : List CellWord :=
  let pins := (s.pc (engineOf sector)).failedPins
  (List.range 8).map (fun i => readWord (s.hbm.cells.word (8 * sector + i)) (s.hbm.cells.mark (8 * sector + i)) noise i pins)

/-- A sector of the cells, corrected, as a read that met `ws` finds it: under a failed pin a word with a further bad symbol is
lost (R316). -/
def State.heldSector (s : State) (sector : Nat) (ws : List CellWord) : Sector :=
  let x := s.hbm.cells.sector sector
  if (s.pc (engineOf sector)).failedPins.isEmpty then x
  else
    let lost := (List.range 8).filter (fun i => ws[i]? == some .lost)
    x.merge (lost.foldl (fun (m : BitVec 128) i => m ||| BitVec.ofNat 128 (0xFFFF <<< (16 * i))) 0)
      { pois := lost.foldl (fun (m : BitVec 8) i => m ||| BitVec.ofNat 8 (2 ^ i)) 0 }

/-- What a read of a sector returns: the cells, corrected, with the sink's bytes and the writes ahead of the read merged
over them (R305). -/
def State.hbmSector (s : State) (sector : Nat) : Sector :=
  (s.pc (engineOf sector)).writes.foldl (fun x w => if w.sector = sector then x.merge w.mask w.data else x)
    (s.heldSector sector (s.readCells sector []))

/-- Counts what a cell read met (R325): corrected symbols, re-reads, poisoned words; rows for R314. -/
def State.countCells (s : State) (sector : Nat) (ws : List CellWord) : State :=
  let k := engineOf sector / 64
  let fixed := (ws.filter (fun w => match w with | .fixed _ => true | .reread _ true => true | _ => false)).length
  let ok := (ws.filter (fun w => match w with | .reread _ _ => true | _ => false)).length
  let lost := (ws.filter (fun w => w == .lost)).length
  let s := if fixed = 0 then s else (s.count 0 (Reg.hbmCe k) 31 0 fixed).life! (0x40 + k) fixed
  let s := if ok = 0 then s else s.count 0 (Reg.hbmUe k) 15 0 ok
  let s := if lost = 0 then s else s.count 0 (Reg.hbmUe k) 31 16 lost
  let row := rowOf sector
  s.updPc (engineOf sector) (fun p => { p with
    rowCe := tset p.rowCe row (tget p.rowCe row + BitVec.ofNat 16 fixed)
    rowUe := if lost = 0 || p.rowUe.contains row then p.rowUe else p.rowUe ++ [row] })

/-- The byte mask of word i of a sector. -/
def wordMask (i : Nat) : BitVec 128 := BitVec.ofNat 128 (0xFFFF <<< (16 * i))

/-- The bytes of a sector that writes in the sink, or on their way to it, cover. -/
def PseudoChannel.cover (p : PseudoChannel) (sector : Nat) : BitVec 128 :=
  p.writes.foldl (fun m w => if w.sector = sector then m ||| w.mask else m) 0

/-- The write that puts corrected words and poisoned words back (R325): the whole sector `x`, as corrected, where the sector has
no entry; beside an entry only the words that became poisoned. -/
def writeBack (sector : Nat) (entry : Bool) (x : Sector) (ws : List CellWord) : Option SinkWrite :=
  let lost := (List.range 8).filter (fun i => ws[i]? == some .lost)
  let fixed := ws.any (fun w => match w with | .fixed _ => true | .reread _ true => true | _ => false)
  let p : SinkWrite :=
    { sector := sector, mask := lost.foldl (fun (m : BitVec 128) i => m ||| wordMask i) 0
      data := { pois := lost.foldl (fun (m : BitVec 8) i => m ||| BitVec.ofNat 8 (2 ^ i)) 0 } }
  if lost.isEmpty && (entry || !fixed) then none
  else if entry then some p
  else some { sector := sector, mask := fullMask, data := x.merge p.mask p.data }

/-- Sends a write-back of what the cells hold to the sink, ahead of the accumulates queued for its sector (R318). -/
def State.toSinkFirst (s : State) (w : SinkWrite) : State :=
  s.updPc (engineOf w.sector) (fun p => { p with
    inbound := w :: p.inbound
    nma := p.nma.map (fun n => if n.addr / 128 = w.sector then { n with ahead := n.ahead + 1 } else n) })

/-- A Frustum cell read of a sector (R325): counted, with its write-back sent to the sink, under a failed pin at every read (R316). A
lost word that written bytes cover whole is not written back (R305). -/
def State.cellRead (s : State) (sector : Nat) (noise : Noise) : State :=
  let ws := s.readCells sector noise
  let p := s.pc (engineOf sector)
  let s := s.countCells sector ws
  let back := ws.mapIdx (fun i w => if w == .lost && p.cover sector &&& wordMask i == wordMask i then .good else w)
  match writeBack sector (p.hasEntry sector) (s.hbm.cells.sector sector) back with
  | some w => s.toSinkFirst w
  | none => s

/-- Applies one sink entry to the cells (R307), with an armed injection (R327): a partial entry is an indivisible read,
correct, merge, encode and write. A lost word that the entry covers whole is not written back as poisoned. -/
def State.retire (s : State) (w : SinkWrite) : State :=
  let met := (s.readCells w.sector []).mapIdx (fun i c =>
    if c == .lost && w.mask &&& wordMask i == wordMask i then .good else c)
  let merged := (s.heldSector w.sector met).merge w.mask w.data
  let s := if w.mask = fullMask then s else s.countCells w.sector met
  let cells := s.hbm.cells.putSector w.sector merged
  let inj := s.reg 0 Reg.hbmInject
  let armed := inj.getLsbD 31 && 64 * field inj 27 24 + field inj 23 18 == engineOf w.sector
  if armed then
    let x := addSymbol (cells.word (8 * w.sector)) (cells.mark (8 * w.sector)) (field inj 15 10) (field inj 3 0)
    let s := { s with hbm := { s.hbm with cells := cells.setWord (8 * w.sector) x.1 x.2 } }
    s.setRegF 0 Reg.hbmInject 31 31 0
  else { s with hbm := { s.hbm with cells := cells } }

/-- Whether a sector's writes are held in the sink by a running remap copy (R314). -/
def PseudoChannel.heldByCopy (p : PseudoChannel) (sector : Nat) : Bool :=
  match p.copy with
  | some c => rowOf sector == c.bank * 40960 + c.row
  | none => false

/-- Retires up to `n` sink entries of an engine, oldest first (R307). -/
def State.retireN (s : State) (k : Nat) : Nat → State
  | 0 => s
  | n + 1 =>
    match (s.pc k).sink.find? (fun w => !(s.pc k).heldByCopy w.sector) with
    | none => s
    | some w =>
      let s := s.updPc k (fun p => { p with sink := p.sink.filter (fun x => x.sector != w.sector) })
      State.retireN (s.retire w) k n

/-- Moves an engine's waiting writes into its sink and every entry to the cells (R310). -/
def State.flushEngine (s : State) (k : Nat) : State :=
  let s := s.updPc k (fun p => { p with
    sink := (p.nma.filterMap (·.after) ++ p.inbound).foldl coalesce p.sink, inbound := [], nma := p.nma.map (fun n => { n with after := none }) })
  let s := (s.pc k).sink.foldl (fun s w => s.retire w) s
  s.updPc k (fun p => { p with sink := [] })

/-- Puts a committed write into the sink (R304, R318): with the last accumulate to its sector that reached the engine before it,
where there is one. -/
def PseudoChannel.commit (p : PseudoChannel) (w : SinkWrite) : PseudoChannel :=
  let before (n : Nma) : Bool := n.addr / 128 == w.sector && n.ahead == 0
  let pass (n : Nma) : Nma := if n.addr / 128 = w.sector then { n with ahead := n.ahead - 1 } else n
  match (p.nma.reverse.findIdx? before).map (p.nma.length - 1 - ·) with
  | none => { p with sink := coalesce p.sink w, nma := p.nma.map pass }
  | some i => { p with nma := p.nma.mapIdx (fun j n =>
      if j = i then { n with after := (coalesce n.after.toList w).head? } else pass n) }

/-- Whether an engine answers: not in self-refresh (R310), its Frustum island clocked (R453, R454). -/
def State.engineUp (s : State) (k : Nat) : Bool := s.hbm.trained && !s.hbm.selfRefresh && s.power.originLock.getLsbD (k / 192)

/-- SINK_WRITE: the sink accepts the next waiting write for which it has a free entry or an entry of the sector; this commits it
(R304, R305). It depends on no other queue. -/
def sinkAccept (s : State) (k : Nat) : State :=
  let p := s.pc k
  let room (w : SinkWrite) : Bool := p.entries.any (·.sector == w.sector) || decide (p.used < 256)
  match p.inbound.findIdx? room with
  | none => s
  | some i =>
    match p.inbound[i]? with
    | none => s
    | some w => if !s.engineUp k then s else s.updPc k (fun p => { p with inbound := p.inbound.eraseIdx i }.commit w)

/-- A fill of this engine that its engine has not read yet (R307). -/
def State.demand (s : State) (k : Nat) : Option Fill :=
  s.hull.fills.find? (fun f => !f.read && engineOf (16 * f.line) == k)

/-- Service work of an engine (R307): sink entries, accumulates, an agent's read, a remap copy, or the patrol scrub. -/
def State.serviceWork (s : State) (k : Nat) : Bool :=
  let p := s.pc k
  !p.sink.isEmpty || !p.nma.isEmpty || p.agentAt.isSome || p.copy.isSome || (s.reg 0 Reg.frustumCfg).getLsbD 31

/-- SERVICE_WINDOW_START (R307): begins when no demand read waits and service work does, or after 32 reads with the sink
at 192 entries or an accumulate or agent's read waiting for 2 µs, 50 always-on cycles; `n` writes are retired in it. -/
def serviceWindow (s : State) (k n : Nat) : State :=
  let p := s.pc k
  let late (t : Nat) : Bool := decide (t + 50 ≤ s.now)
  let ok := ((s.demand k).isNone && s.serviceWork k) ||
    (decide (32 ≤ p.served) && (decide (192 ≤ p.used) || p.nma.any (fun n => late n.since) || p.agentAt.any late))
  if ok && s.engineUp k then
    (s.retireN k n).updPc k (fun p => { p with service := true, served := 0 })
  else s

/-- DEMAND_READ (R308): the engine reads the sectors of its oldest tracker from the cells. -/
def demandRead (s : State) (k : Nat) (noise : Noise) : State :=
  match s.demand k with
  | none => s
  | some f =>
    if !s.engineUp k then s
    else
      let s := (bitsOf f.sectors).foldl (fun s i => s.cellRead (16 * f.line + i) noise) s
      let s := { s with hull := { s.hull with fills := s.hull.fills.map (fun x => if x = f then { x with read := true } else x) } }
      s.updPc k (fun p => { p with service := false, served := p.served + 1 })

/-- Whether scrub, accumulate and copy work may run on an engine: in a service window, or with no demand read waiting
(R307). -/
def State.inService (s : State) (k : Nat) : Bool := s.engineUp k && ((s.pc k).service || (s.demand k).isNone)

/-- One indivisible read, decode and conditional write of a sector (R312, R314). -/
def State.scrubSector (s : State) (sector : Nat) (noise : Noise) : State :=
  let ws := s.readCells sector noise
  let s := s.countCells sector ws
  match writeBack sector false (s.hbm.cells.sector sector) ws with
  | none => s
  | some w => { s with hbm := { s.hbm with cells := s.hbm.cells.putSector sector w.data } }

/-- SCRUB_STEP (R312): a scrub step of the next sector of the pass; a sector with a sink entry is skipped, and one under a remap
copy, whose own step serves both (R326). -/
def scrubStep (s : State) (k : Nat) (noise : Noise) : State :=
  if !(s.reg 0 Reg.frustumCfg).getLsbD 31 || !s.inService k then s
  else
    let p := s.pc k
    let sector := sectorAt (k / 64) (k % 64) p.scrub
    let s := if p.hasEntry sector || p.heldByCopy sector then s else s.scrubSector sector noise
    s.updPc k (fun p =>
      if p.scrub + 1 = scrubSteps then { p with scrub := 0, passes := p.passes + 1, rowCe := [] }
      else { p with scrub := p.scrub + 1 })

/-- REFRESH (R309): one per-bank refresh command. -/
def refreshBank (s : State) (k : Nat) : State :=
  if s.engineUp k then s.updPc k (fun p => { p with refreshes := p.refreshes + 1 }) else s

/-- REFRESH_RATE_CHANGE (R309): the doubled rate from 85 °C, the normal rate at 80 °C or below. -/
def refreshRate (s : State) (stack celsius : Nat) : State :=
  if 85 ≤ celsius then s.setRegF 0 (Reg.hbmScrub stack) 31 31 1
  else if celsius ≤ 80 then s.setRegF 0 (Reg.hbmScrub stack) 31 31 0
  else s

/-- The remap entries of a stack (R313). -/
def State.remapsOf (s : State) (stack : Nat) : List (Nat × Nat × Nat × Nat) := agetD s.hbm.remaps stack []

/-- Whether a row meets a condition of R314 with run-time remap on. -/
def State.remapDue (s : State) (k bank row : Nat) : Bool :=
  let p := s.pc k
  let r := bank * 40960 + row
  let limit := max 1 (s.regF 0 Reg.frustumCfg 15 8)
  (s.reg 0 Reg.frustumCfg).getLsbD 30 && p.copy.isNone &&
  !((s.remapsOf (k / 64)).any (fun e => e.1 == k % 64 && e.2.1 == bank && e.2.2.1 == row)) &&
  (p.rowUe.contains r || decide (limit ≤ (tget p.rowCe r).toNat))

/-- ROW_REMAP_START (R314, R315): the copy to the bank's next free spare starts; with no spare left or a full table the row
stays in service, EXHAUSTED is set and the event escalates. -/
def rowRemapStart (s : State) (k bank row : Nat) : State :=
  if !s.remapDue k bank row then s
  else
    let stack := k / 64
    let table := s.remapsOf stack
    let used := (table.filter (fun e => e.1 == k % 64 && e.2.1 == bank)).map (·.2.2.2)
    let s := s.updPc k (fun p => { p with rowUe := p.rowUe.filter (· != bank * 40960 + row), rowCe := tset p.rowCe (bank * 40960 + row) 0 })
    match (List.range 128).find? (fun n => !used.contains n), decide (table.length < 4096) with
    | some spare, true => s.updPc k (fun p => { p with copy := some { bank, row, spare := spare } })
    | _, _ => (s.setRegF 0 (Reg.hbmRemap stack) 31 31 1).escalateStack stack

/-- REMAP_COPY_DONE (R314): each sector of the row has been moved by a scrub step; the entry takes effect, and waits for SP while
SP is absent. -/
def remapCopyDone (s : State) (k : Nat) : State :=
  match (s.pc k).copy with
  | none => s
  | some c =>
    if !s.inService k then s
    else
      let stack := k / 64
      let s := (List.range 16).foldl (fun s i => s.scrubSector (sectorAt stack (k % 64) (655360 * c.bank + 16 * c.row + i)) []) s
      let s := s.updPc k (fun p => { p with copy := none })
      let s := { s with hbm := { s.hbm with
        remaps := aput s.hbm.remaps stack (s.remapsOf stack ++ [(k % 64, c.bank, c.row, c.spare)])
        waiting := if s.spRuns then s.hbm.waiting else s.hbm.waiting ++ [(stack, k % 64, c.bank, c.row, c.spare)] } }
      if s.spRuns then s.saveArea (fun a => { a with remaps := a.remaps ++ [(stack, k % 64, c.bank, c.row, c.spare)] }) else s

/-- SP takes the remap entries that waited for it (R314). -/
def State.spTakesRemaps (s : State) : State :=
  let l := s.hbm.waiting
  { s with hbm := { s.hbm with waiting := [] } }.saveArea (fun a => { a with remaps := a.remaps ++ l })

/-- A pin of a pseudo-channel failed training (R316), `pin` its symbol (R302): a pseudo-channel is counted once; a second one of
its stack escalates to a stack fault (R415). -/
def State.degradePin (s : State) (k pin : Nat) : State :=
  let known := (s.pc k).failedPins
  let s := s.updPc k (fun p => { p with failedPins := if p.failedPins.contains pin then p.failedPins else p.failedPins ++ [pin] })
  if !known.isEmpty then s
  else
    let n := s.regF 0 (Reg.hbmRemap (k / 64)) 30 24 + 1
    let s := s.setRegF 0 (Reg.hbmRemap (k / 64)) 30 24 n
    if 2 ≤ n then s.escalateStack (k / 64) else s

/-- MEM_VERIFY (R311): clears UNVERIFIED of the selected functions. -/
def memVerify (s : State) (v : Word) : State :=
  (List.range 17).foldl (fun s j => if v.getLsbD j then s.setRegF j Reg.memState 31 31 0 else s) s

end Sys2Proof.Machine
end

