-- ==== Sys2Proof/Machine/Hull.lean ====
section
/-! DEFINITION. The Hull: lines, sets and tags (R267 to R269), serving requests (R270 to R276), use counts and recency
(R282, R283), victims (R284), the thrash guard (R291), dead lines (R293 to R297), and agent accesses (R275). -/

namespace Sys2Proof.Machine

/-- Slice and set of a device line, as 128 * slice + set (R267). -/
def setOf (line : Nat) : Nat := 128 * (line % 160) + (line / 160) % 128

/-- Tag of a device line (R267). -/
def tagOf (line : Nat) : Nat := line / 20480

/-- The line of a tag in a set. -/
def lineOf (set tag : Nat) : Nat := 20480 * tag + 160 * (set % 128) + set / 128

/-- A set after cold start: every way invalid; AGE w in way w (log entry 7). -/
def freshSet : List Way := (List.range 16).map (fun i => { age := i })

/-- The ways of a set. -/
def State.set (s : State) (k : Nat) : List Way := agetD s.hull.sets k freshSet

/-- Stores the ways of a set. -/
def State.putSet (s : State) (k : Nat) (l : List Way) : State := { s with hull := { s.hull with sets := aput s.hull.sets k l } }

/-- A way that holds a line or is filling (R269). A pinned line stays though no sector of it is valid (R290). -/
def Way.used (w : Way) : Bool := w.valid != 0 || w.filling || w.cls == 3

/-- The way that holds a line. -/
def State.wayOf (s : State) (line : Nat) : Option Nat :=
  (s.set (setOf line)).findIdx? (fun w => w.used && !w.off && w.tag == tagOf line)

/-- The tag entry of a resident line. -/
def State.lineWay (s : State) (line : Nat) : Option Way :=
  (s.wayOf line).bind (fun i => (s.set (setOf line))[i]?)

/-- Updates the tag entry of a resident line. -/
def State.updLine (s : State) (line : Nat) (f : Way → Way) : State :=
  match s.wayOf line with
  | some i => s.putSet (setOf line) (updAt (s.set (setOf line)) i f)
  | none => s

/-- Touching a way (R283): its AGE becomes 0, those below it rise. -/
def touch (l : List Way) (i : Nat) : List Way :=
  let x := ((l[i]?).getD {}).age
  l.mapIdx (fun j w => if j = i then { w with age := 0 } else if w.age < x then { w with age := w.age + 1 } else w)

/-- Demoting a way (R283): its AGE becomes 15, those above it fall. -/
def demote (l : List Way) (i : Nat) : List Way :=
  let x := ((l[i]?).getD {}).age
  l.mapIdx (fun j w => if j = i then { w with age := 15 } else if x < w.age then { w with age := w.age - 1 } else w)

/-- A way emptied: no line, AGE kept. -/
def Way.cleared (w : Way) : Way := { age := w.age, off := w.off }

/-- Writes the dirty sectors of a way back to the Frustum (R284, R275) and forgets nothing else. -/
def State.writeBackSectors (s : State) (line : Nat) (sectors : BitVec 16) : State :=
  (bitsOf sectors).foldl (fun s i =>
    s.toSink { sector := 16 * line + i, mask := fullMask, data := s.hull.data.sector (16 * line + i) }) s

/-- Enters an evicted dead line in its slice's record, dropping the oldest when it is full (R296). -/
def State.recordDead (s : State) (line tenant : Nat) : State :=
  let slice := line % 160
  let l := agetD s.hull.dead slice []
  let (s, l) := match l with
    | [] => (s, l)
    | e :: t => if 512 ≤ l.length then (s.count e.2 Reg.hullDeadCounts 31 16 1, t) else (s, l)
  { s with hull := { s.hull with dead := aput s.hull.dead slice (l ++ [(line, tenant)]) } }

/-- Removes a line from its slice's dead record (R296). -/
def State.unrecord (s : State) (line : Nat) : State :=
  let slice := line % 160
  { s with hull := { s.hull with dead := aput s.hull.dead slice ((agetD s.hull.dead slice []).filter (·.1 != line)) } }

/-- Whether a line is in the dead record. -/
def State.inDeadRecord (s : State) (line : Nat) : Bool := (agetD s.hull.dead (line % 160) []).any (·.1 == line)

/-- Evicts the line of a way (R284): dirty sectors of a live line go to the sink; a dead line enters the record. -/
def State.evict (s : State) (set i : Nat) : State :=
  match (s.set set)[i]? with
  | none => s
  | some w =>
    if w.valid = 0 then s
    else
      let line := lineOf set w.tag
      let s := if w.dead then s.recordDead line w.tenant else s.writeBackSectors line w.dirty
      let s := { s with hull := { s.hull with data := s.hull.data.erase (2048 * line) 2048 } }
      s.putSet set (updAt (s.set set) i Way.cleared)

/-- The quota W of a tenant (R285). -/
def State.quota (s : State) (j : Nat) : Nat := s.regF 0 (Reg.hullQuota j) 4 0

/-- The victim of R284 for tenant `t`; `pinning` lifts the quota restriction (R287). -/
def victim (l : List Way) (t quota : Nat) (pinning : Bool) : Option Nat :=
  let idx := (List.range l.length).filter (fun i =>
    match l[i]? with | some w => !w.off && w.cls != 3 && !w.filling | none => false)
  let own := (l.filter (fun w => w.tenant == t && (w.valid != 0 || w.filling))).length
  let way (i : Nat) : Way := (l[i]?).getD {}
  let cand := if !pinning && quota ≤ own then idx.filter (fun i => (way i).tenant == t) else idx
  match cand.find? (fun i => (way i).valid == 0) with
  | some i => some i
  | none =>
    let oldest (r : List Nat) : Option Nat :=
      r.foldl (fun b i => match b with | none => some i | some k => if (way k).age < (way i).age then some i else b) none
    let r1 := cand.filter (fun i => (way i).dead)
    let r2 := cand.filter (fun i => (way i).cls == 1 && (way i).use == 0)
    let r3 := cand.filter (fun i => (way i).use == 0)
    if !r1.isEmpty then oldest r1 else if !r2.isEmpty then oldest r2 else if !r3.isEmpty then oldest r3 else oldest cand

/-- Whether the sink has room for the victim's dirty sectors (R306). -/
def State.victimRoom (s : State) (set i : Nat) : Bool :=
  match (s.set set)[i]? with
  | none => false
  | some w =>
    let line := lineOf set w.tag
    w.valid == 0 || w.dead || (s.pc (engineOf (16 * line))).roomFor ((bitsOf w.dirty).map (16 * line + ·))

/-- Fill trackers of an engine in use (R279). -/
def State.trackers (s : State) (k : Nat) : Nat := (s.hull.fills.filter (fun f => engineOf (16 * f.line) == k)).length

/-- Whether accepted requests wait on a line (R271, R274). -/
def State.lineWaits (s : State) (line : Nat) : Bool :=
  s.reqs.any (fun q => q.line == line && q.stage == .accepted && !q.bypass)

/-- The ways of a set as a victim is chosen for a request: a line of a lock instruction's other requests, which are served together
with it, keeps its way (R273; log entry 113). -/
def State.waysFor (s : State) (k : Nat) (r : LineReq) : List Way :=
  if r.kind == .acq || r.kind == .rel then
    (s.set k).map (fun w =>
      if w.used && s.reqs.any (fun q => q.token == r.token && q.stage == .accepted && q.line == lineOf k w.tag) then
        { w with filling := true }
      else w)
  else s.set k

/-- Whether a victim's line has accepted requests still to serve: they are answered first, and the victim is claimed after them
(R299). -/
def State.victimWaits (s : State) (set i : Nat) : Bool :=
  match (s.set set)[i]? with
  | none => false
  | some w => w.valid != 0 && s.lineWaits (lineOf set w.tag)

/-- A free tracker for request `id` (R270, R279): the recorded misses of the engine come first. -/
def State.trackerFree (s : State) (line id : Nat) : Bool :=
  let k := engineOf (16 * line)
  let ahead := (s.hull.busy.takeWhile (· != id)).filter (fun r =>
    s.reqs.any (fun q => q.id == r && engineOf (16 * q.line) == k))
  decide (s.trackers k + ahead.length < 32)

/-- Updates a line request. -/
def State.updReq (s : State) (id : Nat) (f : LineReq → LineReq) : State :=
  { s with reqs := s.reqs.map (fun r => if r.id = id then f r else r) }

/-- The line request of a number. -/
def State.req? (s : State) (id : Nat) : Option LineReq := s.reqs.find? (fun r => r.id == id)

/-- The sectors a request needs valid before it is served (R271, R272): a read or atomic all it names, a store those it
enables in part. -/
def LineReq.needs (r : LineReq) : BitVec 16 :=
  match r.kind with
  | .store | .tmStore =>
    BitVec.ofNat 16 ((List.range 16).foldl (fun x i =>
      let n := (((r.bytes.map (·.1)).filter (fun o => o / 128 == i)).dedup).length
      x + (if n != 0 && n != 128 then 2 ^ i else 0)) 0)
  | .hint => 0
  | _ => r.sectors

/-- Whether a request is a read of the thrash guard's rate: loads, TM.LD and atomics (R291). -/
def LineReq.isRead (r : LineReq) : Bool :=
  match r.kind with
  | .store | .tmStore | .hint => false
  | _ => true

/-- Whether a request carries hints that may change class, use count and dead bit: not ACQ and REL (R120). -/
def LineReq.hinted (r : LineReq) : Bool :=
  match r.kind with
  | .acq | .rel => false
  | _ => true

/-- The guard of a tenant. -/
def State.guard (s : State) (j : Nat) : Guard := agetD s.hull.guards j {}

/-- Updates the guard of a tenant. -/
def State.updGuard (s : State) (j : Nat) (f : Guard → Guard) : State :=
  { s with hull := { s.hull with guards := aput s.hull.guards j (f (s.guard j)) } }

/-- Whether a miss of this request bypasses allocation (R291). -/
def State.bypasses (s : State) (r : LineReq) : Bool :=
  (s.guard r.vf).engaged && r.cls == 1 &&
  (match r.kind with | .load | .tmLoad | .store | .tmStore => true | _ => false)

/-- Class and recency of an accepted request on its resident line (R283). -/
def State.classify (s : State) (r : LineReq) : State :=
  match s.wayOf r.line with
  | none => s
  | some i =>
    let l := s.set (setOf r.line)
    match l[i]? with
    | none => s
    | some w =>
      if w.cls = 3 then s
      else
        let l := if r.hinted then updAt l i (fun w => { w with cls := r.cls }) else l
        let keepStore := r.cls == 2 && (match r.kind with | .store | .tmStore => true | _ => false)
        s.putSet (setOf r.line) (if keepStore then demote l i else touch l i)

/-- Starts a fill of the given sectors of a resident line; it holds a tracker (R271, R279). -/
def State.startFill (s : State) (line : Nat) (sectors : BitVec 16) : State :=
  let s := s.updLine line (fun w => { w with filling := true })
  { s with hull := { s.hull with fills := s.hull.fills ++ [{ line := line, sectors := sectors }] } }

/-- The sectors of a line that its fills are still to bring. -/
def State.fillsOf (s : State) (line : Nat) : BitVec 16 :=
  (s.hull.fills.filter (fun f => f.line == line && f.bypass.isNone)).foldl (fun (m : BitVec 16) f => m ||| f.sectors) 0

/-- Claims what a request to a resident line lacks (R270, R271, R279): sectors that no fill of the line brings join a fill the engine
has not read, or start a fill, which takes a tracker. None with no tracker free. -/
def State.claimFill (s : State) (r : LineReq) (w : Way) : Option State :=
  let there := w.valid ||| s.fillsOf r.line
  if r.needs &&& ~~~ there = 0 then some s
  else
    let want := if r.isRead then ~~~ there else r.needs &&& ~~~ there
    let mine (f : Fill) : Bool := f.line == r.line && f.bypass.isNone && !f.read
    if s.hull.fills.any mine then
      some { s with hull := { s.hull with fills := s.hull.fills.map (fun f => if mine f then { f with sectors := f.sectors ||| want } else f) } }
    else if s.trackerFree r.line r.id then some (s.startFill r.line want) else none

/-- Allocates a line in way `i` (R284), FILLING until its first sectors are there (R269). -/
def State.allocate (s : State) (line i tenant use cls : Nat) : State :=
  let k := setOf line
  let s := s.evict k i
  s.putSet k (updAt (s.set k) i (fun w =>
    { w with tag := tagOf line, valid := 0, dirty := 0, tenant, use, cls, dead := false, filling := true }))

/-- The bytes of a served line as a number, and whether a word of them is poisoned. -/
def State.lineRead (s : State) (a n : Nat) : Nat × Bool := (leNat (s.hull.data.fetch a n), s.hull.data.badIn a n)

/-- The value an ATOM operation stores (R119). FADD rounds to nearest even, of which no rule gives a mode (DESIGN CHOICE, log
entry 111). -/
def atomOp (op type w old x c : Nat) : Nat :=
  let m := 2 ^ (8 * w)
  let lt (a b : Nat) : Bool := if type = 1 then decide (signedN (8 * w) a < signedN (8 * w) b) else decide (a < b)
  match op with
  | 0 => (old + x) % m
  | 1 => if lt x old then x else old
  | 2 => if lt old x then x else old
  | 3 => old &&& x
  | 4 => old ||| x
  | 5 => old ^^^ x
  | 6 => x
  | 7 => if old = c then x else old
  | _ => f32.add 0 old x

/-- Applies one lane of an atomic at the slice (R273, R61): the new state and the lane's result. -/
def State.atomLane (s : State) (r : LineReq) (a : LaneAcc) : State × (Nat × BitVec 128 × Bool) :=
  let (old, bad) := s.lineRead a.addr r.width
  if bad then (s, (a.lane, 0, true))
  else
    let x := a.data.toNat % 2 ^ (8 * r.width)
    let put (v : Nat) : State := { s with hull := { s.hull with data := s.hull.data.write a.addr (leBytes r.width v) } }
    match r.kind with
    | .acq =>
      -- `a.data` the owner tag (R66); result 1 acquired, 2 sibling-held, 0 held outside the group (R67)
      if old = 0 then (put x, (a.lane, 1, false))
      else if old / 2 ^ 17 = x / 2 ^ 17 then (s, (a.lane, 2, false))
      else (s, (a.lane, 0, false))
    | .rel =>
      -- result 1 released, 0 the word is not the lane's own tag (R69)
      if old = x then (put 0, (a.lane, 1, false)) else (s, (a.lane, 0, false))
    | _ => (put (atomOp r.op r.type r.width old x (a.cmp.toNat % 2 ^ (8 * r.width))), (a.lane, BitVec.ofNat 128 old, false))

/-- Marks sectors of a resident line dirty after a Facet store or atomic, clearing DEAD (R272, R294). -/
def State.dirtied (s : State) (line : Nat) (sectors : BitVec 16) : State :=
  s.updLine line (fun w => { w with valid := w.valid ||| sectors, dirty := w.dirty ||| sectors, dead := false })

/-- The USE rule of R282 for a served request. -/
def useAfter (r : LineReq) (use : Nat) : Nat :=
  let set := if r.use < 15 then r.use else use
  match r.kind with
  | .load | .tmLoad => if 1 ≤ set ∧ set ≤ 14 then set - 1 else set
  | _ => set

/-- The delta-map bit of the sector that a tenant address lies in (R411); none outside the delta range. -/
def deltaBit (s : State) (j a : Nat) : Option Nat :=
  let base := (s.reg j Reg.deltaBase).toNat * 65536
  let len := s.regF j Reg.deltaCtrl 23 0 * 65536
  if (s.reg j Reg.deltaCtrl).getLsbD 31 && decide (base ≤ a) && decide (a < base + len) then some ((a - base) / 128) else none

/-- One sector of an agent write (R275): valid sectors of a resident line are updated in place, an invalid one covered
whole is overwritten, everything else goes to HBM; a dead line stays dead and its bytes go to HBM as well. -/
def State.agentPut (s : State) (w : SinkWrite) : State :=
  let line := w.sector / 16
  let i := w.sector % 16
  match s.lineWay line with
  | none => s.toSink w
  | some y =>
    if y.valid.getLsbD i || w.mask == fullMask then
      let old := if y.valid.getLsbD i then s.hull.data.sector w.sector else {}
      let s := { s with hull := { s.hull with data := s.hull.data.putSector w.sector (old.merge w.mask w.data) } }
      let bit : BitVec 16 := BitVec.ofNat 16 (2 ^ i)
      if y.dead then (s.updLine line (fun y => { y with valid := y.valid ||| bit })).toSink w
      else s.updLine line (fun y => { y with valid := y.valid ||| bit, dirty := y.dirty ||| bit })
    else s.toSink w

/-- Splits bytes at a device address into sector writes. -/
def sectorWrites (a : Nat) (l : List Byte) (pois : Bool) : List SinkWrite :=
  if l.isEmpty then [] else
  (List.range ((a + l.length - 1) / 128 + 1 - a / 128)).map (fun i =>
    let sector := a / 128 + i
    let lo := max a (128 * sector)
    let hi := min (a + l.length) (128 * sector + 128)
    let part := (l.drop (lo - a)).take (hi - lo)
    { sector
      mask := BitVec.ofNat 128 ((2 ^ (hi - lo) - 1) <<< (lo - 128 * sector))
      data := { data := BitVec.ofNat 1024 (leNat part <<< (8 * (lo - 128 * sector))), pois := if pois then 0xFF else 0 } })

/-- An agent write of bytes at a device address (R275). -/
def State.agentWrite (s : State) (a : Nat) (l : List Byte) : State := (sectorWrites a l false).foldl State.agentPut s

/-- The sector writes of carried words from a 16-byte aligned device address; uncorrectable words are committed poisoned
(R325). -/
def codeWrites (a : Nat) (l : List Code) : List SinkWrite :=
  ((l.zipIdx).map (fun (c, i) =>
    let w := ((a + 16 * i) / 16) % 8
    let d := match verdict (codeMark c) with
      | .clean => (codeData c, false)
      | .fixed f => (codeData c ^^^ f, false)
      | .bad => (0, true)
    ({ sector := (a + 16 * i) / 128, mask := wordMask w
       data := { data := BitVec.ofNat 1024 (d.1.toNat <<< (128 * w)), pois := if d.2 then BitVec.ofNat 8 (2 ^ w) else 0 } } :
      SinkWrite))).foldl coalesce []

/-- An agent write of carried words from a 16-byte aligned device address, sector by sector (R275). -/
def State.agentWriteCodes (s : State) (a : Nat) (l : List Code) : State := (codeWrites a l).foldl State.agentPut s

/-- What a coherent read of a sector returns: the line's sector where valid, else HBM's (R274, R275). -/
def State.coherent (s : State) (sector : Nat) : Sector :=
  match s.lineWay (sector / 16) with
  | some w => if w.valid.getLsbD (sector % 16) then s.hull.data.sector sector else s.hbmSector sector
  | none => s.hbmSector sector

/-- An agent read of the sectors of one line (R275): from the line where every requested sector is valid; otherwise from
HBM, after the dirty sectors it needs are written back. -/
def State.agentLine (s : State) (line : Nat) (sectors : List Nat) : State × List Sector :=
  let fromHbm (s : State) : State × List Sector :=
    let s := sectors.foldl (fun s i => s.cellRead (16 * line + i) []) s
    (s.agentServed (engineOf (16 * line)), sectors.map (fun i => s.hbmSector (16 * line + i)))
  match s.lineWay line with
  | none => fromHbm s
  | some w =>
    if sectors.all (fun i => w.valid.getLsbD i) then (s, sectors.map (fun i => s.hull.data.sector (16 * line + i)))
    else
      let need : BitVec 16 := BitVec.ofNat 16 ((sectors.dedup.map (2 ^ ·)).sum)
      let s := s.writeBackSectors line (w.dirty &&& need)
      let s := s.updLine line (fun w => { w with dirty := w.dirty &&& ~~~ need })
      fromHbm s

/-- Agent reads line by line of the sectors that `n` bytes from `a` touch; each pair gives the sector number and what it
held. -/
def State.agentSectors (s : State) (a n : Nat) : State × List (Nat × Sector) :=
  if n = 0 then (s, []) else
  let first := a / 128
  let count := (a + n - 1) / 128 + 1 - first
  let all := (List.range count).map (first + ·)
  let lines := (all.map (· / 16)).dedup
  lines.foldl (fun (acc : State × List (Nat × Sector)) line =>
    let mine := (all.filter (fun x => x / 16 == line)).map (· % 16)
    let (s, l) := acc.1.agentLine line mine
    (s, acc.2 ++ (mine.zip l).map (fun p => (16 * line + p.1, p.2)))) (s, [])

/-- An agent read of bytes: the state, the bytes (0 in poisoned words), and the device addresses of poisoned words. -/
def State.agentRead (s : State) (a n : Nat) : State × List Byte × List Nat :=
  let (s, l) := s.agentSectors a n
  let bytes := (l.flatMap (fun p => p.2.bytes)).drop (a % 128) |>.take n
  let bad := l.flatMap (fun p => (bitsOf p.2.pois).map (fun w => 128 * p.1 + 16 * w))
  (s, bytes, bad.filter (fun x => decide (a < x + 16) && decide (x < a + n)))

/-- An agent read as carried words, from a 16-byte aligned address. -/
def State.agentCodes (s : State) (a n : Nat) : State × List Code :=
  let (s, l) := s.agentSectors a n
  (s, ((l.flatMap (fun p => p.2.codes)).drop ((a % 128) / 16)).take (n / 16))

/-- The delta-map bits of a tenant for the sectors of its range that tenant addresses touch (R411). -/
def State.markDelta (s : State) (j : Nat) (tas : List Nat) : State :=
  let bits := (tas.filterMap (deltaBit s j)).dedup
  let mapBase := (s.reg j Reg.deltaMap).toNat * 65536
  bits.foldl (fun s i =>
    match s.translate j (mapBase + i / 8) with
    | none => s
    | some d =>
      let old := ((s.coherent (d / 128)).bytes.getD (d % 128) 0).toNat
      s.agentWrite d [BitVec.ofNat 8 (old ||| 2 ^ (i % 8))]) s

/-- The sectors an atomic's lanes wrote: a poisoned word, a failed CAS, and a lock step that stores nothing write none. -/
def LineReq.wrote (r : LineReq) (res : List (Nat × BitVec 128 × Bool)) : BitVec 16 :=
  (r.lanes.zip res).foldl (fun (x : BitVec 16) (p : LaneAcc × Nat × BitVec 128 × Bool) =>
    let hit := !p.2.2.2 && (match r.kind with
      | .atomic => r.op != 7 || p.2.2.1.toNat == p.1.cmp.toNat % 2 ^ (8 * r.width)
      | _ => p.2.2.1 == 1)
    if hit then x ||| BitVec.ofNat 16 (2 ^ (p.1.addr % 2048 / 128)) else x) 0

/-- The bytes of a store go into the line's words, later lanes over earlier ones (R61): a word that they cover whole is formed
afresh, poisoned or not; into another they merge (R239, R324). -/
def LineReq.store (r : LineReq) (d : Ram) : Ram :=
  ((r.bytes.map (fun b => b.1 / 16)).dedup).foldl (fun (d : Ram) w =>
    let mine := r.bytes.filter (fun b => b.1 / 16 == w)
    let whole := (List.range 16).filterMap (fun k => (mine.reverse.find? (fun b => b.1 == 16 * w + k)).map (·.2))
    if whole.length = 16 then d.write (2048 * r.line + 16 * w) whole
    else mine.foldl (fun (d : Ram) b => d.write (2048 * r.line + b.1) [b.2]) d) d

/-- What stops a lock instruction with these lane results (results as `atomLane` gives them): 0 nothing; 1 a REL lane that is no
owner (R69), or lanes to park on a full stack (R65); 2 every lane parked again with no progress (R71). A group that is gone
or stopped parks nothing. -/
def State.lockStop (s : State) (r : LineReq) (res : List (Nat × BitVec 128 × Bool)) : Nat :=
  let lanes (v : Nat) : Word := maskOf (fun l => res.any (fun x => x.1 == l && !x.2.2 && x.2.1.toNat == v))
  if r.kind == .rel then (if lanes 0 = 0 then 0 else 1)
  else
    let parked := lanes 2
    match aget? (s.facet r.f).groups r.slot with
    | none => 0
    | some g =>
      if g.done || parked == 0 || r.op == 0 then 0
      else if parked == g.active &&& ~~~ g.exited && g.resumed == some (g.pc, g.events) then 2
      else if 32 ≤ (g.stack.filter (!·.join)).length then 1
      else 0

/-- Whether a drain still reads: from its acceptance until its last byte is read (log entry 117). -/
def Drain.reading (d : Drain) : Bool := !d.delta.isEmpty || decide (d.next < d.len)

/-- Tenant writes that a drain of their buffer or delta range counts (R261, R411). -/
def State.noteOverlap (s : State) (j : Nat) (tas : List Nat) : State :=
  let deltaIn (a : Nat) : Bool := (deltaBit s j a).isSome
  let hit := s.drains.any (fun d => d.fn == j && d.reading && tas.any (fun a =>
    (decide (d.base ≤ a) && decide (a < d.base + d.len)) || deltaIn a))
  if !hit then s
  else
    let s := { s with drains := s.drains.map (fun (d : Drain) => if d.fn = j then { d with overlap := true } else d) }
    (s.count j Reg.drainStatus 15 0 1).setRegF j Reg.drainStatus 26 26 1

/-- The tenant addresses that a request writes (R261, R411): those of a store, a TM.ST and every lane of an atomic, and of ACQ and
REL those that stored. -/
def LineReq.marks (r : LineReq) : List Nat :=
  match r.kind with
  | .store | .atomic => r.lanes.map (·.taddr)
  | .acq | .rel => (r.lanes.filter (fun a => (r.wrote r.result).getLsbD (a.addr % 2048 / 128))).map (·.taddr)
  | .tmStore => ((r.bytes.map (fun b => b.1 / 128)).dedup).map (fun k => ((r.lanes.head?).map (·.taddr)).getD 0 + 128 * k)
  | _ => []

/-- A request served with its result: a write counts where a drain reads (R261), and the USE rule and the DEAD hint act on its line, DEAD on an unpinned one (R282, R293). -/
def State.finishReq (s : State) (r : LineReq) (res : List (Nat × BitVec 128 × Bool)) : State :=
  let s := (s.noteOverlap r.vf { r with result := res }.marks).updLine r.line (fun w =>
    let w := { w with use := useAfter r w.use }
    if r.dead && r.hinted && w.cls != 3 then { w with dead := true, dirty := 0 } else w)
  s.updReq r.id (fun q => { q with stage := .served, result := res })

/-- Serves the lock requests of one instruction that are served together (R67, R69, R273): the lanes' steps in ascending lane
order, all of them or, where the instruction is stopped by a precise fault, none (R65, R69, R71, R128). -/
def State.serveLocks (s : State) (rs : List LineReq) : State :=
  match rs with
  | [] => s
  | r :: _ =>
    let all := rs.flatMap (·.lanes)
    let lanes := (List.range 32).filterMap (fun l => all.find? (fun a => a.lane == l))
    let out := lanes.foldl (fun (acc : State × List (Nat × BitVec 128 × Bool)) a =>
      let (s, x) := acc.1.atomLane r a
      (s, acc.2 ++ [x])) (s, [])
    let stop := s.lockStop r out.2
    let res := out.2.map (fun x => if x.2.2 then x else (x.1, x.2.1 + BitVec.ofNat 128 (4 * stop), false))
    rs.foldl (fun s q =>
      let mine := q.lanes.filterMap (fun a => res.find? (fun x => x.1 == a.lane))
      -- ACQ and REL leave the dead bit (R120)
      (s.updLine q.line (fun w => { w with dirty := w.dirty ||| q.wrote mine })).finishReq q mine)
      (if stop = 0 then out.1 else s)

/-- Serves an accepted request from its resident line (R271 to R273): data or atomic results are taken, stored bytes go in,
and the hints act (R282, R293). -/
def State.serve (s : State) (r : LineReq) : State :=
  let base := 2048 * r.line
  let done (s : State) (res : List (Nat × BitVec 128 × Bool)) : State := s.finishReq r res
  match r.kind with
  | .load =>
    done s (r.lanes.map (fun a =>
      let x := s.lineRead a.addr r.width
      (a.lane, BitVec.ofNat 128 x.1, x.2)))
  | .tmLoad =>
    done s ((List.range 128).filterMap (fun i =>
      if r.sectors.getLsbD (i / 8) then
        some (i, (s.hull.data.decode (base / 16 + i)).getD 0, s.hull.data.bad (base / 16 + i))
      else none))
  | .store | .tmStore =>
    let data := r.store s.hull.data
    let data := r.pois.foldl (fun (d : Ram) i => d.poison (base / 16 + i)) data
    let s := { s with hull := { s.hull with data := data } }
    done (s.dirtied r.line r.sectors) []
  | .hint => done s []
  | .acq | .rel => s.serveLocks [r]
  | .atomic =>
    let (s, res) := r.lanes.foldl (fun (acc : State × List (Nat × BitVec 128 × Bool)) a =>
      let (s, x) := acc.1.atomLane r a
      (s, acc.2 ++ [x])) (s, [])
    done (s.dirtied r.line (r.wrote res)) res

/-- The first accepted, unserved request of a line, in acceptance order (R274). -/
def State.headOf (s : State) (line : Nat) : Option LineReq :=
  s.reqs.find? (fun r => r.line == line && r.stage == .accepted && !r.bypass)

/-- Whether a lock request is served together with those of its instruction to other lines. -/
def LineReq.late (r : LineReq) : Bool := (r.kind == .acq || r.kind == .rel) && r.op != 0

/-- The requests of a lock instruction that is served together. -/
def State.siblings (s : State) (r : LineReq) : List LineReq := s.reqs.filter (fun q => q.late && q.token == r.token)

/-- Whether every request of such an instruction is the next of its line and finds its sectors there. -/
def State.lateReady (s : State) (r : LineReq) : Bool :=
  (s.siblings r).all (fun q =>
    ((s.headOf q.line).map (·.id)) == some q.id &&
    (match s.lineWay q.line with | some w => q.needs &&& ~~~ w.valid == 0 | none => false))

/-- Serves the accepted requests of a line in order while their sectors are valid; one that lacks sectors no fill brings starts a
fill (R271, R274). -/
def State.serveLine (s : State) (line : Nat) : Nat → State
  | 0 => s
  | n + 1 =>
    match s.headOf line, s.lineWay line with
    | some r, some w =>
      if r.needs &&& ~~~ w.valid = 0 then
        if !r.late then State.serveLine (s.serve r) line n
        else if s.lateReady r then State.serveLine (s.serveLocks (s.siblings r)) line n
        else s
      else (s.claimFill r w).getD s
    | _, _ => s

/-- Serves what a line's accepted requests and its new sectors allow; a lock instruction served with others of its lines lets
those lines go on too. -/
def State.serveLines (s : State) (line : Nat) : State :=
  let n := s.reqs.length + 1
  let lines := (((s.reqs.filter (·.late)).map (·.line))).dedup
  if lines.contains line then
    (List.range n).foldl (fun s _ => lines.foldl (fun s l => s.serveLine l n) s) (s.serveLine line n)
  else s.serveLine line n

/-- The order of acceptance is the order of `reqs`: an accepted request moves to the end. -/
def State.acceptReq (s : State) (id : Nat) (f : LineReq → LineReq) : State :=
  match s.req? id with
  | none => s
  | some r =>
    let s := { s with reqs := s.reqs.filter (fun (q : LineReq) => q.id != id) ++ [f { r with stage := .accepted }] }
    { s with hull := { s.hull with busy := s.hull.busy.filter (· != id) } }

/-- Answers HULL_BUSY: recorded, up to 64 per slice and pseudo-channel, with no other effect (R270). -/
def State.answerBusy (s : State) (r : LineReq) : State :=
  let s := s.updReq r.id (fun q => { q with stage := .busy })
  let same := s.hull.busy.filter (fun x => s.reqs.any (fun q =>
    q.id == x && q.line % 160 == r.line % 160 && engineOf (16 * q.line) == engineOf (16 * r.line)))
  if s.hull.busy.contains r.id || 64 ≤ same.length then s
  else { s with hull := { s.hull with busy := s.hull.busy ++ [r.id] } }

/-- A tag entry with an uncorrectable error (R298): the way is disabled, its line discarded, every enabled tenant flagged.
Requests that waited on its fill are presented again. -/
def State.tagUe (s : State) (set i : Nat) : State :=
  match (s.set set)[i]? with
  | none => s
  | some w =>
    if w.off then s
    else
      let line := lineOf set w.tag
      let s := if w.used then
          { s with
            hull := { s.hull with data := s.hull.data.erase (2048 * line) 2048
                                  fills := s.hull.fills.filter (fun f => f.line != line || f.bypass.isSome) }
            reqs := s.reqs.map (fun r =>
              if r.stage = .accepted ∧ !r.bypass ∧ (r.line = line ∨
                  (r.late ∧ s.reqs.any (fun q => q.late && q.token == r.token && q.line == line))) then
                { r with stage := .busy }
              else r) }
        else s
      let s := s.putSet set (updAt (s.set set) i (fun w => { w.cleared with off := true }))
      (s.dropAll 6).count 0 Reg.hullHealth 15 0 1

/-- The tag error a lookup meets: 1 a corrected entry, 2 an uncorrectable one (R298). -/
def State.tagError (s : State) (set tag way : Nat) : State :=
  match tag with
  | 1 => s.count 0 Reg.hullHealth 31 16 1
  | 2 => s.tagUe set way
  | _ => s

/-- The host-held 64-byte lines of a 2,048-byte line (R385). -/
def State.heldOf (s : State) (line : Nat) : List Nat := s.hull.held.filter (fun h => h / 32 == line)

/-- Sends the back-invalidates a request waits for (R385); the request is accepted once none is outstanding. `none`: the
way is clear. -/
def State.snoop (s : State) (line : Nat) (write : Bool) : Option State :=
  if !s.hcLine line then none
  else
    let h := s.heldOf line
    if h.isEmpty && !(s.hull.snoops.any (fun x => x / 32 == line)) then none
    else
      let new := h.filter (fun x => !s.hull.snoops.contains x)
      some { s with hull := { s.hull with snoops := s.hull.snoops ++ new }
                    out := { s.out with snoops := (new.map (fun x => (x, write))).reverse ++ s.out.snoops } }

/-- Counts a read for the thrash guard (R291). -/
def State.guardCount (s : State) (r : LineReq) (hit : Bool) : State :=
  if r.isRead then s.updGuard r.vf (fun g => { g with requests := g.requests + 1, hits := g.hits + (if hit then 1 else 0) })
  else s

/-- A miss on a line of the dead record (R296): a counted re-read, or an entry a store removes. -/
def State.deadMiss (s : State) (r : LineReq) : State :=
  if !s.inDeadRecord r.line then s
  else match r.kind with
    | .hint => s
    | .store | .tmStore => s.unrecord r.line
    | _ =>
      let s := (s.unrecord r.line).count r.vf Reg.hullDeadCounts 15 0 1
      if r.kind == .load && (s.reg r.vf Reg.hullOptions).getLsbD 0 then s.updReq r.id (fun q => { q with reread := true }) else s

/-- The result of a bypassed read (R291), from HBM's bytes as they stand at its acceptance (R274). -/
def State.bypassResult (s : State) (r : LineReq) : State :=
  let m := (bitsOf r.sectors).foldl (fun (m : Ram) i => m.putSector (16 * r.line + i) (s.hbmSector (16 * r.line + i))) {}
  let res := match r.kind with
    | .tmLoad => (List.range 128).filterMap (fun i =>
        if r.sectors.getLsbD (i / 8) then some (i, (m.decode (128 * r.line + i)).getD 0, m.bad (128 * r.line + i)) else none)
    | _ => r.lanes.map (fun a => (a.lane, BitVec.ofNat 128 (leNat (m.fetch a.addr r.width)), m.badIn a.addr r.width))
  s.updReq r.id (fun q => { q with result := res })

/-- Whether a request writes its line: it calls back what the host holds of it, a read that may be shared too, a HINT nothing
(R280, R385). -/
def LineReq.writes (r : LineReq) : Bool := match r.kind with | .load | .tmLoad | .hint => false | _ => true

/-- Presents a request to its slice (R270): accepted as a hit or a claimed miss, or answered HULL_BUSY. A HINT to a resident line
takes its place in the line's order (R117, R274). -/
def State.present (s : State) (r : LineReq) : State :=
  let line := r.line
  match if r.kind == .hint then none else s.snoop line r.writes with
  | some s => s
  | none =>
    match s.lineWay line with
    | some w =>
      match s.claimFill r w with
      | none => s.answerBusy r
      | some s =>
        let s := if w.cls = 3 then s else s.guardCount r true
        -- a store to a line of the dead record, brought back by a pin, removes its entry (R296)
        let s := match r.kind with | .store | .tmStore => (if s.inDeadRecord line then s.unrecord line else s) | _ => s
        ((s.acceptReq r.id id).classify r).serveLines line
    | none =>
      if r.kind == .hint then (s.acceptReq r.id id).updReq r.id (fun q => { q with stage := .served })
      else if s.bypasses r then
        if r.isRead then
          if !s.trackerFree line r.id then s.answerBusy r
          else
            let s := (s.guardCount r false).deadMiss r
            let s := (s.acceptReq r.id (fun q => { q with bypass := true })).bypassResult r
            { s with hull := { s.hull with fills := s.hull.fills ++ [{ line := line, sectors := r.sectors, bypass := some r.id }] } }
        else if !(s.pc (engineOf (16 * line))).roomFor ((bitsOf r.sectors).map (16 * line + ·)) then s.answerBusy r
        else
          let s := ((s.noteOverlap r.vf r.marks).deadMiss r).acceptReq r.id (fun q => { q with stage := .served })
          let s := r.bytes.foldl (fun s b => s.toSink
            { sector := (2048 * line + b.1) / 128, mask := BitVec.ofNat 128 (2 ^ (b.1 % 128))
              data := { data := BitVec.ofNat 1024 (b.2.toNat <<< (8 * (b.1 % 128))) } }) s
          r.pois.foldl (fun s i => s.toSink
            { sector := 16 * line + i / 8, mask := wordMask (i % 8), data := { pois := BitVec.ofNat 8 (2 ^ (i % 8)) } }) s
      else
        match victim (s.waysFor (setOf line) r) r.vf (s.quota r.vf) false with
        | none => s.answerBusy r
        | some i =>
          if s.victimWaits (setOf line) i then s
          else if !s.victimRoom (setOf line) i || !s.trackerFree line r.id then s.answerBusy r
          else
            let s := (s.guardCount r false).deadMiss r
            let s := s.allocate line i r.vf r.use (if r.hinted then r.cls else 0)
            -- a store that enables whole sectors only reads nothing (R272)
            let s := if r.isRead then s.startFill line 0xFFFF else if r.needs = 0 then s else s.startFill line r.needs
            let s := ((s.acceptReq r.id id).classify r).serveLines line
            if r.isRead || r.needs != 0 then s else s.updLine line (fun w => { w with filling := false })

/-- Presents a request, or those of a lock instruction that are served together: all of them are accepted, or none (R270,
R273; DEDUCED, log entry 113). Those of them that miss and cannot claim what they need are answered HULL_BUSY. -/
def State.presentAll (s : State) (r : LineReq) : State :=
  if !r.late then s.present r
  else
    let rs := (s.siblings r).filter (fun q => q.stage == .formed || q.stage == .busy)
    let t := rs.foldl (fun s q => s.present q) s
    if rs.all (fun q => ((t.req? q.id).map (fun x => x.stage == .accepted || x.stage == .served)).getD false) then t
    else if rs.any (fun q => (s.snoop q.line true).isSome) then
      rs.foldl (fun s q => (s.snoop q.line true).getD s) s
    else rs.foldl (fun s q => if ((t.req? q.id).map (·.stage)) == some .busy then s.answerBusy q else s) s

/-- Whether an earlier request of the same Facet to the same slice has not been presented yet (R274), or an earlier one of
the same group to the same line has not been accepted (R118). -/
def State.behind (s : State) (r : LineReq) : Bool :=
  s.reqs.any (fun q => q.f == r.f && decide (q.id < r.id) &&
    ((q.line % 160 == r.line % 160 && q.stage == .formed) || (q.line == r.line && q.slot == r.slot && q.stage == .busy)))

/-- HULL_REQUEST_ACCEPT (R270); a slice whose island is gated takes nothing (R453). -/
def hullRequestAccept (s : State) (id tag way : Nat) : State :=
  match s.req? id with
  | none => s
  | some r =>
    if r.stage != .formed || !s.hullClocked r.line || s.behind r || (r.late && (s.siblings r).any s.behind) then s
    else (s.tagError (setOf r.line) tag way).presentAll r

/-- HULL_REPRESENT (R270): a request answered HULL_BUSY is presented again. -/
def hullRepresent (s : State) (id : Nat) : State :=
  match s.req? id with
  | none => s
  | some r => if r.stage != .busy || !s.hullClocked r.line || s.behind r || (r.late && (s.siblings r).any s.behind) then s else s.presentAll r

/-- FILL_SECTOR_ARRIVAL (R271): a sector the engine has read reaches the line, and waiting requests go on. A sector with
an accumulate ahead of it in the queue follows it (R276, R318). -/
def fillSectorArrival (s : State) (line sector : Nat) : State :=
  match s.hull.fills.find? (fun f => f.line == line && f.read && f.sectors.getLsbD sector) with
  | none => s
  | some f =>
    if !s.hullClocked line || (s.pc (engineOf (16 * line))).nma.any (fun n => n.addr / 128 == 16 * line + sector) then s else
    let rest := f.sectors &&& ~~~ (BitVec.ofNat 16 (2 ^ sector))
    let fills (x : Fill) : List Fill :=
      s.hull.fills.filterMap (fun y => if y = f then (if rest = 0 then none else some x) else some y)
    let s := { s with hull := { s.hull with fills := fills { f with sectors := rest } } }
    match f.bypass with
    | some id => if rest = 0 then s.updReq id (fun q => { q with stage := .served }) else s
    | none =>
      match s.lineWay line with
      | none => s
      | some w =>
        let n := 16 * line + sector
        let s := if w.valid.getLsbD sector then s
          else
            let s := { s with hull := { s.hull with data := s.hull.data.putSector n (s.hbmSector n) } }
            s.updLine line (fun w => { w with valid := w.valid ||| BitVec.ofNat 16 (2 ^ sector) })
        let s := if s.fillsOf line = 0 then s.updLine line (fun w => { w with filling := false }) else s
        s.serveLines line

/-- The sectors of a write by an agent of `n` bytes at a device address that go to the write sink (R275). -/
def State.sunkSectors (s : State) (d n : Nat) : List Nat :=
  ((List.range ((d + n - 1) / 128 + 1 - d / 128)).map (d / 128 + ·)).filter (fun k =>
    match s.lineWay (k / 16) with
    | none => true
    | some w => w.dead || !(w.valid.getLsbD (k % 16) || (decide (d ≤ 128 * k) && decide (128 * k + 128 ≤ d + n))))

/-- The sectors of a read by an agent that come from HBM (R275). -/
def State.hbmSectors (s : State) (d n : Nat) : List Nat :=
  let all := (List.range ((d + n - 1) / 128 + 1 - d / 128)).map (d / 128 + ·)
  let whole (line : Nat) : Bool := match s.lineWay line with
    | none => false
    | some w => all.all (fun k => k / 16 != line || w.valid.getLsbD (k % 16))
  all.filter (fun k => !whole (k / 16))

/-- Whether an agent's access to `n` bytes from a device address waits at its source: HBM is not trained (R494), a gated slice takes nothing (R453), accepted
requests of a line come first (R274), a write needs room in the sinks (R306), and a read of HBM a service window (R307). -/
def State.agentHeld (s : State) (d n : Nat) (write : Bool) : Bool :=
  !s.hbm.trained ||
  (List.range ((d + n - 1) / 2048 + 1 - d / 2048)).any (fun i =>
    !s.hullClocked (d / 2048 + i) || s.lineWaits (d / 2048 + i)) ||
  (if write then
     let ks := s.sunkSectors d n
     (ks.map engineOf).dedup.any (fun e => !(s.pc e).roomFor (ks.filter (fun k => engineOf k == e)))
   else (s.hbmSectors d n).any (fun k => !s.inService (engineOf k)))

/-- An access that the host's copies do not hold back: `none` when it may run now; otherwise a read waits for its service window
(R307). -/
def State.agentTurn (s : State) (d n : Nat) (write : Bool) : Option State :=
  if !s.agentHeld d n write then none
  else if write then some s
  else some (((s.hbmSectors d n).map engineOf).dedup.foldl (fun s e =>
    if s.inService e then s else s.updPc e (fun p => { p with agentAt := some (p.agentAt.getD s.now) })) s)

/-- An agent's access: `none` when it may run now; otherwise what it does meanwhile: it sends the back-invalidates it waits for
(R385), or waits its turn. -/
def State.agentGate (s : State) (d n : Nat) (write : Bool) : Option State :=
  if n = 0 then none
  else
    let asked := (List.range ((d + n - 1) / 2048 + 1 - d / 2048)).foldl (fun (acc : State × Bool) i =>
      match acc.1.snoop (d / 2048 + i) write with
      | some s => (s, true)
      | none => acc) (s, false)
    if asked.2 then some asked.1 else s.agentTurn d n write

/-- AGENT_READ of R275 on behalf of an agent that the table gives no other row: what it returns is the answer of
interface 2. Lines the host holds are called back first (R385). -/
def agentReadRow (s : State) (a n : Nat) : State :=
  match s.agentGate a n false with
  | some s => s
  | none =>
    let (s, l, _) := s.agentRead a n
    s.answer 2 a l

/-- AGENT_WRITE of R275. -/
def agentWriteRow (s : State) (a : Nat) (l : List Byte) : State :=
  match s.agentGate a l.length true with
  | some s => s
  | none => s.agentWrite a l

/-- TG_PERIOD_END for tenant `j` (R291, R292). -/
def tgPeriodEnd (s : State) (j : Nat) : State :=
  let g := s.guard j
  let cfg := s.reg 0 (Reg.hullTgCfg j)
  let thresh := field g.cfg 23 16
  let hyst := field g.cfg 15 8
  let window := max 1 (field g.cfg 7 0)
  let fresh (g : Guard) : Guard := { g with hits := 0, requests := 0, cfg := cfg }
  if !g.cfg.getLsbD 31 then s.updGuard j (fun g => { fresh g with run := 0, engaged := false })
  else if g.requests < 256 then s.updGuard j fresh
  else
    let low := decide (g.hits * 256 < thresh * g.requests)
    let high := decide (min 256 (thresh + hyst) * g.requests ≤ g.hits * 256)
    let run := if low then g.run + 1 else 0
    if g.engaged then
      let s := s.updGuard j (fun g => { fresh g with run := if high then 0 else run, engaged := !high })
      if high then s.setRegF j Reg.hullTgStatus 31 31 0 else s
    else if window ≤ run then
      let s := s.updGuard j (fun g => { fresh g with run := run, engaged := true })
      let s := (s.setRegF j Reg.hullTgStatus 31 31 1).count j Reg.hullTgStatus 15 0 1
      let s := s.count j Reg.policyClamp 15 0 1
      (s.setRegF j Reg.policyClamp 31 24 4).trace 0x0041 0 j []
    else s.updGuard j (fun g => { fresh g with run := run })

end Sys2Proof.Machine
end

