-- ==== Sys2Proof/Machine/Mem.lean ====
section
/-! DEFINITION. The memory class (R114 to R117), ATOM (R119), ACQ and REL (R66 to R71, R120) and FENCE (R118): what they do
at issue, and what a group takes from its line requests. -/

namespace Sys2Proof.Machine

/-- The address operand of format M (R114): an even register pair, or u(A) and u(A+1). -/
def addrOp (i : Ins) : Reg? := { uniform := i.w0.getLsbD 4, rlx := false, n := i.a, span := 2 }

/-- The encoding rule of the address operand (R101, R102, R114). -/
def addrLegal (i : Ins) : Bool := if i.w0.getLsbD 4 then decide (i.a ≤ 62) else i.a % 2 == 0

/-- WIDTH in bytes (R114). -/
def widthOf (i : Ins) : Nat := 2 ^ i.ext3

/-- CLS, DEAD (R114). -/
def clsOf (i : Ins) : Nat := field i.w0 7 6
def deadOf (i : Ins) : Bool := i.w0.getLsbD 5

/-- A vector register operand of format M: UMASK has no place there, RLX applies to D only (R114). -/
def dataOp (i : Ins) (n span : Nat) (isD : Bool) : Reg? := { uniform := false, rlx := isD && i.rlx, n := n, span := span }

/-- Registers of an access width (R114). -/
def spanOf (w : Nat) : Nat := max 1 (w / 4)

/-- The register number a lane access carries: a Ralelle register n is 1000 + n. -/
def regCode (r : Reg?) : Nat := if r.rlx then 1000 + r.n else r.n

/-- The operand of a register number of a lane access. -/
def regAt (n span : Nat) : Reg? := { uniform := false, rlx := decide (1000 ≤ n), n := n % 1000, span := span }

/-- A lane's address (R115). -/
def laneAddr (s : State) (f : Nat) (g : Group) (i : Ins) (off : Int) (lane : Nat) : Nat :=
  ((readOp s f g (addrOp i) lane + off) % 2 ^ 64).toNat

/-- The address checks of R115 over lanes: the fault with the lowest code, its lanes and the lowest lane's address. -/
def addrCheck (s : State) (j w : Nat) (addrs : List (Nat × Nat)) : Option (Nat × Word × Nat) :=
  let mis := addrs.filter (fun e => e.2 % w != 0)
  let out := addrs.filter (fun e => decide (2 ^ 48 ≤ e.2) || (s.translate j e.2).isNone)
  let mk (code : Nat) (l : List (Nat × Nat)) : Nat × Word × Nat :=
    (code, maskOf (fun k => l.any (·.1 == k)), (l.head?.map (·.2)).getD 0)
  if !mis.isEmpty then some (mk 12 mis) else if !out.isEmpty then some (mk 13 out) else none

/-- Line-request slots in use on a Facet: all, and those of groups (R62). -/
def State.slotsUsed (s : State) (f : Nat) : Nat × Nat :=
  let mine := s.reqs.filter (fun (r : LineReq) => r.f == f)
  (mine.length, (mine.filter (fun (r : LineReq) => match r.kind with | .tmLoad | .tmStore => false | _ => true)).length)

/-- Whether `d` group requests find slots (R62, R63). -/
def State.slotsFor (s : State) (f d : Nat) : Bool :=
  decide ((s.slotsUsed f).2 + d ≤ 224) && decide ((s.slotsUsed f).1 + d ≤ 256)

/-- The lines of lane accesses, in ascending order of the lowest lane that touches each (R60). -/
def linesOf (accs : List LaneAcc) : List Nat := distinct (accs.map (fun a => a.addr / 2048))

/-- Forms one request for each line (R59, R60); `t` carries what all of them share. -/
def State.formReqs (s : State) (t : LineReq) (accs : List LaneAcc) : State :=
  (linesOf accs).foldl (fun s line =>
    let mine := accs.filter (fun a => a.addr / 2048 == line)
    let sectors := mine.foldl (fun (m : BitVec 16) a => m ||| BitVec.ofNat 16 (2 ^ (a.addr % 2048 / 128))) 0
    let bytes := if t.kind == .store then
        mine.flatMap (fun a => (leBytes t.width a.data.toNat).mapIdx (fun k b => (a.addr % 2048 + k, b)))
      else []
    let r : LineReq := { t with id := s.nextId, line := line, sectors := sectors, lanes := mine, bytes := bytes }
    { s with nextId := s.nextId + 1, reqs := s.reqs ++ [r] }) s

/-- What a memory instruction reads, writes and asks of the Hull. -/
structure MemShape where
  kind : ReqKind
  width : Nat
  off : Int
  dest : Option Reg? := none       -- register written
  data : Option Reg? := none       -- operand, or store data
  cmp : Option Reg? := none        -- CAS compare value
  signed : Bool := false
  op : Nat := 0
  use : Nat := 15
  cls : Nat := 0
  dead : Bool := false
  deriving DecidableEq, Repr

/-- The register operands of a shape besides the address. -/
def MemShape.regs (h : MemShape) : List Reg? := h.dest.toList ++ h.data.toList ++ h.cmp.toList

/-- The lane accesses of an instruction. -/
def MemShape.accs (h : MemShape) (s : State) (f : Nat) (g : Group) (addrs : List (Nat × Nat)) : List LaneAcc :=
  addrs.map (fun e =>
    { lane := e.1, addr := (s.translate g.vf e.2).getD 0, taddr := e.2
      reg := (h.dest.map regCode).getD 255
      data := BitVec.ofNat 128 ((h.data.map (fun r => readOp s f g r e.1)).getD 0 % 2 ^ (8 * h.width))
      cmp := BitVec.ofNat 64 ((h.cmp.map (fun r => readOp s f g r e.1)).getD 0) })

/-- The owner tag of R66. -/
def ownerTag (facet slot lane : Nat) : Nat := 2 ^ 31 + facet * 2 ^ 23 + slot * 2 ^ 17 + lane * 2 ^ 12

/-- The instruction-level checks of a memory instruction: illegal encodings (4), register range (5). An ATOM whose D is 255
discards its result, whatever its width (R119). -/
def MemShape.checks (h : MemShape) (s : State) (g : Group) (i : Ins) (own : Bool) : Option Nat :=
  let discarded (r : Reg?) : Bool := h.kind == .atomic && !r.rlx && r.n == 255
  let sources := h.data.toList ++ h.cmp.toList
  if !(own && addrLegal i && (!i.rlx || s.ralelle g) &&
      h.dest.all (fun r => r.legal || discarded r) && sources.all Reg?.legal) then some 4
  else if !((addrOp i :: sources).all (Reg?.inRange · (s.topReg g)) &&
      h.dest.all (fun r => r.inRange (s.topReg g) || discarded r)) then some 5
  else none

/-- Checks a memory instruction, in the order of R116, and forms its requests. HINT makes the same address checks as LD and ST,
of which R115 lists them (DESIGN CHOICE, log entry 112). -/
def runMem (f slot : Nat) (h : MemShape) (own : Bool) (s : State) (g : Group) (i : Ins) : Issue :=
  match h.checks s g i own with
  | some c => .fault c g.live 0
  | none =>
    let lanes := bitsOf (g.lanes i)
    if lanes.isEmpty then .done s (g.next i)
    else
      let addrs := lanes.map (fun l => (l, laneAddr s f g i h.off l))
      match addrCheck s g.vf h.width addrs with
      | some (c, m, a) => .fault c m a
      | none =>
        let accs := h.accs s f g addrs
        if rlxHeld s f slot i || !s.slotsFor f (linesOf accs).length then .hold
        else
          let (s, token) := s.fresh
          let t : LineReq :=
            { id := 0, f := f, slot := slot, vf := g.vf, launch := g.launch, kind := h.kind, line := 0, sectors := 0
              lanes := [], bytes := [], pois := [], width := h.width, signed := h.signed, op := h.op, type := i.type
              use := h.use, cls := h.cls, dead := h.dead, token := token }
          let g := match h.dest with
            | none => g
            | some r =>
              let w : PendWrite := { token := token, vregs := r.vregs, uregs := [], traps := true, lanes := g.lanes i }
              { g with writes := w :: g.writes }
          .done ((s.takePort f slot g i (h.data.toList ++ h.cmp.toList) []).formReqs t accs) (g.next i)

/-- Source and destination registers of a memory instruction for R104 and R127. -/
def memSets (h : Ins → MemShape) : (Ins → List Nat × List Nat) × (Ins → List Nat × List Nat) :=
  (fun i => regSets (addrOp i :: ((h i).data.toList ++ (h i).cmp.toList)), fun i => regSets (h i).dest.toList)

/-- Issues a memory instruction with opcode `op`. -/
def issueMem (s : State) (f slot op : Nat) (h : Ins → MemShape) (own : Ins → Bool) : State :=
  s.issue f slot (fun i => i.op == op && i.fmt == 2) (memSets h).1 (memSets h).2 false
    (fun s g i => runMem f slot (h i) (own i) s g i)

/-- The encoding rules of LD, LDS, ST and HINT (R114). -/
def ownMem (i : Ins) : Bool := i.type == 0 && decide (clsOf i ≤ 2) && decide (i.ext3 ≤ 4)

/-- The shape of LD, LDS, ST and HINT. -/
def memShape (kind : ReqKind) (load store signed : Bool) (i : Ins) : MemShape :=
  let d := dataOp i i.d (spanOf (widthOf i)) true
  { kind := kind, width := widthOf i, off := signedN 16 i.imm, dest := if load then some d else none
    data := if store then some d else none, signed := signed, use := i.mod, cls := clsOf i, dead := deadOf i }

def execLd (f slot : Nat) (s : State) : Out := .next (issueMem s f slot 0x60 (memShape .load true false false) ownMem)
def execLds (f slot : Nat) (s : State) : Out := .next (issueMem s f slot 0x61 (memShape .load true false true) ownMem)
def execSt (f slot : Nat) (s : State) : Out := .next (issueMem s f slot 0x62 (memShape .store false true false) ownMem)

/-- HINT (R115): no data; D shall be 0. -/
def execHint (f slot : Nat) (s : State) : Out :=
  .next (issueMem s f slot 0x63 (memShape .hint false false false) (fun i => ownMem i && i.d == 0))

/-- The shape of ATOM (R119): S in [23:16], the compare register of CAS in [15:8]. -/
def atomShape (i : Ins) : MemShape :=
  let n := spanOf (widthOf i)
  { kind := .atomic, width := widthOf i, off := 0, dest := some (dataOp i i.d n true), data := some (dataOp i i.b n false)
    cmp := if i.mod = 7 then some (dataOp i i.c n false) else none, op := i.mod, cls := clsOf i, dead := deadOf i }

/-- The encoding rules of ATOM (R119). -/
def ownAtom (i : Ins) : Bool :=
  decide (i.mod ≤ 8) && (if i.mod = 8 then i.type == 2 else decide (i.type ≤ 1)) && decide (clsOf i ≤ 2) &&
  (i.ext3 == 2 || (i.ext3 == 3 && (i.mod == 0 || i.mod == 6 || i.mod == 7))) && (i.mod == 7 || i.c == 0)

def execAtom (f slot : Nat) (s : State) : Out := .next (issueMem s f slot 0x70 atomShape ownAtom)

/-- The absolute reconvergence offset of a signed 8-byte offset (R120, R121). -/
def codeOffset (g : Group) (x : Nat) : Int := (g.pc : Int) + 8 * signedN 16 x

/-- An offset as a number; a negative one stands beyond every code store. -/
def offsetNat (x : Int) : Nat := if x < 0 then 2 ^ 60 else x.toNat

/-- Checks ACQ or REL and forms its requests (R120). The steps of all its lines are made together at the slices,
where the instruction may still raise a precise fault: an ACQ on a full stack (R65) or by lanes just resumed (R71), a REL
over several lines (R69). -/
def runLock (f slot : Nat) (acquire own : Bool) (s : State) (g : Group) (i : Ins) : Issue :=
  let h : MemShape := { kind := if acquire then .acq else .rel, width := 4, off := 0 }
  match h.checks s g i own with
  | some c => .fault c g.live 0
  | none =>
    let lanes := bitsOf (g.lanes i)
    if lanes.isEmpty then .done s (g.next i)
    else
      let addrs := lanes.map (fun l => (l, laneAddr s f g i 0 l))
      match addrCheck s g.vf 4 addrs with
      | some (c, m, a) => .fault c m a
      | none =>
        let accs := (h.accs s f g addrs).map (fun a =>
          { a with data := BitVec.ofNat 128 (ownerTag (s.logicalOf g.vf f) slot a.lane) })
        let n := (linesOf accs).length
        if !s.slotsFor f n then .hold
        else
          let late := if acquire then decide (32 ≤ g.depth) || g.resumed == some (g.pc, g.events) else decide (1 < n)
          let (s, token) := s.fresh
          let t : LineReq :=
            { id := 0, f := f, slot := slot, vf := g.vf, launch := g.launch, kind := h.kind, line := 0, sectors := 0
              lanes := [], bytes := [], pois := [], width := 4, signed := false, op := if late then 1 else 0, type := 0
              use := 15, cls := 0, dead := false, token := token }
          let k : LockOp :=
            { acquire := acquire, late := late, rcv := offsetNat (codeOffset g i.imm), dest := i.d % 8, lanes := g.lanes i
              accs := accs, got := 0, sibling := 0, wrong := 0, pois := [], left := n }
          .done (s.formReqs t accs) { g with wait := .lock, lock := some k }

/-- The encoding rules ACQ and REL share (R120): WIDTH 2, no TYPE, USE, hint or Ralelle bit. -/
def ownLock (i : Ins) : Bool := i.type == 0 && i.mod == 0 && i.ext3 == 2 && !i.rlx && i.ext / 32 == 0

def execAcq (f slot : Nat) (s : State) : Out :=
  .next (s.issue f slot (fun i => i.op == 0x71 && i.fmt == 2) (fun i => regSets [addrOp i]) (fun _ => ([], [])) false
    (fun s g i => runLock f slot true (ownLock i && decide (i.d < 8)) s g i))

def execRel (f slot : Nat) (s : State) : Out :=
  .next (s.issue f slot (fun i => i.op == 0x72 && i.fmt == 2) (fun i => regSets [addrOp i]) (fun _ => ([], [])) false
    (fun s g i => runLock f slot false (ownLock i && i.d == 0 && i.imm == 0) s g i))

/-- FENCE (R118). -/
def execFence (f slot : Nat) (s : State) : Out :=
  .next (s.issue f slot (fun i => i.op == 0x73 && i.fmt == 0) (fun _ => ([], [])) (fun _ => ([], [])) true
    (fun s g i =>
      if field i.w0 47 0 != 0 then .fault 4 g.live 0
      else if g.lanes i = 0 then .done s (g.next i)
      else if s.storesOut f slot g.launch then .hold else .done s (g.next i)))

/-- Sign- or zero-extension below four bytes (R115). -/
def extendLoad (width : Nat) (signed : Bool) (x : Nat) : Nat :=
  if signed && width < 4 then (signedN (8 * width) x % 2 ^ 32).toNat else x

/-- Removes a line request. -/
def State.dropReq (s : State) (id : Nat) : State := { s with reqs := s.reqs.filter (fun (r : LineReq) => r.id != id) }

/-- Whether other requests of the same instruction are outstanding. -/
def State.tokenOut (s : State) (token : Nat) : Bool := s.reqs.any (fun (r : LineReq) => r.token == token)

/-- Writes zero to the destination of a load that leaves a deferred fault (R127). -/
def zeroDest (s : State) (f : Nat) (g : Group) (w : PendWrite) : State × Group :=
  w.vregs.foldl (fun (p : State × Group) n =>
    (bitsOf w.lanes).foldl (fun (p : State × Group) l => writeReg p.1 f p.2 (regAt n 1) 0 l 0) p) (s, g)

/-- The end of a load or ATOM once every line has returned: the pending write completes, and the deferred fault of R127 or
R297 is left. -/
def finishLoad (s : State) (f : Nat) (g : Group) (kind : ReqKind) (w : PendWrite) : State × Group :=
  let g := { g with writes := g.writes.filter (fun x => x.token != w.token) }
  let g := if w.modified then g.progressed else g
  let poison := if (s.reg g.vf Reg.execOptions).getLsbD 0 then w.poison else []
  let reread := if kind == .load && (s.reg g.vf Reg.hullOptions).getLsbD 0 then w.reread else []
  let hit := if !poison.isEmpty then some (2, poison) else if !reread.isEmpty then some (3, reread) else none
  match hit with
  | none => (s, g)
  | some (code, l) =>
    let r := zeroDest s f g w
    let low := l.foldl (fun b e => if e.1 < b.1 then e else b) (32, 0)
    let d : Deferred := { vregs := w.vregs, code := code, lanes := maskOf (fun k => l.any (·.1 == k)), addr := low.2, opc := false }
    (r.1, { r.2 with deferred := r.2.deferred ++ [d] })

/-- A load's or ATOM's line returns (R115, R119, R127, R524): its lanes are written, poisoned words read as zero and are
counted once. -/
def State.returnData (s : State) (r : LineReq) (g : Group) (w : PendWrite) : State :=
  let acc (lane : Nat) : LaneAcc := (r.lanes.find? (fun a => a.lane == lane)).getD ⟨lane, 0, 0, 255, 0, 0⟩
  let bad := r.result.filter (fun x => x.2.2)
  let words := distinct (bad.map (fun x => (acc x.1).addr / 16))
  let s := if words.isEmpty then s else s.drop r.vf 1 words.length
  let p := r.result.foldl (fun (p : State × Group) x =>
    writeOp p.1 r.f p.2 (regAt (acc x.1).reg (if (acc x.1).reg = 255 then 1 else spanOf r.width)) x.1
      (if x.2.2 then 0 else extendLoad r.width r.signed x.2.1.toNat)) (s, g)
  let w := { w with
    poison := w.poison ++ bad.map (fun x => (x.1, if r.kind == .atomic then (acc x.1).taddr / 16 * 16 else (acc x.1).taddr))
    reread := if r.reread then w.reread ++ r.result.map (fun x => (x.1, (acc x.1).taddr)) else w.reread
    modified := w.modified || (r.kind == .atomic && r.wrote r.result != 0) }
  let g := { p.2 with writes := p.2.writes.map (fun x => if x.token = w.token then w else x) }
  if p.1.tokenOut r.token then p.1.setGroup r.f r.slot g
  else
    let e := finishLoad p.1 r.f g r.kind w
    e.1.setGroup r.f r.slot e.2

/-- What the acknowledgement of a Facet's write does besides: the delta map (R411). -/
def State.noteWrite (s : State) (r : LineReq) : State := s.markDelta r.vf r.marks

/-- What the acknowledgement waits for: the delta map's bits are agent writes (R411, R275). None when it may come now. -/
def State.markGate (s : State) (r : LineReq) : Option State :=
  ((r.marks.filterMap (deltaBit s r.vf)).dedup).findSome? (fun i =>
    match s.translate r.vf ((s.reg r.vf Reg.deltaMap).toNat * 65536 + i / 8) with
    | none => none
    | some d => s.agentGate d 1 true)

/-- ACQ and REL answered in full: of a group stopped by an abort, its poisoned words counted (R133, R524); the precise faults (R65, R69, R71), or the predicate, the parked lanes and the next
instruction (R67, R68). -/
def State.finishLock (s : State) (f slot : Nat) (g : Group) (k : LockOp) : State :=
  let g := { g with wait := .none, lock := none }
  let lowAddr (m : Word) : Nat := ((k.accs.find? (fun a => m.getLsbD a.lane)).map (·.taddr)).getD 0
  if g.done then (if k.pois.isEmpty then s else s.drop g.vf 1 k.pois.length).setGroup f slot g
  else if k.acquire && k.stop == 2 then s.raise f slot g 1 g.pc k.sibling 0 0 2 0
  else if k.acquire && k.stop != 0 then s.raise f slot g 9 g.pc k.sibling 0 0 0 0
  else if !k.acquire && k.stop != 0 then s.raise f slot g 14 g.pc k.wrong (lowAddr k.wrong) 0 0 0
  else
    let s := if k.pois.isEmpty then s else s.drop g.vf 1 k.pois.length
    -- an ACQ that acquires and every REL that retires are progress (R73)
    let g := if !k.acquire || k.got != 0 then g.progressed else g
    let g := if k.acquire then
        { g with p := tset g.p k.dest (((tget g.p k.dest) &&& ~~~ (k.lanes &&& ~~~ k.sibling)) ||| k.got) }
      else g
    let g := if k.acquire && k.sibling != 0 then
        let e : StackEntry := { join := false, parked := true, rcv := k.rcv, target := g.pc, mask := k.sibling, eventsAt := g.events }
        { g with stack := e :: g.stack, active := g.active &&& ~~~ k.sibling }
      else g
    s.setGroup f slot { g with pc := g.pc + 8 }.settle

/-- A line of an ACQ or REL answers (R67, R69, R120). -/
def State.returnLock (s : State) (r : LineReq) (g : Group) (k : LockOp) : State :=
  let pick (v : Nat) : Word := maskOf (fun l => r.result.any (fun x => x.1 == l && !x.2.2 && x.2.1.toNat % 4 == v))
  let acc (lane : Nat) : Nat := ((k.accs.find? (fun a => a.lane == lane)).map (·.addr)).getD 0
  let k : LockOp := { k with
    got := k.got ||| pick 1
    sibling := if k.acquire then k.sibling ||| pick 2 else k.sibling
    wrong := if k.acquire then k.wrong else k.wrong ||| pick 0
    pois := distinct (k.pois ++ (r.result.filter (·.2.2)).map (fun x => acc x.1 / 16))
    stop := max k.stop (r.result.foldl (fun m x => if x.2.2 then m else max m (x.2.1.toNat / 4)) 0)
    left := k.left - 1 }
  if k.left = 0 then s.finishLock r.f r.slot g k else s.setGroup r.f r.slot { g with lock := some k }

/-- The group a request still belongs to. -/
def State.reqGroup (s : State) (r : LineReq) : Option Group :=
  match s.group? r.f r.slot with
  | some g => if g.launch = r.launch then some g else none
  | none => none

/-- LINE_DATA_RETURN for a group's own request. -/
def State.returnToGroup (s : State) (r : LineReq) : State :=
  let s := (s.dropReq r.id).noteWrite r
  match s.reqGroup r with
  | none => s
  | some g =>
    match r.kind, g.lock with
    | .acq, some k | .rel, some k => s.returnLock r g k
    | _, _ =>
      match g.writes.find? (fun w => w.token == r.token) with
      | some w => s.returnData r g w
      | none => s

/-- STORE_ACK for a group's own request: a store retires with its last line (R73). -/
def State.ackToGroup (s : State) (r : LineReq) : State :=
  let s := (s.dropReq r.id).noteWrite r
  match s.reqGroup r with
  | none => s
  | some g => if r.kind == .store && !s.tokenOut r.token then s.setGroup r.f r.slot g.progressed else s

end Sys2Proof.Machine
end

