-- ==== Sys2Proof/Machine/Memory.lean ====
section
/-! DEFINITION. The commands of the Hull and the Frustum: requests (R270, R271), agents (R275), pins (R286 to R290), the
thrash guard (R291, R292), quotas (R285), sinks (R304), service windows (R307), scrub (R312), refresh (R309) and remap
(R314). -/

namespace Sys2Proof.Machine

def execHullRequestAccept (req tag way : Nat) (s : State) : Out := .next (hullRequestAccept s req tag way)
def execHullRepresent (req : Nat) (s : State) : Out := .next (hullRepresent s req)
def execFillSectorArrival (line sector : Nat) (s : State) : Out := .next (fillSectorArrival s line sector)
def execAgentWrite (addr : Nat) (bytes : List Byte) (s : State) : Out := .next (agentWriteRow s addr bytes)
def execTgPeriodEnd (j : Nat) (s : State) : Out := .next (tgPeriodEnd s j)
def execSinkWrite (k pc : Nat) (s : State) : Out := .next (sinkAccept s (64 * k + pc))
def execServiceWindowStart (k pc writes : Nat) (s : State) : Out := .next (serviceWindow s (64 * k + pc) writes)
def execDemandRead (k pc : Nat) (noise : Noise) (s : State) : Out := .next (demandRead s (64 * k + pc) noise)
def execScrubStep (k pc : Nat) (noise : Noise) (s : State) : Out := .next (scrubStep s (64 * k + pc) noise)
def execRefresh (k pc _bank : Nat) (s : State) : Out := .next (refreshBank s (64 * k + pc))
def execRefreshRateChange (k celsius : Nat) (s : State) : Out := .next (refreshRate s k celsius)
def execRowRemapStart (k pc bank row : Nat) (s : State) : Out := .next (rowRemapStart s (64 * k + pc) bank row)
def execRemapCopyDone (k pc : Nat) (s : State) : Out := .next (remapCopyDone s (64 * k + pc))

/-- The ways of a set that tenant `t` has pinned (R287). -/
def pinnedBy (l : List Way) (t : Nat) : Nat := (l.filter (fun w => w.cls == 3 && w.pinner == t)).length

/-- The pinned ways of a set (R287). -/
def pinnedAll (l : List Way) : Nat := (l.filter (fun w => w.cls == 3)).length

/-- Disabled ways of a set (R298). -/
def disabledWays (l : List Way) : Nat := (l.filter (·.off)).length

/-- The lines a tenant has pinned: HULL_PIN_TOTAL. -/
def State.pinTotal (s : State) (j : Nat) : Nat := s.hull.sets.foldl (fun m e => m + pinnedBy e.2 j) 0

/-- HULL_PIN_STATUS at the end of a command: BUSY 0, STATUS and FAILED_SET (R287). -/
def State.pinEnd (s : State) (j status failed : Nat) : State :=
  let w := setField (s.reg j Reg.hullPinStatus) 31 31 0
  s.setReg j Reg.hullPinStatus (setField (setField w 22 8 failed) 7 0 status)

/-- A write of HULL_PIN_CMD (R286): 1 pin and 2 unpin queue a command, or are discarded while BUSY is 1. -/
def writePinCmd (s : State) (j : Nat) (v : Word) : State :=
  let cmd := field v 1 0
  if cmd = 0 || cmd = 3 then s
  else if (s.reg j Reg.hullPinStatus).getLsbD 31 then s.setRegF j Reg.hullPinStatus 30 30 1
  else
    let c : PinCmd := { vf := j, pin := cmd == 1
                        addr := s.regF j Reg.hullPinAddrHi 15 0 * 2 ^ 32 + s.regF j Reg.hullPinAddrLo 31 11 * 2048
                        lines := s.regF j Reg.hullPinLen 16 0 }
    { s.setRegF j Reg.hullPinStatus 31 31 1 with hull := { s.hull with pins := s.hull.pins ++ [c] } }

/-- Unpins one line that tenant `j` has pinned (R289). -/
def State.unpinLine (s : State) (j line : Nat) : State :=
  s.updLine line (fun w => if w.cls = 3 && w.pinner = j then { w with cls := 0, use := 15 } else w)

/-- A free tracker for a pin's fill (R279): the recorded misses of the engine come first (R270). -/
def State.pinTracker (s : State) (line : Nat) : Bool :=
  let k := engineOf (16 * line)
  let ahead := s.hull.busy.filter (fun r => s.reqs.any (fun q => q.id == r && engineOf (16 * q.line) == k))
  decide (s.trackers k + ahead.length < 32)

/-- Pins one line (R287): a resident line is converted; otherwise a way is allocated, with a tracker (R279), and all 16 sectors are
filled. A pin moves no line in the recency order (R283). None while the line fills or has requests waiting, no victim is free of
requests (R299) with room in the sink for its dirty sectors (R306), no tracker is free, or the slice is gated (R453). -/
def State.pinLine (s : State) (j line : Nat) : Option State :=
  match s.lineWay line with
  | some w =>
    if w.filling || s.lineWaits line || !s.hullClocked line then none
    else some (s.updLine line (fun w => if w.cls = 3 then w else { w with cls := 3, use := 15, dead := false, pinner := j }))
  | none =>
    match victim (s.set (setOf line)) j (s.quota j) true with
    | none => none
    | some i =>
      if !s.victimRoom (setOf line) i || s.victimWaits (setOf line) i || !s.hullClocked line || !s.pinTracker line then none
      else some (((s.allocate line i j 15 3).updLine line (fun w => { w with pinner := j })).startFill line 0xFFFF)

/-- The lines of a pin range, grouped: each touched set with its lowest line and the lines not already pinned (R287). -/
def State.pinSets (s : State) (first n : Nat) : List (Nat × Nat × Nat) :=
  (List.range (min n 20480)).map (fun i =>
    let set := setOf (first + i)
    let lines := (List.range (ceilDiv (n - i) 20480)).map (fun q => first + i + 20480 * q)
    let new := (lines.filter (fun l => match s.lineWay l with | some w => w.cls != 3 | none => true)).length
    (set, first + i, new))

/-- Pins lines in ascending order up to one that has to wait: the lines still to pin (R287). -/
def State.pinLines (s : State) (j : Nat) : List Nat → State × Nat
  | [] => (s, 0)
  | l :: t => match s.pinLine j l with
    | some s => State.pinLines s j t
    | none => (s, t.length + 1)

/-- The loop of the pin command at the front (R287, R288): it ends with PIN_DONE once every line is pinned and filled. -/
def State.pinLoop (s : State) (c : PinCmd) (rest : List PinCmd) (first : Nat) : State :=
  let lines := (List.range c.lines).map (first + ·)
  let p := s.pinLines c.vf (lines.drop (c.lines - c.left))
  if p.2 = 0 && lines.all (fun l => match p.1.lineWay l with | some w => !w.filling | none => true) then
    { p.1 with hull := { p.1.hull with pins := rest } }.pinEnd c.vf 1 0
  else { p.1 with hull := { p.1.hull with pins := { c with running := true, left := p.2 } :: rest } }

/-- The pins a tenant has in a set, with those its running command is still to make (R299). -/
def State.pinsWith (s : State) (j : Nat) : List Nat :=
  s.hull.sets.map (fun e => pinnedBy e.2 j) ++
  (s.hull.pins.filter (fun c => c.vf == j && c.running)).flatMap (fun c =>
    match s.translate j c.addr with
    | none => []
    | some d => (s.pinSets (d / 2048) c.lines).map (fun e => pinnedBy (s.set e.1) j + e.2.2))

/-- The largest pin count of a tenant in any set (R285). -/
def State.maxPins (s : State) (j : Nat) : Nat := (s.pinsWith j).foldl max 0

/-- PIN_CMD_RUN (R287 to R289): the oldest queued command runs its checks, in order, then unpins, or pins line by line; a pin in its
loop goes on where it had to wait. -/
def pinCmdRun (s : State) : State :=
  match s.hull.pins with
  | [] => s
  | c :: rest =>
    let s1 := { s with hull := { s.hull with pins := rest } }
    if c.running then
      match s.translate c.vf c.addr with
      | none => s1.pinEnd c.vf 2 0
      | some d => s1.pinLoop c rest (d / 2048)
    else if c.lines = 0 || decide (65536 < c.lines) || !s.inOneRegion c.vf c.addr (2048 * c.lines) then s1.pinEnd c.vf 2 0
    else
      match s.translate c.vf c.addr with
      | none => s1.pinEnd c.vf 2 0
      | some d =>
        let first := d / 2048
        let lines := (List.range c.lines).map (first + ·)
        if !c.pin then (lines.foldl (fun s l => s.unpinLine c.vf l) s1).pinEnd c.vf 1 0
        else
          let sets := s.pinSets first c.lines
          match sets.find? (fun e => decide (s.quota c.vf - 1 < pinnedBy (s.set e.1) c.vf + e.2.2)) with
          | some e => s1.pinEnd c.vf 3 e.1
          | none =>
            match sets.find? (fun e => decide (12 - disabledWays (s.set e.1) < pinnedAll (s.set e.1) + e.2.2)) with
            | some e => s1.pinEnd c.vf 4 e.1
            | none => s1.pinLoop { c with left := c.lines } rest first

def execPinCmdRun (s : State) : Out := .next (pinCmdRun s)

/-- A write of HULL_QUOTA (R285). -/
def writeHullQuota (s : State) (j : Nat) (v : Word) : State :=
  let w := field v 4 0
  let s := if v.getLsbD 31 then s.setRegF 0 (Reg.hullQuota j) 31 31 0 else s
  if w < 1 || 16 < w || w < s.maxPins j + 1 then s.setRegF 0 (Reg.hullQuota j) 31 31 1
  else s.setRegF 0 (Reg.hullQuota j) 4 0 w

/-- A write of HULL_TG_CFG (R292): in force at the next period boundary; clearing EN releases the guard at once. -/
def writeHullTgCfg (s : State) (j : Nat) (v : Word) : State :=
  let s := s.setReg 0 (Reg.hullTgCfg j) (v &&& 0x80FFFFFF)
  if v.getLsbD 31 then s
  else
    let s := s.updGuard j (fun g => { g with engaged := false, run := 0, cfg := v &&& 0x80FFFFFF })
    s.setRegF j Reg.hullTgStatus 31 31 0

/-- Whether a value of HBM_INJECT disarms (R327): STACK 12 to 15, SYMBOL 36 to 63 or VALUE 0. -/
def disarms (v : Word) : Bool := decide (12 ≤ field v 27 24) || decide (36 ≤ field v 15 10) || field v 3 0 == 0

/-- A write of HBM_INJECT (R327). -/
def writeHbmInject (s : State) (v : Word) : State :=
  s.setReg 0 Reg.hbmInject (if disarms v then v &&& 0x0FFCFC0F else v &&& 0x8FFCFC0F)

end Sys2Proof.Machine
end

