-- ==== Sys2Proof/Machine/Chord.lean ====
section
/-! DEFINITION. Chord ports: flits (R333 to R335), messages (R336 to R338), credits (R341, R342), egress (R344, R345,
R353), link retry (R350), failover (R355), training (R330, R331, R358). -/

namespace Sys2Proof.Machine

/-- CRC-32 of R335 over bytes, each byte least significant bit first, as a number whose bytes go out in ascending order.
PRESUMED the IEEE 802.3 placing of its bits; log entry 40. -/
def crc32 (l : List Byte) : Nat :=
  let c := l.foldl (fun c b => (List.range 8).foldl (fun c i => crcBit 0x04C11DB7 c (b.getLsbD i)) c) 0xFFFFFFFF
  let x := c ^^^ 0xFFFFFFFF
  (List.range 32).foldl (fun r i => r + (if x.testBit (31 - i) then 2 ^ i else 0)) 0

/-- The function that holds a position of this module (R347, R352). -/
def State.fnOfPos (s : State) (pos : Nat) : Option Nat :=
  (List.range 17).find? (fun j => (s.reg 0 (Reg.chordFnPos j)).getLsbD 31 && s.regF 0 (Reg.chordFnPos j) 19 0 == pos)

/-- The position of a function. -/
def State.posOf (s : State) (j : Nat) : Option Nat :=
  if (s.reg 0 (Reg.chordFnPos j)).getLsbD 31 then some (s.regF 0 (Reg.chordFnPos j) 19 0) else none

/-- The position the port logic sends under: that of the lowest-numbered function that holds one (log entry 41). -/
def State.selfPos (s : State) : Nat := ((List.range 17).findSome? s.posOf).getD 0

/-- The egress weight of a function for a VC (R345). -/
def State.weight (s : State) (j vc : Nat) : Nat :=
  if vc = 1 then s.regF 0 (Reg.chordFnWeightA j) 31 28
  else if 3 ≤ vc ∧ vc ≤ 9 then s.regF 0 (Reg.chordFnWeightA j) (27 - 4 * (vc - 3)) (24 - 4 * (vc - 3))
  else if vc = 10 then s.regF 0 (Reg.chordFnWeightB j) 7 4
  else if vc = 11 then s.regF 0 (Reg.chordFnWeightB j) 3 0
  else 15

/-- Whether a port carries traffic. -/
def Port.isUp (p : Port) : Bool := p.state == .up || p.state == .upReduced

/-- up[] of R353. -/
def State.upPorts (s : State) : List Nat := (List.range 36).filter (fun p => (s.port p).isUp)

/-- Whether a port has a VC (R332). -/
def Port.hasVc (p : Port) (vc : Nat) : Bool := p.version != 0x10 || decide (vc ≤ 7)

/-- CAP of R345, by flit time. -/
def Port.cap (p : Port) : Nat :=
  match p.version == 0x10, p.state == .upReduced with
  | false, false => 96
  | true, true => 24
  | _, _ => 48

/-- Egress class of a VC (R340): 0 A, 1 B, 2 C. -/
def classOf (vc : Nat) : Nat := if vc = 0 ∨ vc = 2 then 0 else if vc = 1 ∨ vc = 11 then 1 else 2

/-- Segments of a message (R336): its header word and its words, 13 to a segment. -/
def Msg.segs (m : Msg) : Nat := (m.words.length + 13) / 13

/-- All words of a message, the header word first. -/
def Msg.all (m : Msg) : List Code := packCode m.hdr 0 :: m.words

/-- The message header word (R338). -/
def hdrWord (kind addr len tag status step id piece etype op type : Nat) : BitVec 128 :=
  BitVec.ofNat 128 <| match kind with
  | 1 | 2 => addr <<< 80 + len <<< 76 + tag <<< 48
  | 3 => addr <<< 80 + op <<< 78 + type <<< 74 + tag <<< 48
  | 4 => len <<< 76 + tag <<< 48 + status <<< 40
  | 5 => tag <<< 48 + status <<< 40
  | 6 => id <<< 96 + step <<< 72 + piece <<< 48 + etype <<< 44
  | 7 => addr <<< 80 + len <<< 76 + (step % 2 ^ 32) <<< 8
  | _ => 0

/-- Header word of a control message (R338). -/
def hdrCtrl (code pos port : Nat) : BitVec 128 := BitVec.ofNat 128 (code <<< 120 + pos <<< 100 + port <<< 92)

/-- Bits of a header word a KIND defines (R338); the others are reserved. -/
def hdrMask (kind : Nat) : Nat :=
  let f (hi lo : Nat) : Nat := (2 ^ (hi + 1 - lo) - 1) <<< lo
  match kind with
  | 0 => f 127 92
  | 1 | 2 => f 127 76 + f 63 48
  | 3 => f 127 78 + f 77 74 + f 63 48
  | 4 => f 79 76 + f 63 40
  | 5 => f 63 40
  | 6 => f 127 44
  | _ => f 127 76 + f 39 8

/-- Whether KIND may travel on a VC (R337). -/
def kindVc (kind vc : Nat) : Bool :=
  match kind with
  | 0 => vc == 0
  | 1 | 2 | 3 => vc == 1
  | 4 | 5 => vc == 2
  | 6 => decide (3 ≤ vc) && decide (vc ≤ 10)
  | _ => vc == 11

/-- Words that follow the header word (R337). -/
def kindWords (kind : Nat) (h : BitVec 128) (n : Nat) : Bool :=
  match kind with
  | 0 => decide (n ≤ 12)
  | 2 | 7 => n == 8 * (field h 79 76 + 1)
  | 3 => n == 9
  | 4 => n == (if field h 47 40 = 0 then 8 * (field h 79 76 + 1) else 0)
  | 6 => decide (1 ≤ n) && decide (n ≤ 207)
  | _ => n == 0

/-- Appends a message at its issuer. -/
def State.send (s : State) (m : Msg) : State := { s with egress := s.egress ++ [m] }

/-- Appends a control message (R338); its DST is a value the manual does not give: free (log entry 41). -/
def State.sendCtrl (s : State) (code pos port : Nat) (pin : Option Nat) : State :=
  let (s, c) := s.free
  s.send { fn := 0, dst := (Config.freeWord c).toNat % 2 ^ 20, src := s.selfPos, kind := 0, vc := 0
           hdr := hdrCtrl code pos port, words := [], stripe := 0, pin := pin }

/-- The port a message takes (R353); none while no port is up. -/
def State.portFor (s : State) (m : Msg) : Option Nat :=
  match m.pin with
  | some p => if (s.port p).isUp then some p else none
  | none =>
    let up := s.upPorts
    if up.isEmpty then none else up[(m.dst + 37 * m.vc + m.stripe) % up.length]?

/-- Credits of a VC a port holds: dedicated, and shared where the VC may use them (R341, R342). -/
def Port.room (p : Port) (vc : Nat) : Nat × Nat := (agetD p.credits vc 0, if vc = 2 then 0 else p.sharedCredits)

/-- Reserves credits for a message, dedicated ones first. -/
def Port.reserve (p : Port) (m : Msg) : Port :=
  let d := min m.segs (p.room m.vc).1
  { p with credits := aput p.credits m.vc (agetD p.credits m.vc 0 - d), sharedCredits := p.sharedCredits - (m.segs - d) }

/-- Whether a port accepts a message at egress now (R345, R355). -/
def State.canAccept (s : State) (p : Nat) (m : Msg) : Bool :=
  let x := s.port p
  let n := m.segs
  let left (t : TxMsg) : Nat := t.msg.segs - t.sent
  let cls := ((x.tx.filter (fun t => classOf t.msg.vc == classOf m.vc)).map left).sum
  let own := ((x.tx.filter (fun t => t.msg.fn == m.fn && t.msg.vc == m.vc)).map left).sum
  let limit := if m.vc = 0 ∨ m.vc = 2 then x.cap else 6 * s.weight m.fn m.vc
  x.isUp && x.hasVc m.vc && decide (n ≤ (x.room m.vc).1 + (x.room m.vc).2) &&
  (m.moved || (decide (cls + n < x.cap) && decide (own + n ≤ limit)))

/-- A message enters a port: behind the port's queue, or at the head of its class when it was moved (R355), behind what the
class is sending. -/
def State.enterPort (s : State) (p : Nat) (m : Msg) : State :=
  s.updPort p (fun x =>
    let t : TxMsg := { msg := m, ded := min m.segs (x.room m.vc).1 }
    let x := x.reserve m
    if m.moved then
      let first := x.tx.filter (fun t => t.sent != 0 || t.msg.moved)
      let rest := x.tx.filter (fun t => !(t.sent != 0 || t.msg.moved))
      { x with tx := first ++ [t] ++ rest }
    else { x with tx := x.tx ++ [t] })

/-- Drops the messages `mine` of which no segment has left, and gives their credits back (R374). -/
def Port.discard (p : Port) (mine : Msg → Bool) : Port :=
  let gone := p.tx.filter (fun t => mine t.msg && t.sent == 0)
  gone.foldl (fun (p : Port) t => { p with
    credits := aput p.credits t.msg.vc (agetD p.credits t.msg.vc 0 + t.ded)
    sharedCredits := p.sharedCredits + (t.msg.segs - t.ded) }) { p with tx := p.tx.filter (fun t => !(mine t.msg && t.sent == 0)) }

/-- A collective makes progress when a message of it is taken or sent (R369). -/
def State.collProgress (s : State) (j g id : Nat) : State :=
  { s with colls := s.colls.map (fun (c : Collective) =>
      if c.fn = j ∧ c.g = g ∧ c.id = id then { c with progressAt := s.now } else c) }

/-- Whether a message is one of a collective's (R338, R361). -/
def Msg.ofColl (m : Msg) (c : Collective) : Bool := m.kind == 6 && m.fn == c.fn && m.vc == 3 + c.g && field m.hdr 127 96 == c.id

/-- The words of a collective's message that is lost with none of them sent are not words sent to the peer (R371). -/
def State.unsend (s : State) (m : Msg) : State :=
  if m.resent then s
  else
    let gone (x : StreamWords) : Bool :=
      !x.received && x.peer == m.dst && x.step == field m.hdr 95 72 && x.piece == field m.hdr 71 48
    { s with colls := s.colls.map (fun (c : Collective) => if m.ofColl c then { c with stream := c.stream.filter (fun x => !gone x) } else c) }

/-- Whether a VC is closed to a function: its weight is 0 (R345), or ports are up and none of them has the VC (R332: DESIGN CHOICE for
the entries R258 and R392 refuse, log entries 48 and 138). -/
def State.vcClosed (s : State) (j vc : Nat) : Bool :=
  s.weight j vc == 0 || (!s.upPorts.isEmpty && s.upPorts.all (fun p => !(s.port p).hasVc vc))

/-- Whether a port is up and its I/O island clocked (R453): a gated port takes and sends nothing. -/
def State.portRuns (s : State) (p : Nat) : Bool := (s.port p).isUp && s.portClocked p

/-- EGRESS_ACCEPT of the i-th message that waits at an issuer (R345, R353). A message whose VC is closed, or which no up
port has, is refused and goes no further. -/
def egressAccept (s : State) (i : Nat) : State :=
  match s.egress[i]? with
  | none => s
  | some m =>
    let rest := { s with egress := s.egress.eraseIdx i }
    let lost := if m.kind = 6 then rest.unsend m
      else if m.kind = 7 then
        { rest with drains := rest.drains.map (fun (d : Drain) => if d.fn = m.fn then { d with lost := true } else d) }
      else rest
    let up := s.upPorts
    if !up.isEmpty && ((s.weight m.fn m.vc == 0 && !m.moved) || up.all (fun p => !(s.port p).hasVc m.vc)) then lost
    else
      match s.portFor m with
      | none => s
      | some p =>
        let ahead := (s.egress.take i).any (fun q =>
          s.portFor q == some p && classOf q.vc == classOf m.vc && ((q.fn == m.fn && q.vc == m.vc) || q.moved))
        if ahead || !s.portRuns p || !s.canAccept p m then s
        else
          rest.enterPort p m

def execEgressAccept (i : Nat) (s : State) : Out := .next (egressAccept s i)

/-- The credit returns that a flit header carries: at most two, at most 255 each (R334); version 1.0 has one field. -/
def Port.returns (p : Port) : List (Nat × Bool × Nat) × List (Nat × Bool × Nat) :=
  let n := if p.version = 0x10 then 1 else 2
  let now := (p.owed.take n).map (fun e => (e.1, e.2.1, min 255 e.2.2))
  let left := (p.owed.take n).filterMap (fun e => if e.2.2 ≤ 255 then none else some (e.1, e.2.1, e.2.2 - 255))
  (now, left ++ p.owed.drop n)

/-- The 80 bits of a flit header (R334). -/
def flitHeader (ftype vc seq : Nat) (ack : Option Nat) (cr : List (Nat × Bool × Nat)) : Nat :=
  let one (o : Option (Nat × Bool × Nat)) (v f c : Nat) : Nat :=
    match o with
    | some e => e.1 <<< v + (if e.2.1 then 2 ^ f else 0) + e.2.2 <<< c
    | none => 0
  ftype <<< 76 + vc <<< 72 + seq <<< 60 + (match ack with | some a => a <<< 48 + 2 ^ 47 | none => 0) +
  one cr[0]? 43 42 34 + one cr[1]? 30 29 21

/-- A segment's 8-byte header and 13 word slots (R333, R336); unused slots hold the canonical poisoned word. -/
def segmentBytes (m : Msg) (k : Nat) (resent : Bool) : List Byte :=
  let words := (m.all.drop (13 * k)).take 13
  let h := m.dst <<< 44 + m.src <<< 24 + m.kind <<< 21 + (if resent then 2 ^ 20 else 0) + k <<< 8 +
    (if k + 1 = m.segs then 2 ^ 7 else 0) + words.length
  leBytes 8 h ++ (List.range 13).flatMap (fun i => leBytes 18 ((words[i]?).getD poisonCode).toNat)

/-- The payload field of an IDLE or RETRY_REQ flit: no segment, unused slots. -/
def idlePayload : List Byte := leBytes 8 0 ++ (List.range 13).flatMap (fun _ => leBytes 18 poisonCode.toNat)

/-- A flit: header, payload and link CRC (R333, R335). -/
def flitBytes (header : Nat) (payload : List Byte) : List Byte :=
  let b := leBytes 10 header ++ payload
  b ++ leBytes 4 (crc32 b)

/-- A flit leaves the port; the slot cycle moves on (R344), and the flit stream of its codewords (R329). A replayed flit carries the credit returns it carried before (R342);
a DATA flit's are kept with it until it is acknowledged. -/
def State.emitFlit (s : State) (p ftype vc seq : Nat) (payload : List Byte) (again : Bool := false) : State :=
  let x := s.port p
  let r := if again then (agetD x.carried seq [], x.owed) else x.returns
  let s := s.updPort p (fun x => { x with
    owed := r.2, slot := (x.slot + 1) % 8, sentFlits := x.sentFlits + 1
    carried := if ftype = 1 && !again && !r.1.isEmpty then x.carried ++ [(seq, r.1)] else x.carried })
  { s with out := { s.out with flits := (p, flitBytes (flitHeader ftype vc seq x.ackSeq r.1) payload) :: s.out.flits } }

/-- The class served in a flit slot, then the others in the order A, B, C (R344). -/
def slotOrder (slot : Nat) : List Nat := (slot % 3) :: [0, 1, 2]

/-- Flits not yet acknowledged. -/
def Port.unacked (p : Port) : Nat := (p.tx.map (fun t => t.unacked.length)).sum

/-- What the departure of a message's last segment does: a collective's message is sent, which is progress (R369). -/
def State.messageLeft (s : State) (t : TxMsg) : State :=
  if t.msg.kind = 6 && t.sent + 1 == t.msg.segs then s.collProgress t.msg.fn (t.msg.vc - 3) (field t.msg.hdr 127 96) else s

/-- FLIT_TRANSMIT (R344, R350): a due RETRY_REQ, then a replayed flit, then the next flit by class; else IDLE. Outside
P0 a port sends IDLE only (R477). -/
def flitTransmit (s : State) (p : Nat) : State :=
  let x := s.port p
  if !s.portRuns p then s
  else if s.power.state != 0 then s.emitFlit p 0 0 0 idlePayload
  else if x.retryDue then (s.updPort p (fun x => { x with retryDue := false })).emitFlit p 2 0 0 idlePayload
  else
    match x.replay with
    | q :: t =>
      let s := s.updPort p (fun x => { x with replay := t })
      match x.tx.find? (fun m => m.unacked.contains q) with
      | some m =>
        let k := m.sent - m.unacked.length + m.unacked.idxOf q
        s.emitFlit p 1 m.msg.vc q (segmentBytes m.msg k (m.msg.resent && x.version != 0x10)) true
      | none => s
    | [] =>
      let pick := if 64 ≤ x.unacked then none
        else (slotOrder x.slot).findSome? (fun c => x.tx.findIdx? (fun t => classOf t.msg.vc == c && decide (t.sent < t.msg.segs)))
      match pick.bind (fun i => (x.tx[i]?).map (fun t => (i, t))) with
      | none => s.emitFlit p 0 0 0 idlePayload
      | some (i, t) =>
        let seq := x.txSeq
        let s := s.updPort p (fun x => { x with
          txSeq := (seq + 1) % 4096, tx := updAt x.tx i (fun t => { t with sent := t.sent + 1, unacked := t.unacked ++ [seq] }) })
        (s.emitFlit p 1 t.msg.vc seq (segmentBytes t.msg t.sent (t.msg.resent && x.version != 0x10))).messageLeft t

/-- An acknowledgement of every flit up to SEQ `a` (R334, R350). -/
def Port.acked (p : Port) (a : Nat) : Port :=
  let open? (q : Nat) : Bool := decide (2048 ≤ (a + 4096 - q) % 4096)
  let tx := p.tx.map (fun t => { t with unacked := t.unacked.filter open? })
  { p with tx := tx.filter (fun t => decide (t.sent < t.msg.segs) || !t.unacked.isEmpty), replay := p.replay.filter open?
           carried := p.carried.filter (fun e => open? e.1) }

/-- A credit return (R342); version 1.0 has no shared credits. -/
def Port.credited (p : Port) (vc : Nat) (shared : Bool) (n : Nat) : Port :=
  if n = 0 then p
  else if shared && p.version != 0x10 then { p with sharedCredits := p.sharedCredits + n }
  else { p with credits := aput p.credits vc (agetD p.credits vc 0 + n) }

/-- What the header of a good flit tells: the acknowledgement and the credits (R334). -/
def Port.heard (p : Port) (h : Nat) : Port :=
  let p := if fieldN h 47 47 = 1 then p.acked (fieldN h 59 48) else p
  let p := p.credited (fieldN h 46 43) (fieldN h 42 42 == 1) (fieldN h 41 34)
  if p.version = 0x10 then p else p.credited (fieldN h 33 30) (fieldN h 29 29 == 1) (fieldN h 28 21)

/-- The credits the module advertises for its ingress buffer of 512 flits: VC0 to VC11, and the shared pool (R341). -/
def advertised (version : Nat) : List Nat :=
  if version = 0x10 then [16, 32, 64, 80, 80, 80, 80, 80, 0, 0, 0, 0, 0]
  else [16, 32, 64, 16, 16, 16, 16, 16, 16, 16, 16, 32, 240]

/-- Dedicated ingress flits of a VC (R341). -/
def dedicated (version vc : Nat) : Nat := if vc < 12 then (advertised version).getD vc 0 else 0

/-- Where a flit of a VC is stored (R341): `some false` on its VC's dedicated credits, `some true` in the shared pool, which VC2
may not use; none where the buffer has no room for it, or the version no such VC (R332). -/
def Port.place (p : Port) (vc : Nat) : Option Bool :=
  if agetD p.used vc 0 < dedicated p.version vc then some false
  else if vc != 2 && p.hasVc vc && decide (vc < 12) && decide (agetD p.used 12 0 < (advertised p.version).getD 12 0) then some true
  else none

/-- Notes a credit return that is due (R342). -/
def Port.owe (p : Port) (vc : Nat) (shared : Bool) (n : Nat) : Port :=
  if n = 0 then p
  else if p.owed.any (fun e => e.1 == vc && e.2.1 == shared) then
    { p with owed := p.owed.map (fun e => if e.1 = vc ∧ e.2.1 = shared then (vc, shared, e.2.2 + n) else e) }
  else { p with owed := p.owed ++ [(vc, shared, n)] }

/-- Frees ingress flits of a VC: `n` flits, `k` of them on shared credits (R342). -/
def Port.freed (p : Port) (vc n k : Nat) : Port :=
  let p := (p.owe vc false (n - k)).owe vc true k
  { p with used := aput (aput p.used vc (agetD p.used vc 0 - (n - k))) 12 (agetD p.used 12 0 - k) }

/-- A received word as it is carried on: corrected, or left as it is when uncorrectable (R325). -/
def corrected (c : Code) : Code :=
  match verdict (codeMark c) with
  | .clean => c
  | .fixed f => packCode (codeData c ^^^ f) 0
  | .bad => c

/-- Whether a word needs, and has, a correction. -/
def correctable (c : Code) : Bool := match verdict (codeMark c) with | .fixed _ => true | _ => false

/-- Whether a carried word is uncorrectable. -/
def lostWord (c : Code) : Bool := verdict (codeMark c) == .bad

/-- STRIPE of a received message (R353). -/
def stripeOf (kind : Nat) (h : BitVec 128) : Nat :=
  match kind with
  | 1 | 2 | 3 | 7 => field h 100 96
  | 6 => field h 52 48
  | _ => 0

/-- A protocol error (R336). -/
def State.protocolError (s : State) : State := s.count 0 Reg.chordErr 23 16 1

/-- A complete message enters the ingress buffer (R336, R348): its words are corrected and counted; one whose header word,
VC or length is not as R337 and R338 say is a protocol error, and a CTRL of a reserved code is ignored (log entry 42). -/
def State.received (s : State) (p : Nat) (hdr : Nat) (vc : Nat) (x : Partial) : State :=
  let words := x.words
  let ce := (words.filter correctable).length
  let s := s.count 0 (Reg.portErr p) 15 0 ce
  let free (s : State) : State := s.updPort p (fun q => q.freed vc x.flits x.shared)
  match words.map corrected with
  | [] => (free s).protocolError
  | h :: rest =>
    let kind := fieldN hdr 23 21
    let d := codeData h
    if lostWord h || !kindVc kind vc || !kindWords kind d rest.length || d.toNat &&& hdrMask kind != d.toNat then
      (free s).protocolError
    else
      let m : Msg := { fn := 0, dst := fieldN hdr 63 44, src := x.src, kind, vc
                       resent := fieldN hdr 20 20 == 1 && (s.port p).version != 0x10
                       hdr := d, words := rest, stripe := stripeOf kind d }
      if kind = 0 && !(decide (1 ≤ field d 127 120) && decide (field d 127 120 ≤ 3)) then
        let s := free s
        if (s.fnOfPos m.dst).isNone then s.count 0 Reg.chordErr 15 0 1 else s
      else s.updPort p (fun q => { q with rx := q.rx ++ [{ msg := m, flits := x.flits, shared := x.shared }] })

/-- A segment of a good, in-order DATA flit (R336), stored on a dedicated or a shared credit. -/
def State.storeSegment (s : State) (p vc : Nat) (shared : Bool) (payload : List Byte) : State :=
  let x := s.port p
  let k := if shared then 12 else vc
  let s := s.updPort p (fun q => { q with used := aput q.used k (agetD q.used k 0 + 1) })
  let h := byteField payload 0 8
  let src := fieldN h 43 24
  let seg := fieldN h 11 8
  let nw := fieldN h 3 0
  let old := x.part.find? (fun y => y.src == src && y.vc == vc)
  let rest := x.part.filter (fun y => !(y.src == src && y.vc == vc))
  let before : Partial := old.getD { src, vc, next := 0, words := [], flits := 0, shared := 0 }
  let now : Partial := { before with
    next := before.next + 1, flits := before.flits + 1, shared := before.shared + (if shared then 1 else 0)
    words := before.words ++ (List.range nw).map (fun i => BitVec.ofNat 144 (byteField payload (8 + 18 * i) 18)) }
  if seg != before.next || nw == 0 || decide (13 < nw) || fieldN h 19 12 != 0 || fieldN h 6 4 != 0 then
    (s.updPort p (fun q => { q with part := rest }.freed vc now.flits now.shared)).protocolError
  else if fieldN h 7 7 = 1 then (s.updPort p (fun q => { q with part := rest })).received p h vc now
  else s.updPort p (fun q => { q with part := now :: rest })

/-- A good, in-order DATA flit (R336). One for which the sender can hold no credit is not stored, and counts as a protocol error
(log entry 114). -/
def State.segment (s : State) (p vc : Nat) (payload : List Byte) : State :=
  match (s.port p).place vc with
  | some shared => s.storeSegment p vc shared payload
  | none => s.protocolError

/-- Whether a flit passes R335: its CRC matches, and the codewords that carried it were decoded (`sound`). -/
def flitGood (bytes : List Byte) (sound : Bool) : Bool :=
  bytes.length == 256 && sound && crc32 (bytes.take 252) == byteField bytes 252 4

/-- The outcome of decoding a codeword of which `wrong` symbols came wrong (R329): 0 without an error, 1 with up to 15, corrected, 2
with more, passed on as it came. -/
def fecOutcome (wrong : Nat) : Nat := if wrong = 0 then 0 else if wrong ≤ 15 then 1 else 2

/-- Offset of the next received flit in the 1,285 bytes of flits that a pair of codewords carries (R329). -/
def Port.fecOffset (p : Port) : Nat := 256 * p.gotFlits % 1285

/-- Whether a pair of codewords begins in the next received flit. -/
def Port.pairStarts (p : Port) : Bool := p.fecOffset == 0 || decide (1285 < p.fecOffset + 256)

/-- Whether both codewords of a pair were decoded. -/
def pairSound (w : Nat × Nat) : Bool := fecOutcome w.1 != 2 && fecOutcome w.2 != 2

/-- Decodes the codewords that carry the next received flit (R329, R335): `fec` gives, as fec mod 545 and fec / 545, the wrong symbols
of the two codewords of the pair that begins in it, and says nothing where none does. Each codeword is counted once (R375); the flit
is sound when every codeword that carries it was decoded. -/
def State.decodeFlit (s : State) (p fec : Nat) : State × Bool :=
  let x := s.port p
  let new := (fec % 545, fec / 545 % 545)
  let sound := (x.fecOffset == 0 || pairSound x.fecNow) && (!x.pairStarts || pairSound new)
  let n (k : Nat) : Nat := if x.pairStarts then ([new.1, new.2].filter (fun w => fecOutcome w == k)).length else 0
  let s := s.updPort p (fun x => { x with gotFlits := (x.gotFlits + 1) % 1285, fecNow := if x.pairStarts then new else x.fecNow })
  let s := if n 1 = 0 then s else s.count 0 (Reg.portFec p) 31 0 (n 1)
  (if n 2 = 0 then s else s.count 0 (Reg.portLink p) 31 16 (n 2), sound)

/-- A flit that fails R335 is discarded with the DATA flits after it, and RETRY_REQ asked for (R350); one that fails after the
RETRY_REQ has left asks again (log entry 115). -/
def Port.flitBad (p : Port) : Port := { p with discarding := true, retryDue := true }

/-- A DATA flit out of order is discarded (R350). While the port discards already, one whose SEQ does not follow that of the last
discarded flit shows that a replay came without its first flit, and asks again (log entry 115). -/
def Port.outOfOrder (p : Port) (seq : Nat) : Port :=
  let back := match p.seen with
    | some q => seq == q || decide (2048 ≤ (seq + 4096 - q) % 4096)
    | none => false
  { p with discarding := true, retryDue := p.retryDue || !p.discarding || back, seen := some seq }

/-- DATA_FLIT (R335, R336, R350): the next flit in order is taken, unless the port discards and has not asked for the replay yet. -/
def execDataFlit (p : Nat) (bytes : List Byte) (fec : Nat) (s : State) : Out :=
  if !s.portRuns p then .next s
  else
    let d := s.decodeFlit p fec
    let s := d.1
    if !flitGood bytes d.2 then .next ((s.count 0 (Reg.portLink p) 15 0 1).updPort p Port.flitBad)
    else
      let h := byteField bytes 0 10
      if fieldN h 79 76 != 1 then .next s
      else
        let seq := fieldN h 71 60
        if seq = (s.port p).rxNext ∧ ((s.port p).discarding && (s.port p).retryDue) = false then
          let s := s.updPort p (fun x =>
            { x.heard h with rxNext := (seq + 1) % 4096, ackSeq := some seq, discarding := false, seen := none })
          .next (s.segment p (fieldN h 75 72) ((bytes.drop 10).take 242))
        else .next (s.updPort p (fun x => x.outOfOrder seq))

/-- IDLE_FLIT (R334, R350). -/
def execIdleFlit (p : Nat) (bytes : List Byte) (fec : Nat) (s : State) : Out :=
  if !s.portRuns p then .next s
  else
    let d := s.decodeFlit p fec
    let s := d.1
    let h := byteField bytes 0 10
    if !flitGood bytes d.2 then .next (s.updPort p Port.flitBad)
    else if fieldN h 79 76 == 0 then .next (s.updPort p (fun x => x.heard h)) else .next s

/-- A module fault declared under function 7 (R415); MODULE_FAULT runs it. Decision data 1 names this action. -/
def State.escalateModule (s : State) : State :=
  let (s, waits) := s.decisionPoint 7 0 1
  if waits then s else { s with boot := { s.boot with faultDue := true } }

/-- A message taken back from a faulted port (R355): whole, RESENT set once any flit of it has left. -/
def TxMsg.back (t : TxMsg) : Msg := { t.msg with resent := t.msg.resent || t.sent != 0, moved := true, pin := none }

/-- A message no longer bound to a port that is not up. -/
def Msg.unpin (m : Msg) (p : Nat) : Msg := if m.pin = some p then { m with pin := none } else m

/-- What a port that loses all its state loses (R374; log entry 51): its messages, with the drains they belong to and the words of
which none was sent; a message bound to it is free again. -/
def State.losePort (s : State) (p : Nat) : State :=
  let tx := (s.port p).tx
  let cut := tx.filter (fun t => t.msg.kind == 7)
  let s := { s with
    drains := s.drains.map (fun (d : Drain) => if cut.any (fun t => t.msg.fn == d.fn) then { d with lost := true } else d)
    egress := s.egress.map (·.unpin p) }
  (tx.filter (fun t => t.msg.kind == 6 && t.sent == 0)).foldl (fun s t => s.unsend t.msg) s

/-- PORT_FAILOVER (R351, R355): state FAILED, partial ingress discarded, accepted messages back to their issuers ahead of
the others, PORT_DOWN on the lowest-numbered up port. Each resent NMA_REQ is counted and flags its tenant (R356). A port
fault with no port left up is an event of R415. -/
def State.faultPort (s : State) (p : Nat) (lane : Option Nat) : State :=
  let x := s.port p
  if !x.isUp then s
  else
    let back := x.tx.map TxMsg.back
    let nmas := (x.tx.filter (fun t => t.sent != 0 && t.msg.kind == 3)).map (·.msg)
    let s := s.updPort p (fun x => { x with
      state := .failed, part := [], tx := [], replay := [], retryDue := false, owed := [], carried := []
      faultLane := lane, deciding := true, attempts := 0 })
    let s := s.count 0 (Reg.portState p) 7 0 1
    let waiting := s.egress.map (·.unpin p)
    let moved := waiting.filter (·.moved)
    let other := waiting.filter (fun m => !m.moved)
    let s := { s with egress := moved ++ back ++ other }
    let s := nmas.foldl (fun s m => (s.count m.fn Reg.chordRemoteCounts 31 16 1).drop m.fn 7 0) s
    match s.upPorts with
    | [] => s.escalateModule
    | q :: _ => s.sendCtrl 1 s.selfPos p (some q)

/-- RETRY_REQ received (R350): every unacknowledged flit is replayed in order; a replay requested again before it
completes, or the ninth within 10 µs (250 cycles), faults the port (R351). -/
def execRetryReq (p : Nat) (bytes : List Byte) (fec : Nat) (s : State) : Out :=
  if !s.portRuns p then .next s
  else
    let d := s.decodeFlit p fec
    let s := d.1
    let h := byteField bytes 0 10
    if !flitGood bytes d.2 then .next (s.updPort p Port.flitBad)
    else if fieldN h 79 76 != 2 then .next s
    else
      let busy := !(s.port p).replay.isEmpty
      let s := s.updPort p (fun x => x.heard h)
      let x := s.port p
      let all := (x.tx.flatMap (·.unacked)).mergeSort (fun a b => decide ((a + 4096 - x.txSeq) % 4096 ≤ (b + 4096 - x.txSeq) % 4096))
      let times := s.now :: x.replayTimes.filter (fun t => decide (s.now < t + 250))
      if busy || decide (8 < times.length) then .next (s.faultPort p none)
      else .next ((s.updPort p (fun x => { x with replay := all, replayTimes := times })).count 0 (Reg.portErr p) 31 16 1)

/-- LINK_SILENCE_TIMEOUT (R351). -/
def execLinkSilenceTimeout (p : Nat) (s : State) : Out := .next (s.faultPort p none)

/-- LANE_SIGNAL_LOSS of an active lane (R351). -/
def execLaneSignalLoss (p lane : Nat) (s : State) : Out :=
  if (s.port p).lanes.testBit lane && decide (lane < 4) then .next (s.faultPort p (some lane)) else .next s

/-- Retraining of a port becomes due (R357): at reduced width on the given lane pair, or at full width. -/
def State.retrainPort (s : State) (p : Nat) (reduced hi : Bool) : State :=
  s.updPort p (fun x => { x with
    deciding := false, trainDue := true, retrain := true, reduced := reduced, reducedHi := hi, shut := false
    attempts := if x.trainDue && x.retrain then x.attempts else 0 })

/-- The hardware-mode action of R357: reduced width on the other lane pair after a fault traced to one lane. -/
def State.failoverAction (s : State) (p : Nat) : State :=
  match (s.port p).faultLane with
  | some l => s.retrainPort p true (decide (l < 2))
  | none => s.retrainPort p false false

/-- Whether a message belongs to step 5 of a failover: it was moved, or is the PORT_DOWN (R355). -/
def Msg.failover (m : Msg) : Bool := m.moved || (m.kind == 0 && field m.hdr 127 120 == 1)

/-- Whether step 5 of a failover is in progress: moved messages or a PORT_DOWN not yet sent, with a port up to send them (R355, R374). -/
def State.failingOver (s : State) : Bool :=
  !s.upPorts.isEmpty && (s.egress.any Msg.failover || s.ports.any (fun e => e.2.tx.any (fun t => t.msg.failover && decide (t.sent < t.msg.segs))))

/-- FAILOVER_DECISION (R357): step 6 of R355, once the moved messages and PORT_DOWN are sent, is reached once a fault; a decision
still pending for the port is replaced (R423). -/
def execFailoverDecision (p : Nat) (s : State) : Out :=
  let x := s.port p
  if x.state != .failed || !x.deciding || s.failingOver then .next s
  else
    let s := s.updPort p (fun x => { x with deciding := false })
    let (s, waits) := s.decisionPoint 1 p 0
    .next (if waits then s else s.failoverAction p)

/-- A training begins (R330). -/
def State.beginTraining (s : State) (p : Nat) : State :=
  let force := (s.reg 0 Reg.chordCfg).getLsbD 31
  s.updPort p (fun x => { x with state := .training, trainDue := false, ordered := false, adv := if force then 1 else 5 })

/-- PORT_TRAINING (R330): a training that is due begins. A retraining attempt waits, in host-assisted link retraining, for
its command, as a decision of function 2; a later attempt of hardware mode is RETRAIN_ATTEMPT's (R358). -/
def execPortTraining (p : Nat) (s : State) : Out :=
  let x := s.port p
  if !x.trainDue || x.isUp || x.state == .training || !s.portClocked p ||
      !(s.boot.phase == .starting || s.boot.phase == .running) then .next s
  else if !x.retrain || x.ordered then .next (s.beginTraining p)
  else if s.hostAssisted 2 p then
    if s.decisions.any (fun d => d.fn == 2 && d.subject == p) then .next s
    else
      let (s, waits) := s.decisionPoint 2 p 0
      .next (if waits then s else s.beginTraining p)
  else if x.attempts = 0 then .next (s.beginTraining p)
  else .next s

/-- RETRAIN_ATTEMPT (R358): a hardware-mode attempt is due. -/
def execRetrainAttempt (p : Nat) (s : State) : Out :=
  let x := s.port p
  if x.trainDue && x.retrain && !x.isUp && x.state != .training && s.portClocked p && !s.hostAssisted 2 p then .next (s.beginTraining p)
  else .next s

/-- TRAINING_COMPLETE (R330, R331, R358): `partner` is the partner's version set, `grant` the credits it advertises for
VC0 to VC11 and, last, the shared pool. A failed attempt reports DOWN; in hardware mode the third of a retraining leaves the port
DISABLED, and in host-assisted mode each attempt waits for its command. -/
def execTrainingComplete (p : Nat) (ok : Bool) (partner : Nat) (grant : List Nat) (s : State) : Out :=
  let x := s.port p
  if x.state != .training || s.failingOver then .next s
  else if !ok then
    if x.retrain then
      let n := x.attempts + (if s.hostAssisted 2 p then 0 else 1)
      .next (s.updPort p (fun x => { x with
        state := if n < 3 then .down else .disabled, attempts := n, trainDue := decide (n < 3), shut := decide (3 ≤ n) }))
    else .next (s.updPort p (fun x => { x with state := .down }))
  else
    let common := x.adv &&& partner
    if common = 0 then .next (s.updPort p (fun x => { x with state := .noVersion, retrain := false }))
    else
      let version := if common.testBit 2 then 0x12 else 0x10
      let lanes := if x.reduced then (if x.reducedHi then 0xC else 0x3) else 0xF
      let vcs := if version = 0x10 then 8 else 12
      let s := s.updPort p (fun x => { x with
        state := if x.reduced then .upReduced else .up
        version, lanes, txSeq := 0, rxNext := 0, ackSeq := none, discarding := false, retryDue := false, replay := []
        seen := none, carried := [], replayTimes := [], owed := [], used := [], slot := 0, part := [], attempts := 0, faultLane := none
        retrain := false, sentFlits := 0, gotFlits := 0, fecNow := (0, 0)
        credits := (List.range vcs).map (fun v => (v, grant.getD v 0))
        sharedCredits := if version = 0x10 then 0 else grant.getD 12 0
        rx := x.rx.map (fun m => { m with flits := 0, shared := 0 }) })
      let s := { s with out := { s.out with grants := (p, advertised version) :: s.out.grants } }
      let s := if x.retrain then
          (bitsOf (BitVec.ofNat 4 lanes)).foldl (fun s n => s.life! (0x80 + 4 * p + n) 1) (s.count 0 (Reg.portState p) 15 8 1)
        else s
      .next (s.sendCtrl 3 s.selfPos p none)

/-- A write of PORT_CMD (R357, R358): the answer of a waiting decision of functions 1 and 2, and a command to a port that is
not up. An answer that comes when the wait is over counts as STALE and does nothing (R408, R423). -/
def writePortCmd (s : State) (v : Word) : State :=
  let p := field v 5 0
  let cmd := field v 9 8
  let mine (d : Decision) : Bool := (d.fn == 1 || d.fn == 2 && cmd != 3) && d.subject == p
  if 36 ≤ p || cmd = 0 then s
  else if s.decisions.any (fun d => mine d && decide (d.due ≤ s.now)) then s.count 0 Reg.decPending 31 24 1
  else
    let s := { s with decisions := s.decisions.filter (fun (d : Decision) => !mine d) }
    let x := s.port p
    if x.isUp || x.state == .training then s
    else match cmd with
      | 1 => (s.retrainPort p false false).updPort p (fun x => { x with ordered := true })
      | 2 => (s.retrainPort p true (match x.faultLane with | some l => decide (l < 2) | none => false)).updPort p
          (fun x => { x with ordered := true })
      | _ => s.updPort p (fun x => { x with deciding := false, trainDue := false })

/-- A port whose state is lost: what a third failed attempt disabled stays so (R358). -/
def Port.dark (p : Port) : Port := { shut := p.shut }

/-- Every port loses its state (R374, R477). -/
def State.darkPorts (s : State) : State :=
  let s := (List.range 36).foldl State.losePort s
  { s with ports := s.ports.map (fun (e : Nat × Port) => (e.1, e.2.dark)) }

/-- All 36 ports in reset, their training due (R330), but for those a third failed attempt disabled (R358). -/
def State.freshPorts (s : State) : List (Nat × Port) :=
  (List.range 36).map (fun p => (p, { (s.port p).dark with trainDue := !(s.port p).shut }))

end Sys2Proof.Machine
end

