-- ==== Sys2Proof/Machine/Ingress.lean ====
section
/-! DEFINITION. Received Chord messages: checks (R347), remote reads and writes (R348, R349), accumulates (R317 to R319,
R276), responses (R343, R339, R527), the buddy's receive region (R410, R412), control messages and positions (R352, R359). -/

namespace Sys2Proof.Machine

/-- Whether an agent's access to `n` bytes from a device address may run now (R274, R306, R307, R385), with what it asks for
otherwise. -/
def State.clearOfHost (s : State) (d n : Nat) (write : Bool) : State × Bool :=
  match s.agentGate d n write with
  | some t => (t, false)
  | none => (s, true)

/-- Writes carried words from any device address: uncorrectable ones poison the words they touch (R325). -/
def State.agentWriteWords (s : State) (a : Nat) (l : List Code) : State :=
  if a % 16 = 0 then s.agentWriteCodes a l
  else (((l.zipIdx).flatMap (fun (c, i) =>
    sectorWrites (a + 16 * i) (leBytes 16 (codeData c).toNat) (lostWord c))).foldl coalesce []).foldl State.agentPut s

/-- The first message of a VC in a port's ingress buffer; none comes out of a gated island (R453). -/
def State.headRx (s : State) (p vc : Nat) : Option RxMsg :=
  if s.ioClocked (ioOfPort p) then (s.port p).rx.find? (fun r => r.msg.vc == vc) else none

/-- The first message of a VC leaves the ingress buffer and its flits are freed (R342). -/
def State.takeRx (s : State) (p vc : Nat) : State :=
  s.updPort p (fun x =>
    match x.rx.findIdx? (fun r => r.msg.vc == vc) with
    | none => x
    | some i =>
      match x.rx[i]? with
      | none => x
      | some r => { x with rx := x.rx.eraseIdx i }.freed vc r.flits r.shared)

/-- Dropped as misrouted (R347). -/
def State.misrouted (s : State) (p vc : Nat) : State := (s.takeRx p vc).count 0 Reg.chordErr 15 0 1

/-- The device addresses of `n` sectors from a tenant address, when every one is mapped. -/
def State.sectorAddrs (s : State) (j a n : Nat) : Option (List Nat) :=
  (List.range n).mapM (fun i => s.translate j (a + 128 * i))

/-- A response to a VC1 request (R338, R339, R353). -/
def response (m : Msg) (j kind status : Nat) (words : List Code) : Msg :=
  { fn := j, dst := m.src, src := m.dst, kind, vc := 2
    hdr := hdrWord kind 0 (if kind = 4 then field m.hdr 79 76 else 0) (field m.hdr 63 48) status 0 0 0 0 0 0
    words, stripe := m.stripe }

/-- The checks of R347 on a VC1 request: none when it passes, else the status of its refusal. `n` sectors from ADDR. -/
def State.vc1Check (s : State) (m : Msg) (j n : Nat) : Option Nat :=
  let a := field m.hdr 127 80
  if (s.fn j).resetting then some 4
  else if m.src < s.regF 0 (Reg.chordFnPeerBase j) 19 0 || s.regF 0 (Reg.chordFnPeerLimit j) 19 0 < m.src then some 2
  else if (s.sectorAddrs j a n).isNone then some 1
  else none

/-- Counts a refusal in DENIED (R347, R375); PF0 has no such register. -/
def State.denied (s : State) (j status : Nat) : State :=
  if j != 0 && (status == 1 || status == 2) then s.count j Reg.chordRemoteCounts 15 0 1 else s

/-- Refuses a VC1 request (R347). -/
def State.refuseVc1 (s : State) (p : Nat) (m : Msg) (j kind status : Nat) : State :=
  ((s.takeRx p 1).denied j status).send (response m j kind status [])

/-- RD_REQ (R347, R349): accepted when its response is reserved on the function's VC2 queue. -/
def execRdReq (p : Nat) (s : State) : Out :=
  match s.headRx p 1 with
  | none => .next s
  | some r =>
    let m := r.msg
    if m.kind != 1 then .next s
    else match s.fnOfPos m.dst with
      | none => .next (s.misrouted p 1)
      | some j =>
        let n := field m.hdr 79 76 + 1
        match s.vc1Check m j n with
        | some st => .next (s.refuseVc1 p m j 4 st)
        | none =>
          match s.translate j (field m.hdr 127 80) with
          | none => .next s
          | some d =>
            let d := d / 128 * 128
            match s.agentGate d (128 * n) false with
            | some s => .next s
            | none =>
              let (s1, codes) := s.agentCodes d (128 * n)
              let answer := response m j 4 0 codes
              match s.portFor answer with
              | none => .next s
              | some q => if s.canAccept q answer then .next ((s1.takeRx p 1).enterPort q answer) else .next s

/-- WR_REQ (R347): one that passes stays in the buffer until its sink entries are claimed (R348). -/
def execWrReq (p : Nat) (s : State) : Out :=
  match s.headRx p 1 with
  | none => .next s
  | some r =>
    let m := r.msg
    if m.kind != 2 || r.checked then .next s
    else match s.fnOfPos m.dst with
      | none => .next (s.misrouted p 1)
      | some j =>
        match s.vc1Check m j (field m.hdr 79 76 + 1) with
        | some st => .next (s.refuseVc1 p m j 5 st)
        | none => .next (s.updPort p (fun x => { x with
            rx := x.rx.map (fun q => if q.msg = m then { q with checked := true } else q) }))

/-- The receive region of a function (R410): tenant base and length. -/
def State.rxRegion (s : State) (j : Nat) : Nat × Nat :=
  ((s.reg 0 (Reg.buddyRxBase j)).toNat * 65536, s.regF 0 (Reg.buddyRxLen j) 23 0 * 65536)

/-- CKPT (R347, R410): one outside the receive region or the map is dropped and counted in DENIED. -/
def execCkpt (p : Nat) (s : State) : Out :=
  match s.headRx p 11 with
  | none => .next s
  | some r =>
    let m := r.msg
    if r.checked then .next s
    else match s.fnOfPos m.dst with
      | none => .next (s.misrouted p 11)
      | some j =>
        let n := field m.hdr 79 76 + 1
        let g := s.rxRegion j
        let off := field m.hdr 127 80
        if g.2 < off + 128 * n || (s.sectorAddrs j (g.1 + off) n).isNone then .next ((s.takeRx p 11).denied j 1)
        else .next (s.updPort p (fun x => { x with
          rx := x.rx.map (fun q => if q.msg = m then { q with checked := true } else q) }))

/-- What the receiver keeps of a CKPT (R412): a new STEP_NO restarts; the marker sector gives the count; COMPLETE once the
bytes are all there and OVERLAP is 0. -/
def State.noteCkpt (s : State) (j step off : Nat) (words : List Code) : State :=
  let x := (s.fn j).rx
  let x : BuddyRx := if x.step = step then x else { step := step }
  let complete := x.step == (s.fn j).rx.step && (s.reg 0 (Reg.buddyRxStatus j)).getLsbD 31
  let marker := off + 128 == (s.rxRegion j).2 && words.length == 8
  let d := (Sector.ofCodes words).bytes
  let x : BuddyRx := if marker then { x with want := some (byteField d 4 8), overlap := (byteField d 12 4).testBit 1 }
    else { x with bytes := x.bytes + 16 * words.length }
  let complete := complete || (x.want == some x.bytes && !x.overlap)
  let s := s.updFn j (fun f => { f with rx := x })
  s.setReg 0 (Reg.buddyRxStatus j) (BitVec.ofNat 32 ((if complete then 2 ^ 31 else 0) + step % 2 ^ 31))

/-- Whether the sinks have an entry for each of `n` sectors from a device address (R304, R348). -/
def State.sinksFor (s : State) (d n : Nat) : Bool :=
  (s.pc (engineOf (d / 128))).roomFor ((List.range n).map (d / 128 + ·))

/-- Whether a received word is uncorrectable and not the canonical poisoned one, which is not counted again (R322). -/
def newlyLost (c : Code) : Bool := lostWord c && !isPoison (codeData c) (codeMark c)

/-- INGRESS_WRITE_ACCEPT (R348): sink entries claimed for a checked WR_REQ or CKPT, which is committed (R305) and answered.
Uncorrectable words are committed poisoned and counted. -/
def State.ingressWrite (s : State) (p vc : Nat) : Option State :=
  match s.headRx p vc with
  | none => none
  | some r =>
    if !r.checked then none
    else match s.fnOfPos r.msg.dst with
      | none => some (s.misrouted p vc)
      | some j =>
        let m := r.msg
        let n := field m.hdr 79 76 + 1
        let off := field m.hdr 127 80
        let ta := if vc = 11 then (s.rxRegion j).1 + off else off
        match s.translate j ta with
        | none => some (s.takeRx p vc)
        | some d =>
          let d := d / 128 * 128
          match s.agentGate d (128 * n) true with
          | some s => some s
          | none =>
            if !s.sinksFor d n then none
            else
              let s := s.agentWriteCodes d m.words
              let s := s.count 0 Reg.chordErr 31 24 (m.words.filter newlyLost).length
              let s := s.takeRx p vc
              if vc = 11 then some (s.noteCkpt j (field m.hdr 39 8) off m.words)
              else some (s.send (response m j 5 0 []))

def execIngressWriteAccept (p : Nat) (s : State) : Out :=
  match s.ingressWrite p 1 with
  | some t => .next t
  | none => .next ((s.ingressWrite p 11).getD s)

/-- Elements of an accumulate TYPE (R317): bits. -/
def nmaBits (type : Nat) : Nat := if type = 5 then 16 else 32

/-- Whether an OP and TYPE of an accumulate are valid (R317). -/
def nmaValid (op type : Nat) : Bool := decide (op ≤ 2) && (type == 1 || type == 2 || type == 5)

/-- One element of an accumulate (R176, R317). -/
def nmaElem (op type a b : Nat) : Nat :=
  match type with
  | 1 =>
    let x := signedN 32 a; let y := signedN 32 b
    if op = 0 then (a + b) % 2 ^ 32 else if op = 1 then (if x < y then b else a) else (if y < x then b else a)
  | 5 =>
    let x := widenBf16 a; let y := widenBf16 b
    if op = 0 then toBf16 (addF32 x y) else toBf16 (extreme (op == 1) [x, y]).1
  | _ =>
    let x : Word := BitVec.ofNat 32 a; let y : Word := BitVec.ofNat 32 b
    if op = 0 then (addF32 x y).toNat else (extreme (op == 1) [x, y]).1.toNat

/-- The granule an accumulate leaves (R317 to R319), and the words that count as dropped: a word poisoned in the request or
in the cells is not updated. -/
def nmaSector (n : Nma) (old : Sector) : Sector × Nat :=
  let b := nmaBits n.type
  let per := 128 / b
  let lost (w : Nat) : Bool := n.data.pois.getLsbD w || old.pois.getLsbD w
  let word (w : Nat) : Nat :=
    let o := (old.data.toNat >>> (128 * w)) % 2 ^ 128
    let v := (n.data.data.toNat >>> (128 * w)) % 2 ^ 128
    if lost w then o
    else (List.range per).foldl (fun x e =>
      let a := (o >>> (b * e)) % 2 ^ b
      let r := if n.mask.getLsbD (per * w + e) then nmaElem n.op n.type a ((v >>> (b * e)) % 2 ^ b) else a
      x + r <<< (b * e)) 0
  ({ data := BitVec.ofNat 1024 ((List.range 8).foldl (fun x w => x + word w <<< (128 * w)) 0), pois := old.pois },
   ((List.range 8).filter lost).length)

/-- Accumulates from Chord ingress a pseudo-channel holds (R349). -/
def State.chordNmas (s : State) (k : Nat) : Nat := ((s.pc k).nma.filter (fun n => n.reply.isSome)).length

/-- Forwards an accumulate to its engine (R276): the granule's sector, if resident, is written back when dirty, and
invalidated. -/
def State.forwardNma (s : State) (n : Nma) : State :=
  let sector := n.addr / 128
  let bit : BitVec 16 := BitVec.ofNat 16 (2 ^ (sector % 16))
  let s := match s.lineWay (sector / 16) with
    | none => s
    | some w =>
      let s := s.writeBackSectors (sector / 16) (w.dirty &&& w.valid &&& bit)
      s.updLine (sector / 16) (fun w => { w with valid := w.valid &&& ~~~ bit, dirty := w.dirty &&& ~~~ bit })
  let k := engineOf sector
  let ahead := ((s.pc k).inbound.filter (fun w => w.sector == sector)).length
  s.updPc k (fun p => { p with nma := p.nma ++ [{ n with ahead := ahead, since := s.now }] })

/-- Whether a Facet's store to a sector is accepted and not yet acknowledged (R299). -/
def State.storeInFlight (s : State) (sector : Nat) : Bool :=
  s.reqs.any (fun q => (q.kind == .store || q.kind == .tmStore) && (q.stage == .accepted || q.stage == .served) &&
    q.line == sector / 16 && q.sectors.getLsbD (sector % 16))

/-- NMA_REQ (R347, R349): accepted when its pseudo-channel holds fewer than 16 accumulates from Chord ingress and its sink has
room (R306), and no Facet store to its sector is in flight (R299). -/
def execNmaReq (p : Nat) (s : State) : Out :=
  match s.headRx p 1 with
  | none => .next s
  | some r =>
    let m := r.msg
    if m.kind != 3 then .next s
    else match s.fnOfPos m.dst with
      | none => .next (s.misrouted p 1)
      | some j =>
        let op := field m.hdr 79 78
        let type := field m.hdr 77 74
        match s.vc1Check m j 1 with
        | some st => .next (s.refuseVc1 p m j 5 st)
        | none =>
          if !nmaValid op type then .next (s.refuseVc1 p m j 5 3)
          else match s.translate j (field m.hdr 127 80) with
            | none => .next s
            | some d =>
              let d := d / 128 * 128
              match s.agentGate d 128 true with
              | some s => .next s
              | none =>
                if 16 ≤ s.chordNmas (engineOf (d / 128)) || s.storeInFlight (d / 128) ||
                    !(s.pc (engineOf (d / 128))).roomFor [d / 128] then .next s
                else
                  let mask := match m.words with | c :: _ => (codeData c).extractLsb' 0 64 | [] => 0
                  let n : Nma := { addr := d, op, type, mask, data := Sector.ofCodes (m.words.drop 1), ordered := false
                                   vf := j, reply := some (m.src, field m.hdr 63 48), stripe := m.stripe
                                   taddr := field m.hdr 127 80 }
                  .next ((s.takeRx p 1).forwardNma n)

/-- An engine's oldest accumulate (R318, R319): one indivisible read, correct, compute, encode and write of the granule, after the
sector's sink entry; the request is then acknowledged. -/
def State.applyNma (s : State) (e : Nat) : State :=
  match (s.pc e).nma with
  | [] => s
  | n :: rest =>
      let sector := n.addr / 128
      let s := s.updPc e (fun p => { p with nma := rest })
      let s := match (s.pc e).sink.find? (fun w => w.sector == sector) with
        | none => s
        | some w => (s.updPc e (fun p => { p with sink := p.sink.filter (fun x => x.sector != sector) })).retire w
      let ws := s.readCells sector []
      let r := nmaSector n (s.heldSector sector ws)
      let s := s.countCells sector ws
      let s := { s with hbm := { s.hbm with cells := s.hbm.cells.putSector sector r.1 } }
      -- bytes committed after it stand in the sink's entry from now on
      let s := match n.after with
        | some w => s.updPc e (fun p => p.commit w)
        | none => s
      let s := if r.2 = 0 then s else s.drop n.vf 5 r.2
      let s := if n.ordered then s else s.count n.vf Reg.memState 15 0 1
      let s := s.noteOverlap n.vf [n.taddr]
      match n.reply, s.posOf n.vf with
      | some (dst, tag), some src =>
        s.send { fn := n.vf, dst, src, kind := 5, vc := 2, hdr := hdrWord 5 0 0 tag 0 0 0 0 0 0 0, words := [], stripe := n.stripe }
      | _, _ => s

/-- NMA_APPLY (R318): in a service window. -/
def execNmaApply (k pc : Nat) (s : State) : Out :=
  let e := 64 * k + pc
  match (s.pc e).nma with
  | [] => .next s
  | n :: _ =>
    if !s.inService e || n.ahead != 0 || (s.pc e).heldByCopy (n.addr / 128) then .next s else .next (s.applyNma e)

/-- The REMOTE entry a response answers (R338, R339). -/
def State.remote? (s : State) (j tag : Nat) : Option Remote := s.remotes.find? (fun r => r.fn == j && r.tag == tag)

/-- A REMOTE entry ends with a REMOTE_STATUS (R392, R393). -/
def State.endRemote (s : State) (r : Remote) (status : Nat) : State :=
  let s := { s with remotes := s.remotes.filter (fun (x : Remote) => !(x.fn == r.fn && x.tag == r.tag)) }
  s.completeEntry r.fn r.ring r.seq { status := if status = 0 then 0 else 0x43, remote := status }

/-- Landing space for responses in flight (R343), of the 2 MiB of each of the four engines (log entry 116). -/
def landingBytes : Nat := 4 * 2 ^ 21

/-- Bytes of landing space an entry holds reserved until it ends: its whole response. -/
def Remote.landing (r : Remote) : Nat := if r.kind = 1 then 128 * (r.len + 1) else 0

/-- Whether landing space for a further response of `n` bytes is free. -/
def State.landingFree (s : State) (n : Nat) : Bool := decide ((s.remotes.map Remote.landing).sum + n ≤ landingBytes)

/-- A response in its landing space is written to the entry's local area by CE (j mod 4) (R391, R453), once the lines allow it (R274,
R306, R385), and the entry ends. -/
def State.land (s : State) (e : Remote) : State :=
  match e.landed with
  | none => s
  | some words =>
    match s.translate e.fn e.laddr with
    | none => s.endRemote e 0
    | some d =>
      if !s.ceClocked e.fn then s
      else
      let (s, clear) := s.clearOfHost d (16 * words.length) true
      if !clear then s
      else ((s.agentWriteWords d words).count 0 Reg.chordErr 31 24 (words.filter newlyLost).length).endRemote e 0

/-- Every response in its landing space (R343). -/
def State.landAll (s : State) : State := s.remotes.foldl (fun s e => s.land e) s

/-- RD_RESP (R343): taken into its landing space at once, and written from there; one that answers no entry, or one already
answered, is discarded (R356, R527). Given with no response in the buffer, it writes those that had to wait. -/
def execRdResp (p : Nat) (s : State) : Out :=
  match s.headRx p 2 with
  | none => .next s.landAll
  | some r =>
    let m := r.msg
    if m.kind != 4 then .next s.landAll
    else match s.fnOfPos m.dst with
      | none => .next (s.misrouted p 2)
      | some j =>
        let s := s.takeRx p 2
        match s.remote? j (field m.hdr 63 48) with
        | none => .next s
        | some e =>
          let status := field m.hdr 47 40
          if e.kind != 1 || e.landed.isSome then .next s
          else if status != 0 then .next (s.endRemote e status)
          else
            let e' : Remote := { e with landed := some m.words }
            .next ({ s with remotes := s.remotes.map (fun (x : Remote) => if x = e then e' else x) }.land e')

/-- ACK (R339). -/
def execAck (p : Nat) (s : State) : Out :=
  match s.headRx p 2 with
  | none => .next s
  | some r =>
    let m := r.msg
    if m.kind != 5 then .next s
    else match s.fnOfPos m.dst with
      | none => .next (s.misrouted p 2)
      | some j =>
        match s.remote? j (field m.hdr 63 48) with
        | some e => .next (if e.kind = 1 then s.takeRx p 2 else (s.takeRx p 2).endRemote e (field m.hdr 47 40))
        | none => .next (s.takeRx p 2)

/-- REMOTE_TIMEOUT (R527). -/
def execRemoteTimeout (j tag : Nat) (s : State) : Out :=
  match s.remote? j tag with
  | none => .next s
  | some r =>
    let limit := (s.reg j Reg.collTimeout).toNat
    if limit = 0 || s.now < r.since + 1024 * limit || r.landed.isSome then .next s else .next (s.endRemote r 5)

/-- A control message (R338): of a position of this module; the manual gives the module no action on one. -/
def State.takeCtrl (s : State) (p code : Nat) : State :=
  match s.headRx p 0 with
  | none => s
  | some r =>
    if field r.msg.hdr 127 120 != code then s
    else if (s.fnOfPos r.msg.dst).isNone then s.misrouted p 0 else s.takeRx p 0

def execPortDown (p : Nat) (s : State) : Out := .next (s.takeCtrl p 1)
def execPositionClaim (p : Nat) (s : State) : Out := .next (s.takeCtrl p 2)
def execPortUp (p : Nat) (s : State) : Out := .next (s.takeCtrl p 3)

/-- Takes a position for a function: stored, and claimed on VC0 of every up port (R359). -/
def State.takePosition (s : State) (j : Nat) (v : Word) : State :=
  let s := s.setReg 0 (Reg.chordFnPos j) ((v &&& 0x800FFFFF) ||| (s.reg 0 (Reg.chordFnPos j) &&& 0x40000000))
  if v.getLsbD 31 then s.upPorts.foldl (fun s p => s.sendCtrl 2 (field v 19 0) p (some p)) s else s

/-- A write of CHORD_FN_POS (R352): refused when another function holds the position it names, or when VFj is enabled and its
position valid, whatever else the write says (log entry 43). -/
def writeChordFnPos (s : State) (j : Nat) (v : Word) : State :=
  let s := if v.getLsbD 30 then s.setRegF 0 (Reg.chordFnPos j) 30 30 0 else s
  let held := (List.range 17).any (fun k => k != j && s.posOf k == some (field v 19 0))
  if held || (j != 0 && (s.posOf j).isSome && s.enabled j) then s.setRegF 0 (Reg.chordFnPos j) 30 30 1
  else s.takePosition j v

end Sys2Proof.Machine
end

