-- ==== Sys2Proof/Machine/Collective.lean ====
section
/-! DEFINITION. The collective engines: schedules (R362 to R366), messages (R361, R367), poison (R368), timeouts (R369),
low-rank exchange (R370) and digests (R371 to R373). -/

namespace Sys2Proof.Machine

/-- Bounds of chunk `c` of `count` elements over `n` members (R362). -/
def chunk (count n c : Nat) : Nat × Nat := (c * count / n, (c + 1) * count / n)

/-- Levels of the tree over `n` ranks: the least L with 2^L ≥ n. -/
def levels (n : Nat) : Nat := ((List.range 21).find? (fun l => decide (n ≤ 2 ^ l))).getD 20

/-- Whether an operation reduces (R360): ALLREDUCE, REDUCE_SCATTER, LOWRANK. -/
def reducing (op : Nat) : Bool := op == 0 || op == 1 || op == 7

/-- RING (R363): steps 1 to N − 1 reduce, steps N to 2N − 2 gather. -/
def ringPlan (op count n q : Nat) : List Action :=
  let right := (q + 1) % n
  let left := (q + n - 1) % n
  let part (c : Nat) : List (Nat × Nat) := [chunk count n (c % n)]
  let reduce := (List.range (n - 1)).flatMap (fun i =>
    let t := i + 1
    [{ send := true, peer := right, step := t, parts := part (q + n - t), f32 := true : Action },
     { send := false, peer := left, step := t, parts := part (q + 2 * n - 1 - t), f32 := true, mode := 2 }])
  let gather := (List.range (n - 1)).flatMap (fun u =>
    [{ send := true, peer := right, step := n + u, parts := part (q + n - u), f32 := false : Action },
     { send := false, peer := left, step := n + u, parts := part (q + 2 * n - 1 - u), f32 := false }])
  if op = 1 then reduce else reduce ++ gather

/-- TREE (R364): up the pairwise tree to rank 0, then down it. The steps down go on counting (log entry 45). -/
def treePlan (count n q : Nat) : List Action :=
  let all : List (Nat × Nat) := [(0, count)]
  let lv := levels n
  let up := (List.range lv).flatMap (fun l =>
    let h := 2 ^ l
    if q % (2 * h) = 0 ∧ q + h < n then [{ send := false, peer := q + h, step := l, parts := all, f32 := true, mode := 1 : Action }]
    else if q % (2 * h) = h then [{ send := true, peer := q - h, step := l, parts := all, f32 := true : Action }]
    else [])
  let down := (List.range lv).reverse.flatMap (fun l =>
    let h := 2 ^ l
    if q % (2 * h) = 0 ∧ q + h < n then
      [{ send := true, peer := q + h, step := 2 * lv - 1 - l, parts := all, f32 := false : Action }]
    else if q % (2 * h) = h then
      [{ send := false, peer := q - h, step := 2 * lv - 1 - l, parts := all, f32 := false : Action }]
    else [])
  up ++ down

/-- HD (R365): rank q exchanges with q xor 2^s; each side keeps the chunks whose bit s is its own; the lower rank's partial
stands on the left. The all-gather runs the steps in reverse. -/
def hdPlan (op count n q : Nat) : List Action :=
  let k := levels n
  -- chunks still held before step s: those that agree with q in bits 0 to s − 1
  let held (s : Nat) : List Nat := (List.range n).filter (fun c => c % 2 ^ s == q % 2 ^ s)
  let parts (l : List Nat) : List (Nat × Nat) := l.map (chunk count n)
  let reduce := (List.range k).flatMap (fun s =>
    let p := q ^^^ 2 ^ s
    [{ send := true, peer := p, step := s, parts := parts ((held s).filter (fun c => c.testBit s != q.testBit s)), f32 := true : Action },
     { send := false, peer := p, step := s, parts := parts ((held s).filter (fun c => c.testBit s == q.testBit s)), f32 := true
       mode := if q < p then 1 else 2 }])
  let gather := (List.range k).reverse.flatMap (fun s =>
    let p := q ^^^ 2 ^ s
    [{ send := true, peer := p, step := 2 * k - 1 - s, parts := parts (held (s + 1)), f32 := false : Action },
     { send := false, peer := p, step := 2 * k - 1 - s, f32 := false
       parts := parts ((List.range n).filter (fun c => c % 2 ^ (s + 1) == p % 2 ^ (s + 1))) }])
  if op = 1 then reduce else reduce ++ gather

/-- The copies of R366. ALLGATHER and ALLTOALL exchange directly between every two ranks under the sender's rank as STEP
(log entry 45); BROADCAST runs down the tree from ROOT. -/
def copyPlan (op count n q peer : Nat) : List Action :=
  let others := (List.range n).filter (· != q)
  match op with
  | 2 =>
    others.map (fun r => { send := true, peer := r, step := q, parts := [(q * count, (q + 1) * count)], f32 := false }) ++
    others.map (fun r => { send := false, peer := r, step := r, parts := [(r * count, (r + 1) * count)], f32 := false })
  | 3 =>
    others.map (fun r => { send := true, peer := r, step := q, parts := [(r * count, (r + 1) * count)], f32 := false }) ++
    others.map (fun r => { send := false, peer := r, step := r, parts := [((n + r) * count, (n + r + 1) * count)], f32 := false })
  | 4 =>
    let rel := (q + n - peer % n) % n
    (List.range (levels n)).reverse.flatMap (fun l =>
      let h := 2 ^ l
      if rel % (2 * h) = 0 ∧ rel + h < n then
        [{ send := true, peer := (q + h) % n, step := l, parts := [(0, count)], f32 := false : Action }]
      else if rel % (2 * h) = h then
        [{ send := false, peer := (q + n - h) % n, step := l, parts := [(0, count)], f32 := false : Action }]
      else [])
  | 5 => [{ send := true, peer := peer, step := 0, parts := [(0, count)], f32 := false }]
  | _ => [{ send := false, peer := peer, step := 0, parts := [(0, count)], f32 := false }]

/-- The schedule of a collective, and the elements written to DST. -/
def Collective.plan (c : Collective) : List Action × (Nat × Nat) :=
  let n := c.members.length
  if reducing c.op then
    (match c.alg with
      | 0 => ringPlan c.op c.count n c.rank
      | 1 => treePlan c.count n c.rank
      | _ => hdPlan c.op c.count n c.rank,
     if c.op = 1 then chunk c.count n c.rank else (0, c.count))
  else
    (copyPlan c.op c.count n c.rank c.peer,
     match c.op with
     | 2 => (0, n * c.count)
     | 3 => (n * c.count, 2 * n * c.count)
     | 5 => (0, 0)
     | _ => (0, c.count))

/-- Elements read from SRC and written to DST (R360, R366). -/
def collExtents (op count n q peer : Nat) : Nat × Nat :=
  let src := match op with | 3 => n * count | 4 => if q = peer then count else 0 | 6 => 0 | _ => count
  let dst := match op with
    | 1 => (chunk count n q).2 - (chunk count n q).1
    | 2 | 3 => n * count
    | 5 => 0
    | _ => count
  (src, dst)

/-- Bytes of an element of TYPE. -/
def Collective.size (c : Collective) : Nat := if c.bf16 then 2 else 4

/-- What takes the place of an element of a poisoned word (R368): +0 in a SUM, an entry that MAX and MIN ignore (R174). The
value of such an element in a copy is free (log entry 46). -/
def State.neutral (s : State) (c : Collective) : State × Word :=
  if reducing c.op then (s, if c.red = 0 then 0 else BitVec.ofNat 32 f32.nanBits)
  else
    let (s, k) := s.free
    (s, if c.bf16 then BitVec.ofNat 32 ((Config.freeWord k).toNat % 65536) else Config.freeWord k)

/-- A pattern of TYPE as the engine keeps it: widened exactly when it is to be reduced (R175). -/
def Collective.keep (c : Collective) (x : Nat) : Word :=
  if reducing c.op && c.bf16 then widenBf16 x else BitVec.ofNat 32 x

/-- An element as a pattern of TYPE: rounded once to BF16 (R175, R366). -/
def Collective.typed (c : Collective) (x : Word) : Nat :=
  if reducing c.op && c.bf16 then toBf16 x else x.toNat

/-- The reduction of two partials (R175, R363). -/
def Collective.combine (c : Collective) (left right : Word) : Word :=
  match c.red with
  | 0 => addF32 left right
  | 1 => (extreme true [left, right]).1
  | _ => (extreme false [left, right]).1

/-- The elements of a list of parts. -/
def partElems (parts : List (Nat × Nat)) : List Nat := parts.flatMap (fun p => (List.range (p.2 - p.1)).map (p.1 + ·))

/-- Packs patterns of `b` bits into 128-bit words. -/
def packWords (b : Nat) (l : List Nat) : List (BitVec 128) :=
  (chunks (128 / b) l).map (fun w => BitVec.ofNat 128 ((w.zipIdx.map (fun (x, i) => (x % 2 ^ b) <<< (b * i))).sum))

/-- The running collective of a function and group: the first one accepted. -/
def State.running (s : State) (j g : Nat) : Option Collective := s.colls.find? (fun c => c.fn == j && c.g == g)

/-- The record of a function and group. -/
def State.collGroup (s : State) (j g : Nat) : CollGroup := agetD s.groupsOf (8 * j + g) {}

/-- Updates the record of a function and group. -/
def State.updColl (s : State) (j g : Nat) (f : CollGroup → CollGroup) : State :=
  { s with groupsOf := aput s.groupsOf (8 * j + g) (f (s.collGroup j g)) }

/-- Replaces the running collective of a function and group. -/
def State.setRunning (s : State) (c : Collective) : State :=
  match s.colls.findIdx? (fun x => x.fn == c.fn && x.g == c.g) with
  | some i => { s with colls := updAt s.colls i (fun _ => c) }
  | none => s

/-- The COLL_ID of the current collective (R361). -/
def State.currentId (s : State) (j g : Nat) : Nat :=
  match s.running j g with | some c => c.id | none => (s.collGroup j g).nextId

/-- Reads SRC into `acc` (R360, R368). None while the host holds lines of it. -/
def State.loadColl (s : State) (c : Collective) : State × Option Collective :=
  let n := c.members.length
  let count := (collExtents c.op c.count n c.rank c.peer).1
  let bytes := count * c.size
  let (s, clear) := s.clearOfHost c.src bytes false
  if !clear then (s, none)
  else
    let (s, data, bad) := s.agentRead c.src bytes
    let s := if bad.isEmpty then s else s.drop c.fn 4 bad.length
    let elems := chunks c.size data
    let r := elems.zipIdx.foldl (fun (acc : State × List Word) (e, i) =>
      if bad.any (fun x => decide (x < c.src + (i + 1) * c.size) && decide (c.src + i * c.size < x + 16)) then
        let (s, x) := acc.1.neutral c
        (s, x :: acc.2)
      else (acc.1, c.keep (leNat e) :: acc.2)) (s, [])
    let vals := r.2.reverse
    let acc := match c.op with
      | 2 => (List.range (n * c.count)).map (fun i => if i / c.count = c.rank then vals.getD (i - c.rank * c.count) 0 else 0)
      | 3 => vals ++ (List.range (n * c.count)).map (fun i => if i / c.count = c.rank then vals.getD i 0 else 0)
      | 4 => if c.rank = c.peer then vals else List.replicate c.count 0
      | 6 => List.replicate c.count 0
      | _ => vals
    let p := c.plan
    (r.1, some { c with loaded := true, acc := acc, todo := p.1, out := p.2 })

/-- Sends one action's elements (R362, R366): messages of at most 207 words, numbered by PIECE. -/
def State.collSend (s : State) (c : Collective) (a : Action) : State × Collective :=
  let b := if a.f32 || !c.bf16 then 32 else 16
  let vals := (partElems a.parts).map (fun i =>
    let x := c.acc.getD i 0
    if a.f32 then x.toNat else c.typed x)
  let msgs := (chunks 207 (packWords b vals)).zipIdx
  let dst := c.members.getD a.peer 0
  let src := (s.posOf c.fn).getD 0
  let s := msgs.foldl (fun s (w, k) => s.send
    { fn := c.fn, dst, src, kind := 6, vc := 3 + c.g
      hdr := hdrWord 6 0 0 0 0 a.step c.id k (if b = 32 then 2 else 5) 0 0
      words := w.map (fun d => packCode d 0), stripe := k % 32 }) s
  (s, { c with stream := c.stream ++ msgs.map (fun (w, k) =>
    { received := false, peer := dst, step := a.step, piece := k, words := w, poisoned := 0 }) })

/-- Takes one action's elements from staging (R361, R367, R368); none while a message is missing. -/
def State.collTake (s : State) (c : Collective) (a : Action) : Option (State × Collective) :=
  let b := if a.f32 || !c.bf16 then 32 else 16
  let elems := partElems a.parts
  let words := ceilDiv elems.length (128 / b)
  let pieces := List.range (ceilDiv words 207)
  let staged := (s.collGroup c.fn c.g).staged
  let mine := pieces.filterMap (fun k => staged.find? (fun m => m.id == c.id && m.step == a.step && m.piece == k))
  if mine.length < pieces.length then none
  else
    let codes := mine.flatMap (·.words)
    let bad := ((codes.take words).filter lostWord).length
    let s := if bad = 0 then s else s.drop c.fn 4 bad
    let s := s.updColl c.fn c.g (fun g => { g with staged := g.staged.filter (fun m => !mine.contains m) })
    let r := elems.zipIdx.foldl (fun (acc : State × List Word) (e, i) =>
      let code := codes.getD (i / (128 / b)) 0
      let (s, x) : State × Word :=
        if lostWord code then acc.1.neutral c
        else
          let bits := ((codeData code).toNat >>> (b * (i % (128 / b)))) % 2 ^ b
          (acc.1, if a.f32 then BitVec.ofNat 32 bits else c.keep bits)
      let old := acc.2.getD e 0
      let new := if a.mode = 0 then x else if a.mode = 1 then c.combine old x else c.combine x old
      (s, acc.2.set e new)) (s, c.acc)
    let stream := mine.map (fun m => ({ received := true, peer := m.src, step := m.step, piece := m.piece
                                        words := m.words.map codeData, poisoned := (m.words.filter lostWord).length } : StreamWords))
    some (r.1, { c with acc := r.2, stream := c.stream ++ stream })

/-- gfmul of R371. -/
def gfmul (a b : BitVec 128) : BitVec 128 :=
  ((List.range 128).foldl (fun (zx : BitVec 128 × BitVec 128) i =>
    let z := if b.getLsbD i then zx.1 ^^^ zx.2 else zx.1
    let x := if zx.2.getLsbD 127 then (zx.2 <<< 1) ^^^ 0x87 else zx.2 <<< 1
    (z, x)) (0, a)).1

/-- The element K of R371. -/
def digestK : BitVec 128 := BitVec.ofNat 128 (2 ^ 127 + 2 ^ 64 + 2 ^ 31 + 2 ^ 3 + 1)

/-- digest of R371. -/
def digest (l : List (BitVec 128)) : BitVec 128 :=
  (l.foldl (fun d w => gfmul (d ^^^ w) digestK) 0) ^^^ BitVec.ofNat 128 l.length

/-- Whether a collective's messages have all left their ports (R369). -/
def State.collLeft (s : State) (c : Collective) : Bool :=
  !s.egress.any (fun m => m.ofColl c) &&
  !s.ports.any (fun e => e.2.tx.any (fun t => t.msg.ofColl c && decide (t.sent < t.msg.segs)))

/-- A collective's messages of which no word has been sent. -/
def State.unsent (s : State) (c : Collective) : List Msg :=
  s.egress.filter (fun m => m.ofColl c && !m.resent) ++
  s.ports.flatMap (fun e => (e.2.tx.filter (fun t => t.msg.ofColl c && t.sent == 0 && !t.msg.resent)).map (·.msg))

/-- Drops a collective's messages of which no word has been sent. -/
def State.dropUnsent (s : State) (c : Collective) : State :=
  { s with egress := s.egress.filter (fun m => !(m.ofColl c && !m.resent))
           ports := s.ports.map (fun e => (e.1, e.2.discard (fun m => m.ofColl c && !m.resent))) }

/-- The words a collective has sent and received (R371): what still waits in egress is not sent; what lies in staging is
received. -/
def State.words (s : State) (c : Collective) : List StreamWords :=
  let waiting := s.unsent c
  let sent := c.stream.filter (fun x => x.received ||
    !waiting.any (fun m => m.dst == x.peer && field m.hdr 95 72 == x.step && field m.hdr 71 48 == x.piece))
  let left := ((s.collGroup c.fn c.g).staged.filter (fun m => m.id == c.id)).map (fun m =>
    ({ received := true, peer := m.src, step := m.step, piece := m.piece, words := m.words.map codeData
       poisoned := (m.words.filter lostWord).length } : StreamWords))
  sent ++ left

/-- The (peer, direction) pairs of a collective (R371, R372): both directions of each peer of its schedule, in rank order, and of any
other peer a word came from; sent before received (log entry 47). -/
def State.digestKeys (s : State) (c : Collective) : List (Nat × Bool) :=
  let all := c.plan.1.map (fun a => c.members.getD a.peer 0) ++ (s.words c).map (·.peer)
  ((distinct c.members).filter (fun p => all.contains p)).flatMap (fun p => [(p, false), (p, true)])

/-- Writes one entry to the digest ring (R372, R373); a slot in the reserved region keeps its content (R500: DESIGN CHOICE, log entry
144). -/
def State.writeDigest (s : State) (bytes : List Byte) : State :=
  let size := s.regF 0 Reg.digestSize 19 0
  let head := s.regF 0 Reg.digestHead 19 0
  if size = 0 then s
  else if (head + 1) % size = s.regF 0 Reg.digestTail 19 0 then s.count 0 Reg.digestHead 31 20 1
  else
    let base := s.regF 0 Reg.digestBaseHi 15 0 * 2 ^ 32 + s.regF 0 Reg.digestBaseLo 31 6 * 64
    let a := base + 64 * head
    (if a + 64 ≤ reservedBase then s.agentWrite a bytes else s).setRegF 0 Reg.digestHead 19 0 ((head + 1) % size)

/-- The entry of one (peer, direction) (R372). -/
def digestBytes (c : Collective) (status : Nat) (all : List StreamWords) (p : Nat) (rx : Bool) : List Byte :=
  let mine := (all.filter (fun x => x.peer == p && x.received == rx)).mergeSort
    (fun a b => decide (a.step < b.step) || (a.step == b.step && decide (a.piece ≤ b.piece)))
  let words := mine.flatMap (·.words)
  leBytes 4 c.id ++ leBytes 1 c.fn ++ leBytes 1 ((if rx then 128 else 0) + 3 + c.g) ++ leBytes 1 status ++
    leBytes 1 0 ++ leBytes 4 p ++ leBytes 4 c.tag.toNat ++ leBytes 8 words.length ++ leBytes 16 (digest words).toNat ++
    leBytes 4 ((mine.map (·.poisoned)).sum) ++ leBytes 20 0

/-- The digest entries of a collective (R371, R372): one per peer and direction. `status` 0 completed, 1 COLL_TIMEOUT, 2 ended by
reset. -/
def State.digestEntries (s : State) (c : Collective) (status : Nat) : List (List Byte) :=
  (s.digestKeys c).map (fun k => digestBytes c status (s.words c) k.1 k.2)

/-- DIGEST_ENTRY_WRITE (R371 to R373). -/
def State.writeDigests (s : State) (c : Collective) (status : Nat) : State := (s.digestEntries c status).foldl State.writeDigest s

/-- What the next `n` digest entries wait for (R274, R306, R385): none when they may be written now. -/
def State.ringGate (s : State) (n : Nat) : Option State :=
  let size := s.regF 0 Reg.digestSize 19 0
  let head := s.regF 0 Reg.digestHead 19 0
  let base := s.regF 0 Reg.digestBaseHi 15 0 * 2 ^ 32 + s.regF 0 Reg.digestBaseLo 31 6 * 64
  if size = 0 then none
  else (List.range (min size n)).findSome? (fun i => s.agentGate (base + 64 * ((head + i) % size)) 64 true)

/-- What the digest entries of a collective wait for: none when they may be written now. -/
def State.digestGate (s : State) (c : Collective) : Option State := s.ringGate (s.digestKeys c).length

/-- Writes the digest entries that the reset of a function owes, as far as their lines allow (R274, R374, R385). -/
def State.flushDigests (s : State) (j : Nat) : Nat → State
  | 0 => s
  | n + 1 =>
    match (s.fn j).owedDigests with
    | [] => s
    | b :: t => match s.ringGate 1 with
      | some s => s
      | none => State.flushDigests ((s.writeDigest b).updFn j (fun f => { f with owedDigests := t })) j n

/-- Releases the staging of a COLL_ID (R369). -/
def State.releaseStaging (s : State) (j g id : Nat) : State :=
  s.updColl j g (fun x => { x with staged := x.staged.filter (fun m => m.id != id), seen := x.seen.filter (fun k => k.1 != id) })

/-- Removes the running collective of a function and group. -/
def State.dropRunning (s : State) (j g : Nat) : State :=
  match s.colls.findIdx? (fun x => x.fn == j && x.g == g) with
  | some i => { s with colls := s.colls.eraseIdx i }
  | none => s

/-- A collective ends (R369, R370, R372, R393): digests, messages not sent dropped, staging released, completion record. A LOWRANK
whose first phase ends well writes its first record and waits for LOWRANK_CONT, its COLL_ID still the current one (R361, R367). -/
def State.endColl (s : State) (c : Collective) (timeout : Bool) : State :=
  let s := if c.wait then s else (s.writeDigests c (if timeout then 1 else 0)).dropUnsent c
  let x : Rec := { status := if timeout then 0x42 else 0, collId := c.id }
  if c.op = 7 && c.phase = 1 && !timeout then
    (s.noteEntry c.fn c.ring c.seq x).setRunning { c with wait := true, stream := [], progressAt := s.now }
  else
    let s := s.releaseStaging c.fn c.g c.id
    let s := if c.op = 7 && c.phase = 1 then s.releaseStaging c.fn c.g ((c.id + 1) % 2 ^ 32) else s
    (s.dropRunning c.fn c.g).completeEntry c.fn c.ring c.seq x

/-- Writes the results to DST as clean words (R366, R368); none while the host holds lines of it. -/
def State.storeColl (s : State) (c : Collective) : State × Bool :=
  let vals := ((c.acc.drop c.out.1).take (c.out.2 - c.out.1)).map c.typed
  let bytes := vals.flatMap (leBytes c.size)
  let (s, clear) := s.clearOfHost c.dst bytes.length true
  if clear then (s.agentWrite c.dst bytes, true) else (s, false)

/-- Runs the running collective of a function and group as far as its messages allow; `fuel` bounds the actions. It ends once its
own messages have left their ports. A collective engine whose island is gated does nothing (R453). -/
def State.runColl (s : State) (j g : Nat) : Nat → State
  | 0 => s
  | n + 1 =>
    match s.running j g with
    | none => s
    | some c =>
      if c.wait || !s.ceClocked g then s
      else if !c.loaded then
        match s.loadColl c with
        | (s, some c) => State.runColl (s.setRunning { c with progressAt := s.now }) j g n
        | (s, none) => s
      else match c.todo with
        | a :: t =>
          if a.send then
            let (s, c) := s.collSend c a
            State.runColl (s.setRunning { c with todo := t }) j g n
          else match s.collTake c a with
            | some (s, c) => State.runColl (s.setRunning { c with todo := t }) j g n
            | none => s
        | [] =>
          if !s.collLeft c then s
          else match s.digestGate c with
            | some s => s
            | none =>
              let (s, ok) := s.storeColl c
              if ok then State.runColl (s.endColl c false) j g n else s

/-- Bound on the actions a group's collectives can take at once. -/
def State.collFuel (s : State) (j g : Nat) : Nat :=
  ((s.colls.filter (fun c => c.fn == j && c.g == g)).map (fun c => 6 * c.members.length + 8)).sum + 8

/-- Runs a group's collectives. -/
def State.pumpColl (s : State) (j g : Nat) : State := s.runColl j g (s.collFuel j g)

/-- Runs the collectives of every group, after the host has let lines go (R385) or an island is clocked again (R453). -/
def State.pumpAll (s : State) : State :=
  (distinct (s.colls.map (fun c => 8 * c.fn + c.g))).foldl (fun s k => s.pumpColl (k / 8) (k % 8)) s

/-- FLIT_TRANSMIT: a collective may end with its last message (R369). -/
def execFlitTransmit (p : Nat) (s : State) : Out := .next (flitTransmit s p).pumpAll

/-- Tenant address and members of a group's table (R361). -/
def State.tableAt (s : State) (j g : Nat) : Nat × Nat :=
  (s.regF j (Reg.collGroupHi g) 15 0 * 2 ^ 32 + s.regF j (Reg.collGroupLo g) 31 6 * 64, s.regF j (Reg.collGroupSize g) 20 0)

/-- What the reading of a member table waits for (R274, R307, R385): none when it may be read now. -/
def State.tableGate (s : State) (j g : Nat) : Option State :=
  match s.translate j (s.tableAt j g).1 with
  | none => none
  | some d => s.agentGate d (4 * (s.tableAt j g).2) false

/-- The member table of a group: positions by rank (R361); none when it cannot be read. -/
def State.memberTable (s : State) (j g : Nat) : State × Option (List Nat) :=
  let n := (s.tableAt j g).2
  let base := (s.tableAt j g).1
  if !(s.reg j (Reg.collGroupSize g)).getLsbD 31 || n = 0 || !s.inOneRegion j base (4 * n) then (s, none)
  else match s.translate j base with
    | none => (s, none)
    | some d =>
      let (s, b, bad) := s.agentRead d (4 * n)
      if bad.isEmpty then (s, some ((chunks 4 b).map (fun x => leNat x % 2 ^ 20))) else (s, none)

/-- The collective of an entry, or the refusals that apply (R360, R265, R392): COLL_INVALID and ENTRY_RANGE. -/
def State.makeColl (s : State) (j g ring seq op alg red : Nat) (bf16 : Bool) (count src dst peer : Nat) (tag : Word)
    (m n r : Nat) : State × Option Collective × List Nat :=
  let (s, table) := s.memberTable j g
  match table with
  | none => (s, none, [0x0A])
  | some members =>
    let size := members.length
    let rank := s.regF j (Reg.collGroupRank g) 19 0
    let lowrank := op == 7
    let bf := bf16 || lowrank
    let bad := decide (size ≤ rank) || s.posOf j != some (members.getD rank 0) ||
      (reducing op && alg == 2 && decide (2 ^ levels size ≠ size)) || (lowrank && (r == 0 || decide (64 < r))) ||
      ((op == 4 || op == 5 || op == 6) && decide (size ≤ peer)) ||
      (5 ≤ g && (s.reg 0 Reg.chordCfg).getLsbD 31)
    if bad then (s, none, [0x0A])
    else
      let b := if bf then 2 else 4
      let cnt := if lowrank then m * r else count
      let ext := if lowrank then (m * r, n * r) else collExtents op count size rank peer
      let at? (a k : Nat) : Option Nat := if k = 0 then some 0 else if s.inOneRegion j a (b * k) then s.translate j a else none
      match at? src ext.1, at? dst ext.2 with
      | some d1, some d2 =>
        (s, some { fn := j, g, id := 0, op, alg, red := if lowrank then 0 else red, bf16 := bf, count := cnt, src := d1
                   dst := if lowrank then d1 else d2, peer, tag, rank, members, ring, seq
                   second := (n * r, d2) }, [])
      | _, _ => (s, none, [2])

/-- An accepted collective joins its group under the next COLL_ID; a LOWRANK takes two (R361, R370). -/
def State.submitColl (s : State) (c : Collective) : State :=
  let id := (s.collGroup c.fn c.g).nextId
  let s := s.updColl c.fn c.g (fun g => { g with nextId := (id + (if c.op = 7 then 2 else 1)) % 2 ^ 32 })
  { s with colls := s.colls ++ [{ c with id := id, progressAt := s.now }] }.pumpColl c.fn c.g

/-- The LOWRANK that waits at the end of phase 1 under a COLL_ID (R370). -/
def State.waitingLowrank (s : State) (j g id : Nat) : Option Collective :=
  match s.running j g with
  | some c => if c.wait && c.id == id then some c else none
  | none => none

/-- A LOWRANK goes on into phase 2 (R370). -/
def State.continueLowrank (s : State) (c : Collective) : State :=
  let s := s.releaseStaging c.fn c.g c.id
  let c : Collective := { c with
    wait := false, phase := 2, id := (c.id + 1) % 2 ^ 32, count := c.second.1, src := c.second.2, dst := c.second.2
    loaded := false, stream := [], progressAt := s.now }
  (s.setRunning c).pumpColl c.fn c.g

/-- COLL (R361, R367): taken, held one ahead, or discarded. -/
def execColl (p : Nat) (s : State) : Out :=
  match (if s.ioClocked (ioOfPort p) then (s.port p).rx.find? (fun r => r.msg.kind == 6) else none) with
  | none => .next s
  | some r =>
    let m := r.msg
    match s.fnOfPos m.dst with
    | none => .next (s.misrouted p m.vc)
    | some j =>
      let g := m.vc - 3
      let s := s.takeRx p m.vc
      let id := field m.hdr 127 96
      let key := (id, field m.hdr 95 72, field m.hdr 71 48)
      let now := s.currentId j g
      if j = 0 then .next s
      else if id != now && id != (now + 1) % 2 ^ 32 then .next (s.count j Reg.collCounts 15 0 1)
      else if (s.collGroup j g).seen.contains key then .next (s.count j Reg.collCounts 31 16 1)
      else
        let s := s.updColl j g (fun x => { x with
          staged := x.staged ++ [{ id := id, step := key.2.1, piece := key.2.2, src := m.src, words := m.words }]
          seen := key :: x.seen })
        .next ((s.collProgress j g id).pumpColl j g)

/-- COLL_TIMEOUT (R369): no message taken or sent for LIMIT units of 1,024 always-on island cycles. -/
def execCollTimeout (j g : Nat) (s : State) : Out :=
  match s.running j g with
  | none => .next s
  | some c =>
    let limit := (s.reg j Reg.collTimeout).toNat
    if limit = 0 || s.now < c.progressAt + 1024 * limit || !s.ceClocked g then .next s
    else match (if c.wait then none else s.digestGate c) with
      | some t => .next t
      | none => .next ((s.endColl c true).pumpColl j g)

end Sys2Proof.Machine
end

