-- ==== Sys2Proof/Machine/Opc.lean ====
section
/-! DEFINITION. The operand cache: tile descriptors (R222 to R226), OLD and OST at the vector port (R228 to R232), and aged
bank requests (R221). -/

namespace Sys2Proof.Machine

/-- An element of `e` bits at a bit address; none when its word is uncorrectable. -/
def Ram.bitsAt (m : Ram) (bit e : Nat) : Option Nat := (m.decode (bit / 128)).map (fun d => (d.toNat >>> (bit % 128)) % 2 ^ e)

/-- Writes elements (bit address, width, value) in order, word by word: a word whose every bit is written is formed afresh,
any other merges under R324. -/
def Ram.putBits (m : Ram) (l : List (Nat × Nat × Nat)) : Ram :=
  let words := distinct (l.map (fun x => x.1 / 128))
  words.foldl (fun m w =>
    let r := (l.filter (fun x => x.1 / 128 == w)).foldl (fun (p : Nat × Nat) x =>
      let k := (2 ^ x.2.1 - 1) <<< (x.1 % 128)
      (p.1 ||| k, (p.2 - (p.2 &&& k)) ||| ((x.2.2 % 2 ^ x.2.1) <<< (x.1 % 128)))) (0, 0)
    if r.1 = 2 ^ 128 - 1 then m.setWord w (BitVec.ofNat 128 r.2) 0
    else match m.decode w with
      | none => m.poison w
      | some d => m.setWord w (BitVec.ofNat 128 ((d.toNat - (d.toNat &&& r.1)) ||| r.2)) 0) m

/-- The OPC of a block; empty when the block is gone. -/
def State.opc (s : State) (f b : Nat) : Ram := ((s.block? f b).map (·.opc)).getD {}

/-- The granules of a block. -/
def State.granules (s : State) (f b : Nat) : Nat := ((s.block? f b).map (·.granules)).getD 0

/-- The descriptor registers of descriptor `d` of a group. -/
def Group.desc (g : Group) (d : Nat) : List Word := (List.range 4).map (fun k => tget g.u (4 * d + k))

/-- The uniform registers of a descriptor, as an operand for R104. -/
def descOp (d n : Nat) : Reg? := { uniform := true, rlx := false, n := n * d, span := n }

/-- Fields of word 1 of OLD, OST and RED.R (R228, R245). -/
def Ins.od (i : Ins) : Nat := field i.w1 63 60
def Ins.rowoff (i : Ins) : Nat := field i.w1 59 47
def Ins.coloff (i : Ins) : Nat := field i.w1 46 34

/-- Registers per lane of OLD and OST (R228). -/
def Ins.cnt (i : Ins) : Nat := 2 ^ field i.w1 33 32

/-- Checks OLD or OST and queues it at the port (R228 to R232). -/
def runVector (f slot : Nat) (store : Bool) (s : State) (g : Group) (i : Ins) : Issue :=
  let a : Reg? := operand i i.ua i.a 1
  let b : Reg? := operand i i.ub i.b 1
  let d : Reg? := { uniform := false, rlx := false, n := i.d, span := i.cnt }
  let own := i.type == 0 && i.mod == 0 && i.c == 0 && !i.ud && field i.w0 4 0 == 0 && decide (field i.w1 33 32 ≤ 2) &&
    field i.w1 31 0 == 0 && a.legal && b.legal
  let top := s.topReg g
  let q := Desc.of (g.desc i.od)
  if !own || (q.esize == 4 && (i.cnt == 1 || i.d % 2 == 1)) then .fault 4 g.live 0
  else if !(a.inRange top && b.inRange top && d.inRange top) then .fault 5 g.live 0
  else
    let lanes := g.lanes i
    if lanes = 0 then .done s (g.next i)
    else if q.malformed none then .fault 10 lanes 0
    else
      let row (l : Nat) : Nat := readOp s f g a l + i.rowoff
      let col (l : Nat) : Nat := readOp s f g b l + i.coloff
      let n := elemsOf i.cnt q.bits
      let bad := maskOf (fun l => lanes.getLsbD l && !(q.holds (row l) (col l + n - 1)))
      if bad != 0 then .fault 11 bad 0
      else if !q.fits (s.granules f g.block) then .fault 11 lanes 0
      else if 8 ≤ (s.facet f).port.length then .hold
      else
        let (s, token) := s.fresh
        let data := if store then (List.range i.cnt).foldl (fun (t : Cells 32) k =>
            (List.range 32).foldl (fun t l => tset t (32 * (i.d + k) + l) (readReg s f g d k l)) t) [] else []
        let op : PortOp :=
          { slot := slot, block := g.block, store := store, desc := g.desc i.od, lanes := lanes
            rows := (List.range 32).map row, cols := (List.range 32).map col, reg := i.d, regs := i.cnt, data := data, token := token }
        let g := if store then g
          else { g with writes := { token := token, vregs := d.vregs, uregs := [], traps := true, lanes := lanes } :: g.writes }
        .done (s.updFacet f (fun x => { x with port := x.port ++ [op] })) (g.next i)

/-- Source registers of OLD and OST. -/
def vectorSources (store : Bool) (i : Ins) : List Nat × List Nat :=
  regSets ([operand i i.ua i.a 1, operand i i.ub i.b 1, descOp i.od 4] ++
    (if store then [{ uniform := false, rlx := false, n := i.d, span := i.cnt }] else []))

/-- OLD (R228). -/
def execOld (f slot : Nat) (s : State) : Out :=
  .next (s.issue f slot (fun i => i.op == 0xC8 && i.fmt == 4) (vectorSources false)
    (fun i => regSets [{ uniform := false, rlx := false, n := i.d, span := i.cnt }]) false
    (fun s g i => runVector f slot false s g i))

/-- OST (R228). -/
def execOst (f slot : Nat) (s : State) : Out :=
  .next (s.issue f slot (fun i => i.op == 0xC9 && i.fmt == 4) (vectorSources true) (fun _ => ([], [])) false
    (fun s g i => runVector f slot true s g i))

/-- The elements an OST writes: ascending lanes, then ascending k, later ones winning (R229). -/
def PortOp.storeBits (o : PortOp) : List (Nat × Nat × Nat) :=
  let e := (Desc.of o.desc).bits
  (bitsOf o.lanes).flatMap (fun l =>
    let v := (List.range o.regs).foldl (fun x k => x + (tget o.data (32 * (o.reg + k) + l)).toNat <<< (32 * k)) 0
    (o.laneBits l).mapIdx (fun k b => (b, e, v >>> (e * k))))

/-- An OLD's lane: its value, and the first poisoned word met. -/
def PortOp.loadLane (o : PortOp) (m : Ram) (l : Nat) : Nat × List Nat :=
  let e := (Desc.of o.desc).bits
  ((o.laneBits l).zipIdx).foldl (fun (p : Nat × List Nat) x =>
    match m.bitsAt x.1 e with
    | some v => (p.1 + v <<< (e * x.2), p.2)
    | none => (p.1, p.2 ++ [x.1 / 128])) (0, [])

/-- Serves an OLD (R229, R232): its destination, the poisoned words counted once each, and the deferred fault. -/
def State.serveOld (s : State) (f : Nat) (o : PortOp) (g : Group) : State :=
  let m := s.opc f o.block
  let res := (bitsOf o.lanes).map (fun l => (l, o.loadLane m l))
  let bad := res.filter (fun r => !r.2.2.isEmpty)
  let words := distinct (bad.flatMap (fun r => r.2.2))
  let s := (if words.isEmpty then s else s.drop g.vf 3 words.length).pathErr m o.words
  let trap := !bad.isEmpty && (s.reg g.vf Reg.execOptions).getLsbD 0
  let r : Reg? := { uniform := false, rlx := false, n := o.reg, span := o.regs }
  let p := res.foldl (fun (p : State × Group) x => writeOp p.1 f p.2 r x.1 (if trap then 0 else x.2.1)) (s, g)
  let g := { p.2 with writes := p.2.writes.filter (fun w => w.token != o.token) }
  let g := if trap then
      let first := ((bad.head?.bind (fun x => x.2.2.head?)).getD 0) * 16
      let d : Deferred := { vregs := r.vregs, code := 2, lanes := maskOf (fun k => bad.any (·.1 == k)), addr := first, opc := true }
      { g with deferred := g.deferred ++ [d] }
    else g
  p.1.setGroup f o.slot g

/-- Whether an earlier load of the group still owes a Ralelle register, or an earlier RED.R waits for the port (R230, R231). -/
def State.portWaits (s : State) (f : Nat) (o : PortOp) : Bool :=
  (match s.group? f o.slot with
   | some g => g.writes.any (fun w => decide (w.token < o.token) && w.vregs.any (1000 ≤ ·))
   | none => false) ||
  (s.facet f).rdu.any (fun r => r.scope == 2 && decide (r.order < o.token))

/-- Removes the aged requests of a client that has been served (R221). -/
def Facet.unage (x : Facet) (client : Nat) : Facet := { x with aged := x.aged.filter (fun a => a.1 != client) }

/-- VECTOR_PORT_SERVE (R230): the oldest queued instruction. One with Ralelle operands has made its access (log entry 107). -/
def execVectorPortServe (f : Nat) (s : State) : Out :=
  .next (match (s.facet f).port with
    | [] => s
    | o :: rest =>
      if !s.facetRuns f || s.portWaits f o then s
      else
        let s := s.updFacet f (fun x => { x.unage 4 with port := rest })
        if o.ralelle then s
        else if o.store then s.updBlock f o.block (fun b => { b with opc := b.opc.putBits o.storeBits })
        else match s.group? f o.slot with
          | some g => s.serveOld f o g
          | none => s)

end Sys2Proof.Machine
end

