-- ==== Sys2Proof/Machine/TileMover.lean ====
section
/-! DEFINITION. The tile mover (R123, R124, R233 to R239), and the ends of line requests: LINE_DATA_RETURN and STORE_ACK. -/

namespace Sys2Proof.Machine

/-- A memory tile descriptor (R233) as its eight uniform registers. -/
structure MemDesc where
  addr : Nat
  pitch : Nat
  cols : Nat
  rows : Nat
  vcols : Nat
  vrows : Nat
  esize : Nat
  reserved : Bool
  deriving DecidableEq, Repr

/-- Reads a memory descriptor from its registers. -/
def MemDesc.of (l : List Word) : MemDesc :=
  let w (k : Nat) : Word := l.getD k 0
  { addr := (w 0).toNat + (w 1).toNat * 2 ^ 32, pitch := (w 2).toNat, cols := field (w 3) 31 16, rows := field (w 3) 15 0
    vcols := field (w 4) 31 16, vrows := field (w 4) 15 0, esize := field (w 5) 3 0
    reserved := field (w 5) 31 4 != 0 || w 6 != 0 || w 7 != 0 }

/-- Element size in bits. -/
def MemDesc.bits (d : MemDesc) : Nat := 4 <<< d.esize

/-- Bit address of memory element (r, c), in tenant address space (R233). -/
def MemDesc.bit (d : MemDesc) (r c : Nat) : Nat := 8 * (d.addr + r * d.pitch) + d.bits * c

/-- Whether the valid region is empty (R234). -/
def MemDesc.isEmpty (d : MemDesc) : Bool := d.vrows == 0 || d.vcols == 0

/-- The first byte of the valid region and its length up to its last byte (R235). -/
def MemDesc.range (d : MemDesc) : Nat × Nat :=
  (d.addr, (d.bit (d.vrows - 1) (d.vcols - 1) + d.bits - 1) / 8 + 1 - d.addr)

/-- Malformed memory descriptors (R233, R235). -/
def MemDesc.malformed (d : MemDesc) : Bool :=
  d.reserved || decide (5 ≤ d.esize) || d.rows == 0 || decide (8192 < d.rows) || d.cols == 0 || decide (8192 < d.cols) ||
  decide (d.cols < d.vcols) || decide (d.rows < d.vrows) ||
  (decide (8 ≤ d.bits) && (d.addr % (d.bits / 8) != 0 || d.pitch % (d.bits / 8) != 0))

/-- Whether a descriptor has a zero stride on an index with extent above 1 (R224). -/
def Desc.zeroStride (q : Desc) : Bool :=
  let majorN := if q.orient then q.cols else q.rows
  let minorN := if q.orient then q.rows else q.cols
  (q.rstride == 0 && decide (1 < majorN)) || (!q.panel && q.cstride == 0 && decide (1 < minorN))

/-- TILE_DESC of R235. -/
def tileDesc (store : Bool) (d : MemDesc) (q : Desc) : Bool :=
  d.malformed || q.malformed none || d.esize != q.esize || decide (q.rows < d.rows) || decide (q.cols < d.cols) ||
  (!store && q.zeroStride) ||
  (store && d.esize == 0 && (d.vcols % 2 == 1 || (List.range d.vrows).any (fun r => q.bit r 0 % 8 != 0)))

/-- The tenant lines of the valid region, ascending (R236). -/
def MemDesc.lines (d : MemDesc) : List Nat :=
  if d.isEmpty then []
  else (List.range d.vrows).foldl (fun (l : List Nat) r =>
    let lo := d.bit r 0 / 8 / 2048
    let hi := (d.bit r (d.vcols - 1) + d.bits - 1) / 8 / 2048
    l ++ ((List.range (hi + 1 - lo)).map (lo + ·)).filter (fun x => !l.contains x)) []

/-- Uniform registers a transfer reads. -/
def tmSources (i : Ins) : List Nat × List Nat := regSets [descOp (field i.w1 63 61) 8, descOp (field i.w1 60 57) 4]

/-- Checks a transfer and queues it (R123, R124, R235, R236). -/
def runTransfer (f slot : Nat) (store : Bool) (s : State) (g : Group) (i : Ins) : Issue :=
  if field i.w0 47 0 != 0 || field i.w1 47 0 != 0 || field i.w1 50 49 == 3 then .fault 4 g.live 0
  else if !g.onceTrue i then .done s (g.next i)
  else
    let mem := (List.range 8).map (fun k => tget g.u (8 * field i.w1 63 61 + k))
    let opc := g.desc (field i.w1 60 57)
    let d := MemDesc.of mem
    let q := Desc.of opc
    if tileDesc store d q then .fault 10 g.live 0
    else if !q.fits (s.granules f g.block) then .fault 11 g.live 0
    else if decide (2 ^ 48 ≤ d.addr) || (!d.isEmpty && !s.inOneRegion g.vf d.range.1 d.range.2) then .fault 13 g.live d.addr
    else if 16 ≤ (s.facet f).transfers.length then .hold
    else
      let (s, id) := s.fresh
      let after := (s.reqs.filter (fun (r : LineReq) => r.f == f && r.slot == slot && r.launch == g.launch &&
        (match r.kind with | .store | .atomic | .acq | .rel => true | _ => false))).map (fun (r : LineReq) => r.id)
      let t : Transfer :=
        { id := id, slot := slot, vf := g.vf, launch := g.launch, block := g.block, store := store, tag := field i.w1 56 55
          mem := mem, opc := opc, use := field i.w1 54 51, cls := field i.w1 50 49, dead := i.w1.getLsbD 48
          after := after, lines := d.lines }
      .done (s.updFacet f (fun x => { x with transfers := x.transfers ++ [t] })) (g.next i)

/-- TM.LD (R123). -/
def execTmLd (f slot : Nat) (s : State) : Out :=
  .next (s.issue f slot (fun i => i.op == 0x90 && i.fmt == 4) tmSources (fun _ => ([], [])) false
    (fun s g i => runTransfer f slot false s g i))

/-- TM.ST (R123). -/
def execTmSt (f slot : Nat) (s : State) : Out :=
  .next (s.issue f slot (fun i => i.op == 0x91 && i.fmt == 4) tmSources (fun _ => ([], [])) false
    (fun s g i => runTransfer f slot true s g i))

/-- TM.WAIT (R123, R238). -/
def execTmWait (f slot : Nat) (s : State) : Out :=
  .next (s.issue f slot (fun i => i.op == 0x92 && i.fmt == 1) (fun _ => ([], [])) (fun _ => ([], [])) false
    (fun s g i =>
      if field i.w0 47 24 != 0 || field i.w0 23 12 != 0 || i.ext != 0 then .fault 4 g.live 0
      else if !g.onceTrue i then .done s (g.next i)
      else if (s.facet f).transfers.any (fun t => t.slot == slot && t.launch == g.launch && i.imm.testBit t.tag) then .hold
      else .done s (g.next i)))

/-- Updates a transfer of a Facet. -/
def State.updTransfer (s : State) (f id : Nat) (h : Transfer → Transfer) : State :=
  s.updFacet f (fun x => { x with transfers := x.transfers.map (fun t => if t.id = id then h t else t) })

/-- The elements of a tile of `rows` by `cols`. -/
def tileElems (rows cols : Nat) : List (Nat × Nat) :=
  (List.range rows).flatMap (fun r => (List.range cols).map (fun c => (r, c)))

/-- The elements of a TM.LD that lie in an OPC granule of 128 bytes (R237). -/
def Transfer.granule (t : Transfer) (n : Nat) : List (Nat × Nat) :=
  let d := MemDesc.of t.mem
  let q := Desc.of t.opc
  (tileElems d.rows d.cols).filter (fun e => q.bit e.1 e.2 / 1024 == n)

/-- The OPC granules a TM.LD writes. -/
def Transfer.granules (t : Transfer) : List Nat :=
  let d := MemDesc.of t.mem
  let q := Desc.of t.opc
  distinct ((tileElems d.rows d.cols).map (fun e => q.bit e.1 e.2 / 1024))

/-- Whether an element is valid (R234). -/
def MemDesc.valid (d : MemDesc) (e : Nat × Nat) : Bool := decide (e.1 < d.vrows) && decide (e.2 < d.vcols)

/-- Whether every byte a granule takes from memory has arrived (R237). -/
def Transfer.ready (t : Transfer) (n : Nat) : Bool :=
  let d := MemDesc.of t.mem
  (t.granule n).all (fun e => !d.valid e || t.got.contains (d.bit e.1 e.2 / 8 / 2048))

/-- Writes one granule of a TM.LD (R234, R237, R239). -/
def Transfer.writeGranule (t : Transfer) (m : Ram) (n : Nat) : Ram :=
  let d := MemDesc.of t.mem
  let q := Desc.of t.opc
  let elems := t.granule n
  let value (e : Nat × Nat) : Nat := if d.valid e then (t.back.bitsAt (d.bit e.1 e.2) d.bits).getD 0 else 0
  let m := m.putBits (elems.map (fun e => (q.bit e.1 e.2, d.bits, value e)))
  let bad := elems.filter (fun e => d.valid e && (t.back.bitsAt (d.bit e.1 e.2) d.bits).isNone)
  (distinct (bad.map (fun e => q.bit e.1 e.2 / 128))).foldl (fun m w => m.poison w) m

/-- Writes the granules of a TM.LD that are ready, and completes a transfer whose work is done (R237, R238). -/
def State.advanceTransfer (s : State) (f id : Nat) : State :=
  match (s.facet f).transfers.find? (fun t => t.id == id) with
  | none => s
  | some t =>
    let new := if t.store then [] else t.granules.filter (fun n => !t.written.contains n && t.ready n)
    let s := s.updBlock f t.block (fun b => { b with opc := new.foldl (fun m n => t.writeGranule m n) b.opc })
    let t := { t with written := t.written ++ new }
    let finished := t.lines.isEmpty && t.out == 0 && (t.store || decide (t.granules.length ≤ t.written.length))
    if finished then
      (s.updFacet f (fun x => { x.unage 5 with transfers := x.transfers.filter (fun y => y.id != id) })).reapBlock f t.block
    else s.updTransfer f id (fun _ => t)

/-- The bytes a TM.ST stores to tenant line `line`, by offset, and the words of it stored poisoned (R234, R239). -/
def Transfer.storeLine (t : Transfer) (m : Ram) (line : Nat) : List (Nat × Byte) × List Nat :=
  let d := MemDesc.of t.mem
  let q := Desc.of t.opc
  let elems := (tileElems d.vrows d.vcols).filter (fun e => d.bit e.1 e.2 / 8 / 2048 == line)
  let at8 (e : Nat × Nat) : Nat := d.bit e.1 e.2 / 8 % 2048
  let read (r c : Nat) : Nat := (m.bitsAt (q.bit r c) d.bits).getD 0
  let bytes := elems.flatMap (fun e =>
    if d.bits = 4 then
      (if e.2 % 2 = 0 then [(at8 e, BitVec.ofNat 8 (read e.1 e.2 + 16 * read e.1 (e.2 + 1)))] else [])
    else (leBytes (d.bits / 8) (read e.1 e.2)).mapIdx (fun k b => (at8 e + k, b)))
  let bad := elems.filter (fun e => (m.bitsAt (q.bit e.1 e.2) d.bits).isNone)
  (bytes, distinct (bad.map (fun e => at8 e / 16)))

/-- The sectors of a tenant line that the valid region touches. -/
def MemDesc.sectors (d : MemDesc) (line : Nat) : BitVec 16 :=
  (List.range d.vrows).foldl (fun (m : BitVec 16) r =>
    let lo := d.bit r 0 / 8
    let hi := (d.bit r (d.vcols - 1) + d.bits - 1) / 8
    (List.range 16).foldl (fun m k =>
      let a := 2048 * line + 128 * k
      if lo < a + 128 ∧ a ≤ hi then m ||| BitVec.ofNat 16 (2 ^ k) else m) m) 0

/-- TM_LINE_REQUEST (R236): the oldest transfer not fully requested forms its next line request. -/
def execTmLineRequest (f : Nat) (s : State) : Out :=
  .next (
    match (s.facet f).transfers.find? (fun t => !t.lines.isEmpty || (t.out == 0 && t.got.isEmpty && (MemDesc.of t.mem).isEmpty)) with
    | none => s
    | some t =>
      if !s.facetRuns f || t.after.any (fun a => s.reqs.any (fun (r : LineReq) => r.id == a)) then s
      else match t.lines with
        | [] => s.advanceTransfer f t.id
        | line :: rest =>
          let used := s.slotsUsed f
          if 224 ≤ used.1 - used.2 ∨ 256 ≤ used.1 then s
          else
            let d := MemDesc.of t.mem
            let base := (s.translate t.vf (2048 * line)).getD 0
            let st := if t.store then t.storeLine (s.opc f t.block) line else ([], [])
            let r : LineReq :=
              { id := s.nextId, f := f, slot := t.slot, vf := t.vf, launch := t.launch
                kind := if t.store then .tmStore else .tmLoad, line := base / 2048, sectors := d.sectors line
                lanes := [⟨0, base, 2048 * line, 255, 0, 0⟩], bytes := st.1, pois := st.2, width := 16, signed := false
                op := 0, type := 0, use := t.use, cls := t.cls, dead := t.dead, token := t.id }
            let s := { s with nextId := s.nextId + 1, reqs := s.reqs ++ [r] }
            s.updTransfer f t.id (fun t => { t with lines := rest, out := t.out + 1 }))

/-- A line of a TM.LD returns. -/
def State.returnTile (s : State) (r : LineReq) : State :=
  let s := s.dropReq r.id
  let ta := ((r.lanes.head?).map (·.taddr)).getD 0
  let s := s.updTransfer r.f r.token (fun t => { t with
    out := t.out - 1, got := ta / 2048 :: t.got
    back := r.result.foldl (fun (m : Ram) x => if x.2.2 then m.poison (ta / 16 + x.1) else m.setWord (ta / 16 + x.1) x.2.1 0) t.back })
  s.advanceTransfer r.f r.token

/-- A line of a TM.ST is acknowledged. -/
def State.ackTile (s : State) (r : LineReq) : State :=
  let s := (s.dropReq r.id).noteWrite r
  (s.updTransfer r.f r.token (fun t => { t with out := t.out - 1 })).advanceTransfer r.f r.token

/-- LINE_DATA_RETURN (R115): the data of a served load, atomic, lock or TM.LD reaches the Facet, once
the delta map's bits can be written (R411). -/
def execLineDataReturn (req : Nat) (s : State) : Out :=
  .next (match s.req? req with
    | none => s
    | some r =>
      if r.stage != .served then s
      else match s.markGate r, r.kind with
        | some s, _ => s
        | none, .store | none, .tmStore | none, .hint => s
        | none, .tmLoad => s.returnTile r
        | none, _ => s.returnToGroup r)

/-- STORE_ACK (R118, R272): the Hull acknowledges a store, a hint or a TM.ST line. -/
def execStoreAck (req : Nat) (s : State) : Out :=
  .next (match s.req? req with
    | none => s
    | some r =>
      if r.stage != .served then s
      else match s.markGate r, r.kind with
        | some s, _ => s
        | none, .store | none, .hint => s.ackToGroup r
        | none, .tmStore => s.ackTile r
        | none, _ => s)

end Sys2Proof.Machine
end

