-- ==== Sys2Proof/Machine/Control.lean ====
section
/-! DEFINITION. Control and barriers (R121, R122), the fault handler's return (R134, R135), and the events of a group: the end
of its slot, a fetch outside its range, an unassigned opcode, the progress watchdog (R74) and the dispatch of blocks (R51 to
R53). -/

namespace Sys2Proof.Machine

/-- BRA (R121, R64, R65). -/
def execBra (f slot : Nat) (s : State) : Out :=
  .next (s.issue f slot (fun i => i.op == 0x80 && i.fmt == 3) (fun _ => ([], [])) (fun _ => ([], [])) false
    (fun s g i =>
      let tgt := codeOffset g (field i.w0 39 24)
      let rcv := codeOffset g (field i.w0 23 8)
      let inside (x : Int) : Bool := decide (0 ≤ x) && s.inCode g x.toNat
      let taken := g.lanes i
      if field i.w0 47 40 != 0 || i.ext != 0 then .fault 4 g.live 0
      else if !inside tgt || (i.guarded && !inside rcv) then .fault 6 g.live 0
      else if taken = 0 then .done s (g.next i)
      else if taken = g.live then .done s { g with pc := tgt.toNat }
      else if 32 ≤ g.depth then .fault 9 taken 0
      else
        let e : StackEntry := { join := false, parked := false, rcv := rcv.toNat, target := tgt.toNat, mask := taken, eventsAt := g.events }
        .done s { g with stack := e :: g.stack, active := g.live &&& ~~~ taken, pc := g.pc + 8 }))

/-- Completes the barrier uses that an instruction of the group made ready. -/
def State.settleBarriers (s : State) (f slot : Nat) (before : State) : State :=
  match before.group? f slot with
  | some g => s.releaseBarriers f g.block
  | none => s

/-- EXIT (R122): the guard-true active lanes exit; a group without lanes counts as arrived everywhere (R78). -/
def execExit (f slot : Nat) (s : State) : Out :=
  .next ((s.issue f slot (fun i => i.op == 0x81 && i.fmt == 0) (fun _ => ([], [])) (fun _ => ([], [])) true
    (fun s g i =>
      if field i.w0 47 0 != 0 then .fault 4 g.live 0
      else .done s ((g.next i).exitLanes (g.lanes i)))).settleBarriers f slot s)

/-- GROUP_SLOT_RELEASE (R122, R133): the slot of a group without lanes, or of a stopped one, frees once its line requests are
complete, and what the Prisms, the OPC port and the RDU still do for it (DEDUCED from R206, R213 and R218: their results reach
only its own registers and OPC; log entry 106); the block ends with its last group. -/
def execGroupSlotRelease (f slot : Nat) (s : State) : Out :=
  .next (match s.group? f slot with
    | none => s
    | some g => if !g.done || !s.slotIdle f slot g then s else (s.freeSlotOf f slot).blockOver f g.block)

/-- Whether an arrival waits for the group's earlier stores, OST and Ralelle writes (R118, R231). -/
def State.joinHeld (s : State) (f slot : Nat) (g : Group) : Bool :=
  s.storesOut f slot g.launch || (s.facet f).port.any (fun o => o.slot == slot && o.store) ||
  g.writes.any (fun w => w.vregs.any (1000 ≤ ·))

/-- JOIN.WAIT and JOIN.PASS (R122, R76 to R82). With RLX set they are illegal in every kernel (R242: DESIGN CHOICE, log entry
137). -/
def runJoin (f slot : Nat) (waits : Bool) (s : State) (g : Group) (i : Ins) : Issue :=
  if !(field i.w0 47 32 == 0 && i.ext == 0x40 && decide (i.imm < 16) && decide (i.a < 64)) then .fault 4 g.live 0
  else match g.uniformGuard i with
    | some false => .done s (g.next i)
    | u =>
      if u.isNone || !g.joinConverged then .fault 7 g.live 0
      else if s.joinHeld f slot g then .hold
      else match s.block? f g.block with
        | none => .hold
        | some b =>
          match arrive b (i.imm % 16) (tget g.u i.a).toNat g.gidx none ([], []) with
          | none => .fault 8 g.live 0
          | some b =>
            .done (s.updBlock f g.block (fun _ => b)) (if waits then { g with wait := .barrier (i.imm % 16) } else g.next i)

/-- Issues JOIN.WAIT or JOIN.PASS. -/
def issueJoin (s : State) (f slot op : Nat) (waits : Bool) : State :=
  (s.issue f slot (fun i => i.op == op && i.fmt == 1) (fun i => ([], [i.a])) (fun _ => ([], [])) true
    (runJoin f slot waits)).settleBarriers f slot s

def execJoinWait (f slot : Nat) (s : State) : Out := .next (issueJoin s f slot 0x82 true)
def execJoinPass (f slot : Nat) (s : State) : Out := .next (issueJoin s f slot 0x83 false)

/-- The encoding rule TRAP and FRET share (R122): D, A, TYPE, MOD and EXT 0. -/
def ownTrap (i : Ins) : Bool := field i.w0 47 24 == 0 && i.ext == 0

/-- TRAP (R122): the fault code 0x0F; FAULT_INFO takes IMM16. -/
def execTrap (f slot : Nat) (s : State) : Out :=
  .next (s.issue f slot (fun i => i.op == 0x84 && i.fmt == 1) (fun _ => ([], [])) (fun _ => ([], [])) false
    (fun s g i => if !ownTrap i then .fault 4 g.live 0 else if g.lanes i = 0 then .done s (g.next i) else .fault 15 (g.lanes i) 0))

/-- Waiting entries pushed since the handler was entered (R135). -/
def Group.handlerDepth (g : Group) (h : Handler) : Nat :=
  ((g.stack.take (g.stack.length - h.depth)).filter (!·.join)).length

/-- The group back in its kernel code with FAULT_MASK (R134). -/
def Group.leaveHandler (g : Group) (h : Handler) (pc : Nat) : Group :=
  { g with handler := none, active := h.mask, pc := pc, stack := g.stack.drop (g.stack.length - h.depth) }

/-- The size of the instruction at an offset; 8 where none can be read. -/
def State.sizeAt (s : State) (f pc : Nat) : Nat :=
  match (s.facet f).codeWord pc with
  | some w => if field w 58 56 = 4 then 16 else 8
  | none => 8

/-- FRET by mode (R134, R135). RETRY of a JOIN.WAIT or REDB with ARRIVED set takes the wait up again, or goes on when it has
released meanwhile. -/
def runFret (f mode : Nat) (s : State) (g : Group) (i : Ins) : Issue :=
  match g.handler with
  | none => .fault 4 g.live 0
  | some h =>
    if !ownTrap i || 4 ≤ i.imm then .fault 4 g.live 0
    else if g.lanes i = 0 then .done s (g.next i)
    else if mode = 1 then .done s { g.leaveHandler h (h.pc + s.sizeAt f h.pc) with awaiting := none }
    else if h.info.getLsbD 1 then
      match g.awaiting with
      | some n => .done s { g.leaveHandler h h.pc with wait := .barrier n, awaiting := none }
      | none => .done s (g.leaveHandler h (h.pc + 8))
    else .done s (g.leaveHandler h h.pc)

/-- A FRET RETRY or SKIP that is about to run and meets a stack depth other than at handler entry (R135), with its group. -/
def State.fretDouble (s : State) (f slot : Nat) (accept : Ins → Bool) : Option (Group × Ins) :=
  match s.group? f slot with
  | none => none
  | some g =>
    match g.handler, s.fetchIns f g with
    | some h, some i =>
      if g.canIssue && s.facetRuns f && s.inCode g g.pc && accept i && !s.stallDue g && ownTrap i && i.imm < 4 && g.lanes i != 0 &&
          g.handlerDepth h != 0 then some (g, i) else none
    | _, _ => none

/-- Issues FRET RETRY (mode 0) or SKIP (mode 1): a block aborted with DOUBLE_FAULT where the stack depth differs. -/
def issueFret (s : State) (f slot mode : Nat) : State :=
  let accept (i : Ins) : Bool := i.op == 0x85 && i.fmt == 1 && i.imm % 4 == mode
  match s.fretDouble f slot accept with
  | some (g, i) => ((s.fetched f g i).markAborted g.vf ((g.handler.map (·.no)).getD 0)).abortBlock f slot g 0xFF g.pc
  | none => s.issue f slot accept (fun _ => ([], [])) (fun _ => ([], [])) false (runFret f mode)

def execFretRetry (f slot : Nat) (s : State) : Out := .next (issueFret s f slot 0)
def execFretSkip (f slot : Nat) (s : State) : Out := .next (issueFret s f slot 1)

/-- FRET ABORT (R134): the block ends as R133 with the handled fault. -/
def execFretAbort (f slot : Nat) (s : State) : Out :=
  let accept (i : Ins) : Bool := i.op == 0x85 && i.fmt == 1 && i.imm % 4 == 2
  .next (match s.group? f slot with
    | none => s
    | some g =>
      match g.handler, s.fetchIns f g with
      | some h, some i =>
        if g.canIssue && s.facetRuns f && s.inCode g g.pc && accept i && !s.stallDue g && ownTrap i && i.imm < 4 && g.lanes i != 0 then
          ((s.fetched f g i).markAborted g.vf h.no).abortBlock f slot g h.code h.pc
        else s.issue f slot accept (fun _ => ([], [])) (fun _ => ([], [])) false (runFret f 0)
      | _, _ => s.issue f slot accept (fun _ => ([], [])) (fun _ => ([], [])) false (runFret f 0))

/-- NOP (R122). -/
def execNop (f slot : Nat) (s : State) : Out :=
  .next (s.issue f slot (fun i => i.op == 0x86 && i.fmt == 0) (fun _ => ([], [])) (fun _ => ([], [])) false
    (fun s g i => if field i.w0 47 0 != 0 then .fault 4 g.live 0 else .done s (g.next i)))

/-- Whether an opcode is assigned in a format (R106): one of the table's instructions accepts it. -/
def assigned (i : Ins) : Bool :=
  let o := i.op
  let within (lo hi : Nat) : Bool := decide (lo ≤ o) && decide (o ≤ hi)
  match i.fmt with
  | 0 => within 0 0x16 || within 0x20 0x26 || within 0x40 0x49 || o == 0x50 || o == 0x51 || within 0x58 0x5D ||
      o == 0x73 || o == 0x81 || o == 0x86 || o == 0xC0 || o == 0xC1
  | 1 => within 0 0x16 || within 0x20 0x26 || within 0x40 0x49 || within 0x58 0x5D || within 0x82 0x84 ||
      (o == 0x85 && i.imm % 4 != 3) || o == 0x92
  | 2 => within 0x60 0x63 || within 0x70 0x72
  | 3 => o == 0x80
  | 4 => o == 0x90 || o == 0x91 || within 0xA0 0xA3 || o == 0xBE || o == 0xBF || o == 0xC2 || o == 0xC8 || o == 0xC9
  | _ => false

/-- UNASSIGNED_OPCODE (R106): an instruction no opcode and format of the table assigns raises ILLEGAL_INSTR. -/
def execUnassignedOpcode (f slot : Nat) (s : State) : Out :=
  .next (s.issue f slot (fun i => !assigned i) (fun _ => ([], [])) (fun _ => ([], [])) false
    (fun _ g _ => .fault 4 g.live 0))

/-- FETCH_PAST_RANGE (R121): execution has run out of its range. -/
def execFetchPastRange (f slot : Nat) (s : State) : Out :=
  .next (match s.group? f slot with
    | none => s
    | some g => if g.canIssue && s.facetRuns f && !s.inCode g g.pc then s.raise f slot g 6 g.pc g.live 0 0 0 0 else s)

/-- PROGRESS_STALL (R74, R128): the group's counter has reached THRESH × 1,024 Facet cycles; at a barrier the fault is raised
there with ARRIVED set. A lock request in flight is answered first. -/
def execProgressStall (f slot : Nat) (s : State) : Out :=
  .next (match s.group? f slot with
    | none => s
    | some g =>
      let atBarrier := match g.wait with | .barrier _ => true | _ => false
      if g.done || !s.stallDue g || !s.facetRuns f ||
          !(g.halt == .running || g.halt == .stepping || (g.halt == .stepped && atBarrier)) then s
      else match g.wait with
        | .barrier n => s.raise f slot { g with wait := .none, awaiting := some n } 1 g.pc g.live 0 (faultInfo 0 false true false) 1 n
        | .lock => s
        | .none => s.raise f slot g 1 g.pc g.live 0 0 0 0)

/-- Registers allocated per thread (R56). -/
def regsPerThread (h : Nat) : Nat := 8 * ceilDiv (h + 1) 8

/-- OPC granules of a block (R56). -/
def granulesOf (o g : Nat) (ralelle : Bool) : Nat := ceilDiv o 4096 + (if ralelle then g else 0)

/-- The limit b of R56. -/
def blocksPerFacet (h g o : Nat) (ralelle : Bool) : Nat :=
  let gq := min 16 (512 / regsPerThread h)
  let gr := granulesOf o g ralelle
  let bo := if gr = 0 then 32 else 256 / gr
  min (min 32 (4 * gq / g)) bo

/-- A quadrant's remaining capacity for groups of `rr` registers (R52). -/
def State.capacity (s : State) (f q rr : Nat) : Nat :=
  let mine := (s.facet f).groups.filter (fun e => e.1 / 16 == q)
  let used := (mine.map (fun e => match s.launch? e.2.launch with | some l => regsPerThread l.h | none => 0)).sum
  min (16 - mine.length) ((512 - used) / rr)

/-- Whether a block of a launch fits on a Facet now (R52, R58), a Facet in service and not reset since the tenant's reset. -/
def State.fitsOn (s : State) (f : Nat) (l : Launch) : Bool :=
  let x := s.facet f
  let gr := granulesOf l.o l.g l.ralelle
  let used := (x.blocks.map (fun b => b.2.granules)).sum
  s.facetRuns f && !x.cleared &&
  decide (l.g ≤ ((List.range 4).map (fun q => s.capacity f q (regsPerThread l.h))).sum) &&
  decide (used + gr ≤ 256) && decide (x.blocks.length < 32)

/-- The quadrant with the most capacity, the lowest on a tie (R52). -/
def State.bestQuadrant (s : State) (f rr : Nat) : Nat :=
  (List.range 4).foldl (fun b q => if s.capacity f b rr < s.capacity f q rr then q else b) 0

/-- The lowest free slot of a quadrant. -/
def State.freeSlot (s : State) (f q : Nat) : Nat :=
  (((List.range 16).map (16 * q + ·)).find? (fun k => (s.group? f k).isNone)).getD (16 * q)

/-- The lane states a group starts with (R161, R164). -/
def State.seedLanes (s : State) (l : Launch) (block gidx : Nat) : State × Cells 32 :=
  (List.range 32).foldl (fun (p : State × Cells 32) lane =>
    if l.seeded then (p.1, tset p.2 lane (laneSeed l.seedLo l.seedHi block gidx lane l.codeBase))
    else
      let q := p.1.free
      let x := Config.freeLane q.2
      (q.1, tset p.2 lane (if x = 0 then 1 else x))) (s, [])

/-- Places group `gidx` of a block (R51, R52). -/
def State.placeGroup (s : State) (f : Nat) (l : Launch) (slotB block gidx : Nat) : State :=
  let slot := s.freeSlot f (s.bestQuadrant f (regsPerThread l.h))
  let p := s.seedLanes l block gidx
  let g : Group := { vf := l.fn, launch := l.id, block := slotB, gidx := gidx, pc := l.codeBase + 32, lfsr := p.2 }
  p.1.setGroup f slot g

/-- The lowest logical Facet on which a block of a launch fits (R53). -/
def State.placeFor (s : State) (l : Launch) : Option Nat := ((s.logical l.fn).find? (fun e => s.fitsOn e.2 l)).map (·.2)

/-- Places the next block of a launch on a Facet (R51 to R53). -/
def State.dispatchOn (s : State) (l : Launch) (f : Nat) : State :=
  let slotB := ((List.range 32).find? (fun k => (s.block? f k).isNone)).getD 0
  let b : Block := { vf := l.fn, launch := l.id, index := l.next, g := l.g, granules := granulesOf l.o l.g l.ralelle }
  let s := s.updFacet f (fun x => { x with blocks := aput x.blocks slotB b })
  let s := (List.range l.g).foldl (fun s k => s.placeGroup f l slotB l.next k) s
  s.updLaunch l.id (fun l =>
    let f0 := ((s.logical l.fn).head?.map (·.2)).getD f
    let t := (s.facet f0).half
    { l with
      next := l.next + 1, live := l.live + 1
      facet0 := if l.next = 0 then f0 else l.facet0
      before := if l.next = 0 then 0 else l.before
      start := if l.next = 0 then t else l.start
      finish := if l.next = 0 then t else l.finish })

/-- The state with the room taken that acceptance has reserved for block 0 of other launches of the tenant (R388): of every
one, or, for a launch whose own block 0 is due, of those accepted earlier. -/
def State.withReserved (s : State) (l : Launch) : State :=
  let others := s.launches.filter (fun k => k.fn == l.fn && k.next == 0 && k.id != l.id && (l.next != 0 || decide (k.id < l.id)))
  others.foldl (fun s k => match s.placeFor k with | some f => s.dispatchOn k f | none => s) s

/-- BLOCK_DISPATCH (R53): the next block of a launch goes to the lowest logical Facet on which it fits. -/
def execBlockDispatch (launch : Nat) (s : State) : Out :=
  .next (match s.launch? launch with
    | none => s
    | some l =>
      if l.nblocks ≤ l.next then s
      else match (s.withReserved l).placeFor l with
        | none => s
        | some f => s.dispatchOn l f)

end Sys2Proof.Machine
end

