-- ==== Sys2Proof/Machine/Gnomon.lean ====
section
/-! DEFINITION. The Gnomon store: placement (R429, R430), generations and the journal (R431 to R439), restore (R440, R441),
media management (R442 to R446). -/

namespace Sys2Proof.Machine

/-- Updates the store. -/
def State.updStore (s : State) (f : Store → Store) : State := { s with store := f s.store }

/-- Data bytes of a stripe (R429, R430). -/
def stripeBytes : Nat := 3221225472

/-- Data bytes of a page unit (R427). -/
def pageBytes : Nat := 12288

/-- The channel of a die (R425). -/
def channelOf (die : Nat) : Nat := die % 16

/-- The wordline of a page, which it shares with its paired page (R425). -/
def wordlineOf (page : Nat) : Nat := page / 2

/-- Whether copy B of the system area, and not copy A, lies on a die (R429). -/
def onCopyB (die : Nat) : Bool := decide (8 ≤ channelOf die)

/-- Place of the i-th journal page of a copy, a record to a page: die, plane, block, page; the order is the model's (R429, log entry
58). `upper`: the journal lies in the upper half of the copy's blocks. -/
def recordPlace (copyB upper : Bool) (i : Nat) : Nat × Nat × Nat × Nat :=
  let m := i / 1024
  let k := m % 32
  (k % 8 + (if copyB then 8 else 0) + 16 * (k / 8), m / 32 % 4, m / 128 % 4 + (if upper then 4 else 0), i % 1024)

/-- The journal page that lies at a place of the system area: the inverse of `recordPlace`. -/
def recordAt (die plane block page : Nat) : Nat := ((block % 4 * 4 + plane) * 32 + die % 8 + 8 * (die / 16)) * 1024 + page

/-- Journal records that the half of a copy's blocks holds; past them the live ones move to the other half (R437, log entry 58). -/
def journalRoom : Nat := 524288

/-- Whether the journal of the copy on a die lies in the half of its blocks that holds stripe `b` of the system area. -/
def Store.inHalf (x : Store) (die b : Nat) : Bool := (if onCopyB die then x.upperB else x.upperA) == decide (4 ≤ b)

/-- The stripes of the data pool. -/
def dataPool : List Nat := (List.range 4024).map (8 + ·)

/-- Stripes in use by generations. -/
def Store.used (x : Store) : List Nat := x.gens.flatMap (·.stripes)

/-- Free data stripes: those no generation holds, but for relocated ones not yet erased (R443). -/
def Store.free (x : Store) : List Nat :=
  let u := x.used ++ x.erasing.map (·.1)
  dataPool.filter (fun b => !u.contains b)

/-- Block number of stripe block `b` on a die and plane. -/
def blockNo (die plane b : Nat) : Nat := (die * 4 + plane) * 4096 + b

/-- Follows replacements, at most `fuel` of them. -/
def Store.follow (x : Store) (k : Nat) : Nat → Nat
  | 0 => k
  | n + 1 => match x.bad.find? (fun e => e.1 == k) with
    | some e => if e.2 = k then k else Store.follow x e.2 n
    | none => k

/-- The block that stands for a block: its replacement, once it is retired (R445), or that one's. -/
def Store.live (x : Store) (k : Nat) : Nat := x.follow k x.bad.length

/-- The stripe a block serves: its own, or for a replacement block that of the block it stands for (R445). -/
def Store.stripeOf (x : Store) (k : Nat) : Nat :=
  if k % 4096 < 4032 then k % 4096
  else match x.bad.find? (fun e => decide (e.1 % 4096 < 4032) && x.live e.1 == k) with
    | some e => e.1 % 4096
    | none => k % 4096

/-- Replacement blocks left (R445, R450). -/
def Store.sparesLeft (x : Store) : Nat :=
  16384 - (distinct ((x.bad.map (·.1) ++ x.bad.map (·.2)).filter (fun k => decide (4032 ≤ k % 4096)))).length

/-- Stripes that the journal's records still name: those in use, those of generations whose DISCARD has not programmed, and those a
RELOCATE still to be programmed leaves (R437, R443). -/
def Store.named (x : Store) : List Nat :=
  x.used ++ x.dropped.flatMap (·.stripes) ++ (x.queue.filter (fun r => r.type == 5)).map (fun r => byteField r.body 2 2)

/-- Whether a block holds data of a generation, or the journal. -/
def Store.holds (x : Store) (die plane block : Nat) : Bool :=
  let b := x.stripeOf (blockNo die plane block)
  if b < 8 then x.inHalf die b && x.live (blockNo die plane b) == blockNo die plane block
  else x.named.any (fun b => x.live (blockNo die plane b) == blockNo die plane block)

/-- Sum of the erase counts of a stripe's blocks: 256 times its mean. -/
def Store.stripeErases (x : Store) (b : Nat) : Nat :=
  ((List.range 256).map (fun m => (tget x.erases (x.live (blockNo (m % 64) (m / 64) b))).toNat)).sum

/-- Sum of the erase counts of the data pool's blocks. -/
def Store.poolErases (x : Store) : Nat := (x.erases.map (fun e => if 8 ≤ e.1 % 4096 ∧ e.1 % 4096 ≤ 4031 then e.2.toNat else 0)).sum

/-- Place of data offset `o` (R430): list index of the stripe, page, die, plane. -/
def placeData (o : Nat) : Nat × Nat × Nat × Nat :=
  let k := (o % stripeBytes) / pageBytes
  (o / stripeBytes, k / 256, (k % 256) % 64, (k % 256) / 64)

/-- Stripes a generation of `len` units of 64 KiB takes. -/
def stripesFor (len : Nat) : Nat := ceilDiv (len * 65536) stripeBytes

/-- Page units of a generation. -/
def Generation.units (g : Generation) : Nat := ceilDiv (g.len * 65536) pageBytes

/-- A generation is open until it has COMMIT; a discarded one is no longer held. -/
def Generation.isOpen (g : Generation) : Bool := !g.committed

/-- Bytes [24, 123] of a journal record, from the fields of R436: offset, size, value. -/
def journalBody (l : List (Nat × Nat × Nat)) : List Byte :=
  l.foldl (fun b e => overlay b (e.1 - 24) (leBytes e.2.1 e.2.2)) (List.replicate 100 0)

/-- The 128 bytes of a journal record (R435). -/
def JournalRec.bytes (r : JournalRec) : List Byte :=
  let b := leBytes 4 0x4E4D4E47 ++ leBytes 1 r.type ++ leBytes 1 r.fn ++ leBytes 2 0 ++ leBytes 4 r.gen ++ leBytes 4 0 ++
    leBytes 4 r.seq ++ leBytes 4 0 ++ r.body
  b ++ leBytes 4 (crc32 b)

/-- The blocks of a copy's half of the system area, stripe by stripe, as an erase takes them: by plane (64 * plane + die). -/
def copyBlocks (copyB upper : Bool) : List (Nat × List Nat) :=
  (List.range 4).map (fun i => (i + (if upper then 4 else 0), (List.range 256).filter (fun m => onCopyB (m % 64) == copyB)))

/-- The records of open and retained generations, in SEQ order (R437). -/
def Store.liveRecords (x : Store) (l : List JournalRec) : List JournalRec :=
  (l.filter (fun q => (x.gens ++ x.dropped).any (fun g => g.gen == q.gen))).mergeSort (fun a b => decide (a.seq ≤ b.seq))

/-- The journal of a copy moves to the other half of its blocks, and the old blocks are to be erased (R437). -/
def Store.compact (x : Store) (copyB : Bool) : Store :=
  if copyB then { x with copyB := x.liveRecords x.copyB, upperB := !x.upperB, erasing := x.erasing ++ copyBlocks true x.upperB }
  else { x with copyA := x.liveRecords x.copyA, upperA := !x.upperA, erasing := x.erasing ++ copyBlocks false x.upperA }

/-- A record programmed in copy A or B, whose journal moves first when its blocks are full (R437). -/
def Store.append (x : Store) (copyB : Bool) (r : JournalRec) : Store :=
  let x := if (if copyB then x.copyB else x.copyA).length < journalRoom then x else x.compact copyB
  if copyB then { x with copyB := x.copyB ++ [r] } else { x with copyA := x.copyA ++ [r] }

/-- SP appends a record: it is to be programmed in copy A and then in copy B (R437). -/
def State.journal (s : State) (type fn gen : Nat) (fields : List (Nat × Nat × Nat)) : State :=
  s.updStore (fun x => { x with
    nextSeq := x.nextSeq + 1, queue := x.queue ++ [{ seq := x.nextSeq, type, fn, gen, body := journalBody fields }] })

/-- DISCARD of a generation: its stripes return to the free pool (R432, R438), and a COMMIT of it that is in no copy is not
programmed. -/
def State.discard (s : State) (gen reason : Nat) : State :=
  match s.store.gens.find? (fun g => g.gen == gen) with
  | none => s
  | some g =>
    let s := s.updStore (fun x => { x with
      gens := x.gens.filter (fun (y : Generation) => y.gen != gen), dropped := x.dropped ++ [g]
      queue := if g.committed then x.queue else x.queue.filter (fun r => !(r.type == 3 && r.gen == gen)) })
    s.journal 4 g.fn gen [(24, 1, reason)]

/-- An open generation ends (R263, R266): SP writes DISCARD at once, or when it returns. One whose COMMIT copy A holds is not open
(R434). -/
def State.endGeneration (s : State) (gen reason : Nat) : State :=
  if s.store.gens.any (fun g => g.gen == gen && g.committed) then s
  else if s.spRuns then s.discard gen reason else s.updStore (fun x => { x with due := x.due ++ [(gen, reason)] })

/-- Committed generations of a function, newest first. -/
def Store.committed (x : Store) (fn : Nat) : List Generation := (x.gens.filter (fun g => g.fn == fn && g.committed)).reverse

/-- GN_CFG.KEEP. -/
def State.keep (s : State) : Nat := s.regF 0 Reg.gnCfg 2 0

/-- Discards a function's oldest committed generations above KEEP (R433, R438). -/
def State.trim (s : State) (fn : Nat) : State :=
  ((s.store.committed fn).drop s.keep).reverse.foldl (fun s g => s.discard g.gen 0) s

/-- The stripes an open generation of function `fn` may use: free ones, and those of the committed generations of the
function that R432 lets SP discard (all but its newest). -/
def State.stripesAvailable (s : State) (fn : Nat) : Nat :=
  s.store.free.length + (((s.store.committed fn).drop 1).map (fun g => g.stripes.length)).sum

/-- Whether a store generation can start (R431). -/
def State.storeStarts (s : State) (fn len : Nat) : Bool :=
  let x := s.store
  s.spRuns && !x.starting && !x.paused && !x.readOnly && !x.gens.any (fun g => g.fn == fn && g.isOpen) &&
  decide ((x.gens.filter Generation.isOpen).length < 4) && decide (stripesFor len ≤ s.stripesAvailable fn)

/-- Discards a function's oldest committed generations while stripes are short (R432); the fuel bounds them. -/
def State.makeRoom (s : State) (fn need : Nat) : Nat → State
  | 0 => s
  | n + 1 =>
    if need ≤ s.store.free.length then s
    else match (s.store.committed fn).drop 1 |>.getLast? with
      | none => s
      | some g => State.makeRoom (s.discard g.gen 0) fn need n

/-- Free stripes in the order of R442: lowest erase count first, then lowest number. -/
def Store.ordered (x : Store) : List Nat :=
  ((x.free.map (fun b => (x.stripeErases b, b))).mergeSort (fun a b => decide (a.1 < b.1) || (a.1 == b.1 && decide (a.2 ≤ b.2)))).map (·.2)

/-- Opens a generation (R432, R433): OPEN, and EXTENT for its stripes, at most 48 to a record. The number it gets. -/
def State.openGeneration (s : State) (fn step buf len : Nat) : State × Nat :=
  let s := s.makeRoom fn (stripesFor len) 4
  let gen := s.store.nextGen
  let stripes := s.store.ordered.take (stripesFor len)
  let s := s.journal 1 fn gen [(24, 4, step), (28, 1, buf), (32, 4, len), (40, 8, (tget s.life.live 0x110).toNat)]
  let s := (chunks 48 stripes).zipIdx.foldl (fun s (l, i) =>
    s.journal 2 fn gen ([(24, 2, 48 * i), (26, 2, l.length)] ++ l.zipIdx.map (fun (b, k) => (28 + 2 * k, 2, b)))) s
  let g : Generation := { gen := gen, fn := fn, step := step, buf := buf, len := len, stripes := stripes }
  (s.updStore (fun x => { x with nextGen := gen + 1, gens := x.gens ++ [g] }), gen)

/-- Bytes from the drain reach an open generation, as carried words. -/
def State.fillGeneration (s : State) (gen : Nat) (codes : List Code) : State :=
  s.updStore (fun x => { x with gens := x.gens.map (fun (g : Generation) =>
    if g.gen = gen then { g with data := g.data.putCodes (g.filled / 16) codes, filled := g.filled + 16 * codes.length } else g) })

/-- The store leg of a generation's drain ends: 1 committed, 2 aborted, 3 failed. -/
def State.endStoreLeg (s : State) (gen outcome : Nat) : State :=
  { s with drains := s.drains.map (fun (d : Drain) =>
      if d.store ∧ d.gen = gen ∧ d.storeEnd = 0 then { d with storeEnd := outcome } else d) }

/-- A block fails (R445): retired, and replaced by the lowest block left in its plane among stripes 4,032 to 4,095; with
none left the store becomes read-only (R446). Whether a replacement was found. -/
def State.failBlock (s : State) (die plane b : Nat) : State × Bool :=
  let x := s.store
  let k := x.live (blockNo die plane b)
  let taken := x.bad.map (·.2)
  match ((List.range 64).map (fun i => blockNo die plane (4032 + i))).find? (fun r => !taken.contains r && !x.bad.any (fun e => e.1 == r)) with
  | none => ((s.updStore (fun x => { x with readOnly := true, bad := x.bad ++ [(k, k)] })).saveArea (fun a => { a with bad := x.bad ++ [(k, k)] }), false)
  | some r => ((s.updStore (fun x => { x with bad := x.bad ++ [(k, r)] })).saveArea (fun a => { a with bad := x.bad ++ [(k, r)] }), true)

/-- R446: the rating is reached at 55,879,354 GiB written or a mean erase count of 8,000. -/
def State.rate (s : State) : State :=
  let x := s.store
  if 55879354 ≤ x.writtenBytes / 2 ^ 30 || 8000 ≤ x.poolErases / 1030144 then s.updStore (fun x => { x with ratedExceeded := true }) else s

/-- The digest and poisoned words of a generation's data (R436). -/
def Ram.digestOf (m : Ram) (words : Nat) : BitVec 128 × Nat :=
  let l := List.range words
  (digest (l.map m.word), (l.filter m.bad).length)

/-- Replaces a generation by what `f` makes of it. -/
def State.updGen (s : State) (gen : Nat) (f : Generation → Generation) : State :=
  s.updStore (fun x => { x with gens := x.gens.map (fun (y : Generation) => if y.gen = gen then f y else y) })

/-- A field of a journal record, by its byte offset in the record (R436). -/
def JournalRec.field (r : JournalRec) (off n : Nat) : Nat := byteField r.body (off - 24) n

/-- SP appends COMMIT once every data page has programmed (R433, R436). -/
def State.commit (s : State) (g : Generation) : State :=
  let d := g.data.digestOf (g.len * 4096)
  s.journal 3 g.fn g.gen [(24, 4, g.step), (32, 4, g.len), (40, 8, g.len * 4096), (48, 16, d.1.toNat), (64, 4, d.2)]

/-- A record has programmed in copy A: with COMMIT its generation is committed (R434), with DISCARD nothing names it any more. -/
def State.inCopyA (s : State) (r : JournalRec) : State :=
  let s := s.updStore (fun x => { x.append false r with inB := true })
  match r.type with
  | 3 => s.updGen r.gen (fun y => { y with committed := true, digest := BitVec.ofNat 128 (r.field 48 16), poisoned := r.field 64 4 })
  | 4 => s.updStore (fun x => { x with dropped := x.dropped.filter (fun g => g.gen != r.gen) })
  | _ => s

/-- And in copy B: with COMMIT the store leg reports it, and the function's generations are trimmed to KEEP (R433, R434). -/
def State.inCopyB (s : State) (r : JournalRec) : State :=
  let s := s.updStore (fun x => { x.append true r with queue := x.queue.drop 1, inB := false })
  if r.type = 3 then ((s.updGen r.gen (fun y => { y with told := true })).endStoreLeg r.gen 1).trim r.fn else s

/-- The program of the queue's first record ends (R437). A failed one retires the journal block, and the record is written again; the
other copy is untouched (R449). -/
def State.recordPage (s : State) (r : JournalRec) (pass : Bool) : State :=
  let x := s.store
  if !pass then
    let p := if x.inB then recordPlace true x.upperB x.copyB.length else recordPlace false x.upperA x.copyA.length
    (s.failBlock p.1 p.2.1 p.2.2.1).1
  else if x.inB then s.inCopyB r else s.inCopyA r

/-- Every record of the queue programs (R438: before any drain or restore). -/
def State.flushJournal (s : State) : Nat → State
  | 0 => s
  | n + 1 => match s.store.queue with
    | [] => s
    | r :: _ => State.flushJournal (s.recordPage r true) n

/-- Whether the store leg of a generation still runs (R266). -/
def State.legOpen (s : State) (g : Generation) : Bool :=
  s.drains.any (fun d => d.fn == g.fn && d.gen == g.gen && d.store && d.storeEnd == 0)

/-- With all its pages programmed, a generation gets COMMIT (R433); one whose drain met OVERLAP does not commit (R261): DISCARD with
REASON 3. -/
def State.settlePages (s : State) (g : Generation) : State :=
  if !(g.isOpen && g.pages == g.units && s.legOpen g) then s
  else if s.drains.any (fun d => d.fn == g.fn && d.overlap) then (s.discard g.gen 3).endStoreLeg g.gen 3
  else if s.store.queue.any (fun r => r.type == 3 && r.gen == g.gen) then s
  else s.commit g

/-- Page units of a generation whose data has all arrived. -/
def Generation.ready (g : Generation) : Nat := if g.len * 65536 ≤ g.filled then g.units else g.filled / pageBytes

/-- The pages in program when the store pauses or SP crashes, which still complete (R449): those whose data is there, at most
one for each of the 256 planes, and a journal page, under 0. -/
def State.finishPages (s : State) : State :=
  s.updStore (fun x => { x with finish :=
      (if x.queue.isEmpty then [] else [(0, 1)]) ++ (x.gens.filter Generation.isOpen).map (fun g => (g.gen, min g.ready (g.pages + 256))) })

/-- The store pauses (R449). -/
def State.pauseStore (s : State) : State :=
  if s.store.paused then s else s.finishPages.updStore (fun x => { x with paused := true })

/-- The store goes on, when SP is up and it is not paused (R449). -/
def State.storeGo (s : State) : State :=
  if !s.spRuns || s.store.paused then s
  else
    let s := s.updStore (fun x => { x with finish := [] })
    s.store.gens.foldl (fun s g => s.settlePages g) s

/-- The store no longer pauses (R449). -/
def State.unpauseStore (s : State) : State := (s.updStore (fun x => { x with paused := false })).storeGo

/-- The program of a data page of an open generation ends (R433, R445). -/
def State.dataPage (s : State) (g : Generation) (pass : Bool) : State :=
  if pass then
    let s := s.updStore (fun x => { x with
      writtenBytes := x.writtenBytes + (min (g.len * 65536) ((g.pages + 1) * pageBytes) - g.pages * pageBytes) })
    let s := (s.updGen g.gen (fun y => { y with pages := g.pages + 1 })).rate
    if s.spRuns && !s.store.paused then s.settlePages { g with pages := g.pages + 1 } else s
  else
    let p := placeData (g.pages * pageBytes)
    let r := s.failBlock p.2.2.1 p.2.2.2 (g.stripes.getD p.1 0)
    if r.2 then r.1 else (r.1.discard g.gen 3).endStoreLeg g.gen 3

/-- The record whose page is in program, if it is one of function `j` (R437): SP runs, or the store finishes its pages (R449). -/
def Store.recordDue (x : Store) (j : Nat) (live : Bool) : Option JournalRec :=
  match x.queue with
  | r :: _ => if r.fn = j ∧ (live = true ∨ agetD x.finish 0 0 ≠ 0) then some r else none
  | [] => none

/-- The open generation of function `j` whose next data page may be in program: its OPEN and EXTENT have programmed (R433). -/
def Store.pageDue (x : Store) (j : Nat) (live : Bool) : Option Generation :=
  match x.gens.find? (fun g => g.fn == j && g.isOpen) with
  | none => none
  | some g =>
    if x.due.any (fun e => e.1 == g.gen) || x.queue.any (fun r => r.gen == g.gen && decide (r.type ≤ 2)) || decide (g.ready ≤ g.pages) ||
        !(live || decide (g.pages < agetD x.finish g.gen 0)) then none
    else some g

/-- PAGE_PROGRAM_DONE (R433, R434, R437, R445, R449): the next page of function `j`: the journal record to be programmed, in copy A and
then in copy B, where it is one of the function's; else the next data page of its open generation. -/
def execPageProgramDone (j : Nat) (pass : Bool) (s : State) : Out :=
  let live := s.spRuns && !s.store.paused
  if !s.ioClocked 1 then .next s
  else match s.store.recordDue j live with
    | some r => .next ((s.recordPage r pass).updStore (fun x => { x with finish := x.finish.filter (fun e => e.1 != 0) }))
    | none => match s.store.pageDue j live with
      | some g => .next (s.dataPage g pass)
      | none => .next s

/-- A copy of the journal whose next record was in program when the supply was lost: a torn record, and its paired page, the one
before it on the wordline, corrupted (R437). -/
def tornCopy (l : List JournalRec) : List JournalRec :=
  (if l.length % 2 = 1 then l.dropLast ++ (l.getLast?.toList.map (fun r => { r with good := false })) else l) ++
    [{ seq := 0, type := 0, fn := 0, gen := 0, body := [], good := false }]

/-- The store after a loss of supply: the record that was in program is torn, in one copy only (R437, R439). -/
def Store.torn (x : Store) (spUp : Bool) : Store :=
  if !spUp || x.paused || x.queue.isEmpty then x
  else if x.inB then { x with copyB := tornCopy x.copyB } else { x with copyA := tornCopy x.copyA }

/-- What a reset leaves of the store (R439): records that are in no copy are lost. -/
def Store.restarting (x : Store) : Store :=
  { x with finish := [], starting := true, scrubbing := false, relocate := [], due := [], queue := [], inB := false }

/-- Whether a stripe holds pages a running restore has yet to read (R449). -/
def Store.underRestore (x : Store) (b : Nat) : Bool :=
  match x.restore with
  | none => false
  | some r => match x.gens.find? (fun g => g.gen == r.gen) with
    | none => false
    | some g => match g.stripes.findIdx? (· == b) with
      | none => false
      | some i => decide (r.next * pageBytes < (i + 1) * stripeBytes)

/-- Relocation of a stripe of the system area (R443, R444): the journals that lie in its half of their copy move to the other. -/
def State.relocateSystem (s : State) (b : Nat) : State :=
  let move (copyB : Bool) (x : Store) : Store := if x.inHalf (if copyB then 8 else 0) b then x.compact copyB else x
  (s.updStore (fun x => { move true (move false x) with relocate := x.relocate.filter (· != b) })).count 0 Reg.gnErr 15 0 1

/-- Relocation of one stripe (R443): copied, words unchanged, to a free stripe, RELOCATE written, and the old stripe to be erased. -/
def State.relocateStripe (s : State) (b : Nat) : State :=
  if b < 8 then s.relocateSystem b else
  match s.store.gens.find? (fun g => g.stripes.contains b), s.store.ordered with
  | some g, n :: _ =>
    let s := s.journal 5 g.fn g.gen [(24, 2, g.stripes.idxOf b), (26, 2, b), (28, 2, n)]
    let s := s.updStore (fun x => { x with
      relocate := x.relocate.filter (· != b)
      erasing := x.erasing ++ [(b, List.range 256)]
      gens := x.gens.map (fun (y : Generation) => if y.gen = g.gen then { y with stripes := y.stripes.map (fun q => if q = b then n else q) } else y) })
    s.count 0 Reg.gnErr 15 0 1
  | none, _ => s.updStore (fun x => { x with relocate := x.relocate.filter (· != b) })
  | some _, [] => s

/-- Relocates the stripes that are due, but those under a restore (R449). -/
def State.relocateDue (s : State) : State :=
  if !s.spRuns || s.store.paused then s
  else s.store.relocate.foldl (fun s b => if s.store.underRestore b then s else s.relocateStripe b) s

/-- Marks the stripe of a block for relocation when a committed generation or the journal holds it. -/
def State.wantRelocate (s : State) (b : Nat) : State :=
  let system := decide (b < 8) && (s.store.inHalf 0 b || s.store.inHalf 8 b)
  if s.store.relocate.contains b || !(system || s.store.gens.any (fun g => g.committed && g.stripes.contains b)) then s
  else s.updStore (fun x => { x with relocate := x.relocate ++ [b] })

/-- Programmed pages of the retained generations and of the system area, which a scrub pass reads (R443). -/
def Store.programmedPages (x : Store) : Nat :=
  ((x.gens.filter (·.committed)).map Generation.units).sum + x.copyA.length + x.copyB.length

/-- Whether a page is one of them. -/
def Store.programmed (x : Store) (die plane block page : Nat) : Bool :=
  let b := x.stripeOf (blockNo die plane block)
  if b < 8 then x.inHalf die b && decide (recordAt die plane b page < (if onCopyB die then x.copyB else x.copyA).length)
  else x.gens.any (fun g => g.committed && g.stripes.zipIdx.any (fun e =>
    e.1 == b && decide (e.2 * 262144 + page * 256 + plane * 64 + die < g.units)))

/-- What a running scrub pass makes of a page read (R443): the stripe is to be relocated after a read retry, or once its frames
have needed more than 96 corrected bits in the pass. The pass ends when every programmed page has been read. -/
def Store.scrubRead (x : Store) (die plane block page bits : Nat) : Store :=
  let k := blockNo die plane block
  if !x.scrubbing || !x.programmed die plane block page || x.scrubbed.contains (1024 * k + page) then x
  else
    let b := x.stripeOf k
    let l := x.scrubbed ++ [1024 * k + page]
    { x with scrubbed := l, corrected := aput x.corrected b (agetD x.corrected b 0 + bits)
             scrubbing := decide (l.length < x.programmedPages) }

/-- STORE_SCRUB_PASS begins (R442, R443): idle stripes whose mean erase count lies more than 1,000 below the pool's move. -/
def State.startScrub (s : State) : State :=
  let x := s.store
  let pool := x.poolErases
  -- mean of the stripe (/256) + 1000 < mean of the pool (/1,030,144)
  let cold := x.used.filter (fun b => decide ((x.stripeErases b + 256000) * 4024 < pool))
  let s := s.updStore (fun x => { x with scrubbing := decide (0 < x.programmedPages), scrubbed := [], corrected := [] })
  (cold.foldl (fun s b => s.wantRelocate b) s).relocateDue

/-- STORE_SCRUB_PASS (R443, R406 function 8). -/
def execStoreScrubPass (s : State) : Out :=
  if !(s.reg 0 Reg.gnCfg).getLsbD 31 || !s.spRuns || s.store.paused || s.decisions.any (fun d => d.fn == 8) then .next s
  else
    let (s, waits) := s.decisionPoint 8 0 0
    .next (if waits then s else s.startScrub)

/-- The erase of a block ends: one block less of a relocated stripe is to be erased (R443). -/
def Store.erased (x : Store) (die plane block : Nat) : Store :=
  let k := blockNo die plane block
  { x with erasing := (x.erasing.map (fun e =>
      if x.live (blockNo die plane e.1) = k then (e.1, e.2.filter (· != 64 * plane + die)) else e)).filter (fun e => !e.2.isEmpty) }

/-- BLOCK_ERASE_DONE (R437, R443, R445): an erase of a block that holds no generation's data and no journal; a failed one retires the
block. -/
def execBlockEraseDone (die plane block : Nat) (pass : Bool) (s : State) : Out :=
  if 64 ≤ die || 4 ≤ plane || 4096 ≤ block || !s.ioClocked 1 || s.store.holds die plane block then .next s
  else
    let k := blockNo die plane block
    let s := s.updStore (fun x => x.erased die plane block)
    if pass then
      .next ((s.updStore (fun x => { x with erases := tset x.erases k (tget x.erases k + 1), reads := tset x.reads k 0 })).rate)
    else .next (s.failBlock die plane block).1

/-- The data of page unit `k` of a generation as the read returns it (R428, R440): words of the failed frames are the
canonical poisoned word; the others are corrected or poisoned under the 144/128 code (R325). -/
def Generation.page (g : Generation) (k : Nat) (bad : List Nat) : List Code :=
  let n := (min (g.len * 65536) ((k + 1) * pageBytes) - k * pageBytes) / 16
  (g.data.codes (k * 768) n).zipIdx.map (fun (c, i) => if bad.contains (i / 192) then poisonCode else corrected c)

/-- Page reads of a restore go on in order (R440): the words are written as agent writes, line by line through the function's
map. -/
def State.restorePage (s : State) (r : Restore) (g : Generation) (bad : List Nat) : State :=
  let codes := g.page r.next bad
  let lines := (chunks 128 codes).zipIdx.map (fun e => (s.translate r.fn (r.base + r.next * pageBytes + 2048 * e.2), e.1))
  match lines.findSome? (fun e => e.1.bind (fun d => s.agentGate d (16 * e.2.length) true)) with
  | some s => s
  | none =>
    let s := lines.foldl (fun s e => match e.1 with | some d => s.agentWriteCodes d e.2 | none => s) s
    let bad := r.poisoned + (codes.filter lostWord).length
    (s.updStore (fun x => { x with restore := some { r with
      next := r.next + 1, data := r.data.putCodes (r.next * 768) codes, poisoned := bad } })).setRegF 0 Reg.gnRestoreStatus 15 0 (min 65535 bad)

/-- PAGE_READ_DONE (R428, R440, R443, R444): `bad` the frames that stay uncorrectable after `retries` re-reads. -/
def execPageReadDone (die plane block page retries correctedBits : Nat) (bad : List Nat) (s : State) : Out :=
  if 64 ≤ die || 4 ≤ plane || 4096 ≤ block || 1024 ≤ page || 8 < retries || !s.spRuns then .next s
  else
    let k := blockNo die plane block
    let reads := tget s.store.reads k + BitVec.ofNat 32 (1 + retries)
    let bad := distinct (bad.filter (· < 4))
    let s := s.updStore (fun x => { x with reads := tset x.reads k reads })
    let s := s.count 0 Reg.gnErr 31 16 bad.length
    let limit := max 1 (s.regF 0 Reg.gnCfg 15 8) * 10000
    let b := s.store.stripeOf k
    let s := if limit ≤ reads.toNat then s.wantRelocate b else s
    let scrub := s.store.scrubbing && s.store.programmed die plane block page
    let s := s.updStore (fun x => x.scrubRead die plane block page correctedBits)
    let s := if scrub && (retries != 0 || decide (96 < agetD s.store.corrected b 0)) then s.wantRelocate b else s
    let s := match s.store.restore with
      | none => s
      | some r =>
        match s.store.gens.find? (fun (g : Generation) => g.gen == r.gen) with
        | none => s
        | some g =>
          let p := placeData (r.next * pageBytes)
          if r.next < g.units && s.store.live (blockNo p.2.2.1 p.2.2.2 (g.stripes.getD p.1 0)) == k && p.2.1 == page && !s.store.paused then
            s.restorePage r g bad
          else s
    .next s.relocateDue

/-- A write of GN_GEN_SEL (R440): the selected generation's information is latched. -/
def writeGnGenSel (s : State) (v : Word) : State :=
  let s := s.setReg 0 Reg.gnGenSel (v &&& 0x00001F03)
  match (s.store.committed (field v 12 8))[field v 1 0]? with
  | none => ((s.setReg 0 Reg.gnGenInfoA 0).setReg 0 Reg.gnGenInfoB 0).setReg 0 Reg.gnGenInfoC 0
  | some g =>
    let b := 2 ^ 31 + g.buf * 2 ^ 24 + g.len
    ((s.setReg 0 Reg.gnGenInfoA (BitVec.ofNat 32 g.gen)).setReg 0 Reg.gnGenInfoB (BitVec.ofNat 32 b)).setReg 0 Reg.gnGenInfoC
      (BitVec.ofNat 32 g.step)

/-- RESULT of GN_RESTORE_STATUS. -/
def State.restoreResult (s : State) (x : Nat) : State := s.setRegF 0 Reg.gnRestoreStatus 23 16 x

/-- Buffer `buf` of a function's state set: tenant base and length (R258). -/
def State.wset (s : State) (j buf : Nat) : Nat × Nat :=
  ((s.reg j (if buf = 0 then Reg.wsetBaseA else Reg.wsetBaseB)).toNat * 65536, s.regF j Reg.wsetCtrl 23 0 * 65536)

/-- Whether every byte of a tenant range is mapped: regions come in units of 64 MiB (R382). -/
def State.rangeMapped (s : State) (j base len : Nat) : Bool :=
  (List.range (len / 2 ^ 26 + 2)).all (fun i => len == 0 || (s.translate j (min (base + i * 2 ^ 26) (base + len - 1))).isSome)

/-- CMD 1 of GN_RESTORE_CMD (R440, R441); a buffer that the function's map does not hold whole is refused alike (log entry 57). -/
def startRestore (s : State) (buf : Nat) : State :=
  let fn := s.regF 0 Reg.gnGenSel 12 8
  match (s.store.committed fn)[s.regF 0 Reg.gnGenSel 1 0]? with
  | none => s.restoreResult 2
  | some g =>
    let w := s.wset fn buf
    if !(s.reg fn Reg.wsetCtrl).getLsbD 31 || w.2 < g.len * 65536 || s.drains.any (fun d => d.fn == fn) || s.store.restore.isSome ||
        !s.rangeMapped fn w.1 (g.len * 65536) then
      s.restoreResult 2
    else
      let s := s.updStore (fun x => { x with restore := some { gen := g.gen, fn := fn, base := w.1 } })
      s.setReg 0 Reg.gnRestoreStatus 0x80000000

/-- CMD 2 of GN_RESTORE_CMD (R450). -/
def cancelRestore (s : State) : State :=
  if s.store.restore.isNone then s
  else ((s.updStore (fun x => { x with restore := none })).setRegF 0 Reg.gnRestoreStatus 31 31 0).restoreResult 3

/-- A write of GN_RESTORE_CMD. -/
def writeGnRestore (s : State) (v : Word) : State :=
  match field v 1 0 with
  | 1 => startRestore s (field v 8 8)
  | 2 => cancelRestore s
  | _ => s

/-- RESTORE_COMPLETE (R440): every page is copied; the digest is judged. -/
def execRestoreComplete (s : State) : Out :=
  match s.store.restore with
  | none => .next s
  | some r =>
    match s.store.gens.find? (fun g => g.gen == r.gen) with
    | none => .next s
    | some g =>
      if r.next < g.units then .next s
      else
        let ok := (r.data.digestOf (g.len * 4096)).1 == g.digest
        let s := s.updStore (fun x => { x with restore := none })
        .next ((s.setReg 0 Reg.gnRestoreStatus (BitVec.ofNat 32 ((if ok then 2 ^ 30 else 0) + 2 ^ 16 + min 65535 r.poisoned))).relocateDue)

/-- What a record tells of the generations (R436, R438). -/
def applyRecord (gens : List Generation) (r : JournalRec) : List Generation :=
  let upd (f : Generation → Generation) := gens.map (fun g => if g.gen = r.gen then f g else g)
  match r.type with
  | 1 => gens ++ [{ gen := r.gen, fn := r.fn, step := r.field 24 4, buf := r.field 28 1, len := r.field 32 4 }]
  | 2 => upd (fun g => { g with stripes := g.stripes.take (r.field 24 2) ++ (List.range (r.field 26 2)).map (fun k => r.field (28 + 2 * k) 2) })
  | 3 => upd (fun g => { g with committed := true, told := true, digest := BitVec.ofNat 128 (r.field 48 16), poisoned := r.field 64 4 })
  | 4 => gens.filter (fun g => g.gen != r.gen)
  | 5 => upd (fun g => { g with stripes := g.stripes.set (r.field 24 2) (r.field 28 2) })
  | _ => gens

/-- The records a start finds (R438): those of either copy that are good, by SEQ, copy A's where both hold one. -/
def Store.records (x : Store) : List JournalRec :=
  let a := x.copyA.filter (·.good)
  (a ++ (x.copyB.filter (·.good)).filter (fun r => !a.any (fun q => q.seq == r.seq))).mergeSort (fun a b => decide (a.seq ≤ b.seq))

/-- The generations the records describe, with what their stripes hold (R438). -/
def Store.rebuilt (x : Store) : List Generation :=
  (x.records.foldl applyRecord []).map (fun g => match (x.gens ++ x.dropped).find? (fun y => y.gen == g.gen) with
    | some y => { g with data := y.data, filled := y.filled, pages := y.pages }
    | none => g)

/-- JOURNAL_REBUILD (R438): the generations are those the records describe, the copies are made alike, open generations get
DISCARD with REASON 1, retained ones are trimmed to KEEP. -/
def State.journalRebuild (s : State) : State :=
  let s := s.updStore (fun x =>
    let x := { x.restarting with gens := x.rebuilt, dropped := [], copyA := x.records, copyB := x.records, starting := false }
    { x with erasing := x.erasing.filter (fun e => !x.used.contains e.1) })
  let s := (s.store.gens.filter Generation.isOpen).foldl (fun s g => s.discard g.gen 1) s
  let s := (List.range 17).foldl (fun s j => s.trim j) s
  s.flushJournal (2 * s.store.queue.length)

/-- SP is back (R263, R449): the DISCARDs that waited for it are written. -/
def State.storeResume (s : State) : State :=
  let due := s.store.due
  (due.foldl (fun s e => s.discard e.1 e.2) (s.updStore (fun x => { x with due := [] }))).storeGo

/-- A restore ended by a reset (R449). -/
def State.restoreReset (s : State) : State :=
  if s.store.restore.isNone then s
  else ((s.updStore (fun x => { x with restore := none })).setRegF 0 Reg.gnRestoreStatus 31 31 0).restoreResult 4

end Sys2Proof.Machine
end

