-- ==== Sys2Proof/Machine/Drain.lean ====
section
/-! DEFINITION. Drains: acceptance (R258), the buddy leg (R410, R411, R412), the store leg (R259), overlap (R261), abort
(R263), checkpoint scheduling (R406) and completion (R260, R413). -/

namespace Sys2Proof.Machine

/-- The refusals of a DRAIN entry that apply (R258), the lowest code first (log entry 48). `legs` 1 buddy, 2 store, 3 both. -/
def State.drainCheck (s : State) (j legs : Nat) : Option Nat :=
  let a := s.wset j 0
  let b := s.wset j 1
  let buddy := legs % 2 == 1
  let store := decide (2 ≤ legs)
  if !(s.reg j Reg.wsetCtrl).getLsbD 31 || a.2 = 0 || (decide (a.1 < b.1 + b.2) && decide (b.1 < a.1 + a.2)) ||
      !s.rangeMapped j a.1 a.2 || !s.rangeMapped j b.1 b.2 then some 8
  else if s.drains.any (fun d => d.fn == j) || (store && !s.storeStarts j (s.regF j Reg.wsetCtrl 23 0)) then some 9
  else if buddy && ((s.posOf j).isNone || s.vcClosed j 11) then some 0xB
  else if buddy && !(s.reg 0 (Reg.buddyCfg j)).getLsbD 31 then some 0xC
  else none

/-- Updates a function's drain. -/
def State.updDrain (s : State) (j : Nat) (f : Drain → Drain) : State :=
  { s with drains := s.drains.map (fun (d : Drain) => if d.fn = j then f d else d) }

/-- A function's drain. -/
def State.drainOf (s : State) (j : Nat) : Option Drain := s.drains.find? (fun d => d.fn == j)

/-- The marked sectors of a function's delta range (R411). -/
def State.deltaMarks (s : State) (j : Nat) : List Nat :=
  let n := s.regF j Reg.deltaCtrl 23 0
  let base := (s.reg j Reg.deltaMap).toNat * 65536
  if !(s.reg j Reg.deltaCtrl).getLsbD 31 then []
  else (List.range (n * 64)).flatMap (fun i =>
    match s.translate j (base + i) with
    | none => []
    | some d =>
      let b := (s.coherent (d / 128)).bytes.getD (d % 128) 0
      (bitsOf b).map (8 * i + ·))

/-- What the reading of a function's delta map waits for (R274, R307, R385): none when it may be read now. -/
def State.mapGate (s : State) (j : Nat) : Option State :=
  if !(s.reg j Reg.deltaCtrl).getLsbD 31 then none
  else (s.translate j ((s.reg j Reg.deltaMap).toNat * 65536)).bind (fun d => s.agentGate d (64 * s.regF j Reg.deltaCtrl 23 0) false)

/-- Adds the store leg to a drain (R433): a generation opens. -/
def State.addStoreLeg (s : State) (j : Nat) : State :=
  match s.drainOf j with
  | none => s
  | some d =>
    let r := s.openGeneration j d.step d.buf (d.len / 65536)
    let s := r.1.updDrain j (fun d => { d with store := true, gen := r.2, storeEnd := 0 })
    (s.updFn j (fun f => { f with drains := 0 })).setRegF j Reg.drainStatus 29 28 (if d.buddy then 3 else 2)

/-- The answer or fallback of function 4 (R406): the store leg is added, if a generation can start, or skipped. -/
def State.scheduleStore (s : State) (j : Nat) (add : Bool) : State :=
  match s.drainOf j with
  | none => s
  | some d =>
    let s := s.updDrain j (fun d => { d with hold := false })
    if add && s.storeStarts j (d.len / 65536) then s.addStoreLeg j else s

/-- A drain starts (R258, R259): its status, its delta sectors, its generation, and the decision of function 4 when
STORE_EVERY is reached by a buddy-only drain. -/
def State.startDrain (s : State) (j ring seq buf legs step : Nat) : State :=
  let w := s.wset j buf
  let buddy := legs % 2 == 1
  let marks := if buddy then s.deltaMarks j else []
  let d : Drain := { fn := j, ring, seq, buf, buddy, store := false, step, base := w.1, len := w.2
                     delta := marks, hadDelta := buddy && (s.reg j Reg.deltaCtrl).getLsbD 31 }
  let s := { s with drains := s.drains ++ [d] }
  let st := setField (setField (setField (setField (s.reg j Reg.drainStatus) 31 31 1) 30 30 buf) 29 28 legs) 26 26 0
  let s := (s.setReg j Reg.drainStatus st).setReg j Reg.drainProgress 0
  if 2 ≤ legs then s.addStoreLeg j
  else
    let s := s.updFn j (fun f => { f with drains := f.drains + 1 })
    let every := s.regF 0 (Reg.buddyCfg j) 30 20
    if every = 0 || (s.fn j).drains < every then s
    else
      let (s, waits) := s.decisionPoint 4 j 0
      if waits then s.updDrain j (fun d => { d with hold := true }) else s.scheduleStore j true

/-- Sends one CKPT of the buddy leg (R337, R338, R410). -/
def State.sendCkpt (s : State) (d : Drain) (offset : Nat) (codes : List Code) : State :=
  match s.posOf d.fn with
  | none => s.updDrain d.fn (fun d => { d with lost := true })
  | some src =>
    s.send { fn := d.fn, dst := s.regF 0 (Reg.buddyCfg d.fn) 19 0, src, kind := 7, vc := 11
             hdr := hdrWord 7 offset (codes.length / 8 - 1) 0 0 d.step 0 0 0 0 0
             words := codes, stripe := (offset >>> 16) % 32 }

/-- The 8 words of the marker sector (R412). -/
def markerCodes (d : Drain) : List Code :=
  let b := leBytes 4 d.step ++ leBytes 8 d.sent ++ leBytes 4 ((if d.hadDelta then 1 else 0) + (if d.overlap then 2 else 0)) ++ leBytes 112 0
  (Sector.ofBytes b).codes

/-- The marker sector goes last (R411), at the end of the receive region, whose length the sender takes from its own
BUDDY_RX_LEN (log entry 49). -/
def State.finishBuddy (s : State) (j : Nat) : State :=
  match s.drainOf j with
  | none => s
  | some d =>
    if d.buddy && !d.marker && d.delta.isEmpty && decide (d.len ≤ d.next) then
      (s.sendCkpt d ((s.rxRegion j).2 - 128) (markerCodes d)).updDrain j (fun d => { d with marker := true })
    else s

/-- The device address of the delta map's byte with bit `i` (R411). -/
def State.markByte (s : State) (j i : Nat) : Option Nat := s.translate j ((s.reg j Reg.deltaMap).toNat * 65536 + i / 8)

/-- Clears a mark of the delta map: an agent write (R411). -/
def State.clearMark (s : State) (j i : Nat) : State :=
  match s.markByte j i with
  | none => s
  | some d =>
    let old := ((s.coherent (d / 128)).bytes.getD (d % 128) 0).toNat
    s.agentWrite d [BitVec.ofNat 8 (old - (if old.testBit (i % 8) then 2 ^ (i % 8) else 0))]

/-- What a drain reads next: a marked sector of the delta range, then the lines of the buffer in ascending order (R259,
R411). Device address, bytes, and the sector's number. -/
def State.drainNext (s : State) (d : Drain) : Option (Nat × Nat × Option Nat) :=
  if d.hold then none
  else match d.delta with
    | i :: _ => (s.translate d.fn ((s.reg d.fn Reg.deltaBase).toNat * 65536 + 128 * i)).map (fun a => (a, 128, some i))
    | [] => if d.next < d.len then (s.translate d.fn (d.base + d.next)).map (fun a => (a, 2048, none)) else none

/-- One read of a drain, sent to its legs (R259). -/
def State.drainRead (s : State) (d : Drain) (a n : Nat) (mark : Option Nat) : State :=
  let (s, codes) := s.agentCodes a n
  let size := d.len
  match mark with
  | some i =>
    let s := (s.clearMark d.fn i).sendCkpt d (size + 128 * i) codes
    (s.updDrain d.fn (fun d => { d with delta := d.delta.drop 1, sent := d.sent + 128 })).finishBuddy d.fn
  | none =>
    let s := if d.buddy then s.sendCkpt d d.next codes else s
    let s := if d.store && d.storeEnd = 0 then s.fillGeneration d.gen codes else s
    let s := s.updDrain d.fn (fun x => { x with next := x.next + 2048, sent := if x.buddy then x.sent + 2048 else x.sent })
    (s.setRegF d.fn Reg.drainProgress 23 0 ((d.next + 2048) / 65536)).finishBuddy d.fn

/-- AGENT_READ (R275): at the next address of a drain it is that drain's read (R259); else a read on behalf of an agent that
the table gives no other row, answered at interface 2. -/
def execAgentRead (addr len : Nat) (s : State) : Out :=
  let mine := s.drains.findSome? (fun d => match s.drainNext d with
    | some x => if x.1 = addr then some (d, x) else none
    | none => none)
  match mine with
  | some (d, x) =>
    match s.agentGate x.1 x.2.1 false with
    | some s => .next s
    | none => match (x.2.2.bind (s.markByte d.fn)).bind (fun a => s.agentGate a 1 true) with
      | some s => .next s
      | none => .next (s.drainRead d x.1 x.2.1 x.2.2)
  | none => .next (agentReadRow s addr len)

/-- A write of DRAIN_CTRL (R263); with the generation committed there is none open to abort (R434). -/
def writeDrainCtrl (s : State) (j : Nat) (v : Word) : State :=
  match s.drainOf j with
  | none => s
  | some d =>
    if v.getLsbD 0 && d.store && d.storeEnd = 0 && !s.store.gens.any (fun g => g.gen == d.gen && g.committed) then
      (s.endGeneration d.gen 2).updDrain j (fun d => { d with storeEnd := 2 })
    else s

/-- Whether every CKPT of a function's leg has left its ports (R413). -/
def State.ckptsLeft (s : State) (j : Nat) : Bool :=
  !s.egress.any (fun m => m.kind == 7 && m.fn == j) &&
  !(List.range 36).any (fun p => (s.port p).tx.any (fun t => t.msg.kind == 7 && t.msg.fn == j && decide (t.sent < t.msg.segs)))

/-- DRAIN_COMPLETE (R260): every requested leg has completed. DRAIN_STATUS then shows ACTIVE 0 and keeps LEGS and BUF (DESIGN CHOICE,
log entry 139). -/
def execDrainComplete (j : Nat) (s : State) : Out :=
  match s.drainOf j with
  | none => .next s
  | some d =>
    let buddyDone := !d.buddy || (d.marker && (d.lost || s.ckptsLeft j))
    let storeDone := !d.store || d.storeEnd != 0
    if d.hold || !buddyDone || !storeDone then .next s
    else
      let s := { s with drains := s.drains.filter (fun (x : Drain) => x.fn != j) }
      let s := s.setRegF j Reg.drainStatus 31 31 0
      .next (s.completeEntry j d.ring d.seq
        { status := 0, overlap := d.overlap, buddyLeg := if !d.buddy then 0 else if d.lost then 2 else 1
          storeLeg := if d.store then d.storeEnd else 0, stepNo := d.step })

/-- A drain ends without completion (R266); on a tenant reset its open generation is discarded with REASON 3. -/
def State.dropDrain (s : State) (j : Nat) (tenant : Bool) : State :=
  match s.drainOf j with
  | none => s
  | some d =>
    let s := if tenant && d.store && d.storeEnd = 0 then s.endGeneration d.gen 3 else s
    let s := s.forget (fun d => d.fn == 4 && d.subject == j)
    { s with drains := s.drains.filter (fun (x : Drain) => x.fn != j) }

end Sys2Proof.Machine
end

