-- ==== Sys2Proof/Machine/Locus.lean ====
section
/-! DEFINITION. The Locus path: entries (R390, R391), their refusal checks (R526, R392), acceptance (R388), the work each
entry starts, and its completion (R393); ring registration (R386) and the HIF selection (R395). -/

namespace Sys2Proof.Machine

/-- Device address of the head slot of a ring (R387). -/
def State.headAddr (s : State) (j r : Nat) : Option Nat :=
  let base := s.regF j (Reg.locusRingHi r) 15 0 * 2 ^ 32 + s.regF j (Reg.locusRingLo r) 31 6 * 64
  s.translate j (base + 64 * ((s.ring j r).nextSeq % s.ringSize j r))

/-- The 64 bytes of a slot; none while it holds an uncorrectable word (R387). -/
def State.peekSlot (s : State) (d : Nat) : Option (List Byte) :=
  let x := s.coherent (d / 128)
  let o := d % 128
  if (List.range 4).any (fun i => x.pois.getLsbD (o / 16 + i)) then none else some ((x.bytes.drop o).take 64)

/-- The entry in the head slot, if it is present (R387). -/
def State.headEntry (s : State) (j r : Nat) : Option (List Byte) :=
  match (s.headAddr j r).bind s.peekSlot with
  | some b => if byteField b 0 2 = (s.ring j r).nextSeq then some b else none
  | none => none

/-- Bits of bytes 16 to 63 that an opcode defines (R391); the others are reserved. -/
def entryMask (op : Nat) : Option Nat :=
  let f (off hi lo : Nat) : Nat := (2 ^ (hi + 1 - lo) - 1) <<< (8 * (off - 16) + lo)
  match op with
  | 1 => some (f 16 17 0 + f 20 31 0 + f 24 63 0)
  | 2 => some (f 16 17 0 + f 20 31 0 + f 24 63 0)
  | 3 => some (f 16 2 0 + f 20 31 0)
  | 4 => some (f 16 7 0 + f 17 7 0 + f 20 19 0 + f 24 63 0 + f 32 63 0 + f 40 63 0 + f 48 7 0 + f 52 31 0)
  | 5 => some (f 16 31 0 + f 20 2 0)
  | 6 => some (f 16 3 0 + f 17 3 0 + f 18 3 0 + f 20 19 0 + f 24 63 0 + f 32 63 0 + f 40 63 0)
  | 7 => some 0
  | 8 => some (f 16 63 0 + f 24 31 0 + f 28 17 0)
  | _ => none

/-- A bit field of a byte of an entry. -/
def entryBits (b : List Byte) (off hi lo : Nat) : Nat := fieldN (byteField b off 4) hi lo

/-- Whether the fields of an entry lie in their ranges (R391, R392). -/
def entryFields (b : List Byte) : Bool :=
  let n (off k : Nat) : Nat := byteField b off k
  match n 2 1 with
  | 1 => n 16 4 % 8 == 0 && decide (1 ≤ n 20 4) && decide (n 20 4 ≤ 2 ^ 24)
  | 2 => n 16 4 % 8 == 0 && n 20 4 % 8 == 0 && decide (8 ≤ n 20 4) && decide (n 16 4 + n 20 4 ≤ 262144)
  | 3 => entryBits b 16 2 1 != 0
  | 4 => decide (n 16 1 ≤ 7) && entryBits b 17 1 0 != 3 && entryBits b 17 3 2 != 3
  | 6 =>
    let kind := entryBits b 16 1 0
    kind != 0 && n 24 8 % 128 == 0 && decide (n 24 8 % 2048 / 128 + n 18 1 < 16) &&
      (kind != 3 || nmaValid (entryBits b 16 3 2) (n 17 1))
  | _ => true

/-- Whether the addresses of an entry lie within the map (R391, R392). -/
def State.entryRange (s : State) (j : Nat) (b : List Byte) : Bool :=
  let n (off k : Nat) : Nat := byteField b off k
  let within (a k : Nat) : Bool := k == 0 || s.inOneRegion j a k
  match n 2 1 with
  | 1 => n 24 8 == 0 || (s.translate j (n 24 8)).isSome
  | 2 => within (n 24 8) (n 20 4)
  | 4 =>
    let g := entryBits b 17 7 5
    let op := n 16 1
    let size := if entryBits b 17 4 4 = 1 ∨ op = 7 then 2 else 4
    let e := if op = 7 then (n 40 4 * n 48 1, n 44 4 * n 48 1)
      else collExtents op (n 40 8) (s.regF j (Reg.collGroupSize g) 20 0) (s.regF j (Reg.collGroupRank g) 19 0) (entryBits b 20 19 0)
    within (n 24 8) (size * e.1) && within (n 32 8) (size * e.2)
  | 6 => decide (n 24 8 < 2 ^ 48) && within (n 32 8) (if entryBits b 16 1 0 = 3 then 128 else 128 * (n 18 1 + 1))
  | 8 => within (n 16 8) 64
  | _ => true

/-- The refusal check made at once (R526): ENTRY_INVALID, ENTRY_RANGE, DEP_INVALID, with what an older HIF lacks (R395). -/
def State.atOnce (s : State) (j : Nat) (b : List Byte) : Option Nat :=
  let n (off k : Nat) : Nat := byteField b off k
  let op := n 2 1
  let depv := entryBits b 3 2 2 == 1
  match entryMask op with
  | none => some 1
  | some m =>
    if entryBits b 3 7 3 != 0 || entryBits b 6 7 6 != 0 || n 7 1 != 0 || n 16 48 &&& m != n 16 48 || !entryFields b ||
        (op == 8 && decide (s.hifMinor j < 2)) || (depv && s.hifMinor j == 0) then some 1
    else if !s.entryRange j b then some 2
    else if depv && !s.registered j (n 6 1) then some 3
    else none

/-- The entry's record fields (R390). -/
def entryOf (j r : Nat) (b : List Byte) : Entry :=
  { fn := j, ring := r, seq := byteField b 0 2, opcode := byteField b 2 1, user := BitVec.ofNat 64 (byteField b 8 8)
    msix := entryBits b 3 0 0 == 1 }

/-- A LOWER, which MP takes up, not the front end (R391); an older HIF has none (R395). -/
def State.mpEntry (s : State) (j : Nat) (b : List Byte) : Bool := byteField b 2 1 == 8 && decide (2 ≤ s.hifMinor j)

/-- Whether a ring has a head entry for the front end to deal with (R388). -/
def State.offers (s : State) (j r : Nat) : Bool :=
  s.registered j r && (s.ring j r).judged && (match s.headEntry j r with | some b => !s.mpEntry j b | none => false)

/-- Whether the round of the front end is at a ring (R388): of the rings that offer an entry, the first after the one served last. -/
def State.inTurn (s : State) (j r : Nat) : Bool :=
  ((List.range 64).map (fun k => ((s.fn j).lastRing + 1 + k) % 64)).find? (fun q => s.offers j q) == some r

/-- The front end has dealt with the head entry of a ring, accepted it, refused it or found it not ready (R388). -/
def State.servedRing (s : State) (j r : Nat) : State := s.updFn j (fun f => { f with lastRing := r })

/-- The head entry of a ring has been accepted or refused: NEXT_SEQ advances, and the next slot is read once (R387). -/
def State.takeHead (s : State) (j r : Nat) : State :=
  s.updRing j r (fun q => { q with nextSeq := (q.nextSeq + 1) % 65536, judged := false, woken := true })

/-- The parts of a record that come from the entry itself (R393, R394). -/
def entryRec (b : List Byte) (status : Nat) : Rec :=
  { status
    stepNo := if byteField b 2 1 = 3 then byteField b 20 4 else 0
    collId := if byteField b 2 1 = 5 then byteField b 16 4 else 0 }

/-- ENTRY_REFUSE (R526, R392): the record is written and nothing else happens (R34). -/
def State.refuse (s : State) (j r : Nat) (b : List Byte) (status : Nat) : State :=
  (s.writeRecord (entryOf j r b) (entryRec b status)).takeHead j r

/-- The head entry is accepted (R388). -/
def State.acceptHead (s : State) (j r : Nat) (b : List Byte) : State :=
  { s with entries := s.entries ++ [entryOf j r b] }.takeHead j r

/-- Whether a tenant's front end runs: P0, its I/O island clocked (IO0, R453), Locus acceptance open, the tenant enabled and
not in reset (R397, R477). -/
def State.frontEndRuns (s : State) (j : Nat) : Bool :=
  s.locusOpen && s.power.state == 0 && s.ioClocked 0 && s.enabled j && !(s.fn j).resetting

/-- Conditions 2 to 5 of R388, and the hold of function 3 (R406). -/
def State.entryReady (s : State) (j r : Nat) (b : List Byte) : Bool :=
  let dep := byteField b 6 1
  let seq := byteField b 4 2
  let reached := decide (((s.ring j dep).nextSeq + 65535 - seq) % 65536 < 32768)
  let open? := s.entries.any (fun (e : Entry) => e.fn == j && e.ring == dep && decide ((seq + 65536 - e.seq) % 65536 < 32768))
  (entryBits b 3 1 1 == 0 || s.outstandingOn j r == 0) &&
  (entryBits b 3 2 2 == 0 || (s.registered j dep && reached && !open?)) &&
  decide (s.outstanding j < 256) && s.power.warnAt.isNone && !s.power.throttle && !(s.fn j).recover

/-- A row that takes up a head entry the front end has judged (R526): the entry is read again (R389), the at-once checks are
made again, and with conditions 2 to 5 met `go` makes the checks at acceptance and accepts or refuses. Nothing changes while
the entry is another row's, or the front end's round is at another ring; an entry that is not ready stays, and the round goes on. -/
def State.takeUp (s : State) (j r : Nat) (mine : List Byte → Bool) (go : State → List Byte → State) : State :=
  if !(s.ring j r).judged || !s.registered j r || !s.frontEndRuns j then s
  else match s.headEntry j r with
    | none => s.updRing j r (fun q => { q with judged := false, woken := false })
    | some b =>
      if !mine b || !(s.mpEntry j b || s.inTurn j r) then s
      else
        let s := if s.mpEntry j b then s else s.servedRing j r
        match s.atOnce j b with
        | some code => s.refuse j r b code
        | none => if s.entryReady j r b then go s b else s

/-- The head of one ring, as the front end deals with it (R387, R526): MP judges a LOWER. -/
def State.judgeHead (s : State) (j r : Nat) : State :=
  let s := match s.headAddr j r with
    | some d => (s.agentRead d 64).1
    | none => s
  match s.headEntry j r with
  | none => s.updRing j r (fun q => { q with woken := false })
  | some b =>
    if s.mpEntry j b then s.updRing j r (fun q => { q with judged := true, woken := false })
    else match s.atOnce j b with
      | some code => (s.servedRing j r).refuse j r b code
      | none => s.updRing j r (fun q => { q with judged := true, woken := false })

/-- FRONT_END_WAKE (R387, R388): the front end of a tenant reads the head slots that writes have touched, ring after ring from the one
after the ring it served last. -/
def execFrontEndWake (j : Nat) (s : State) : Out :=
  if !s.frontEndRuns j then .next s
  else .next (((List.range 64).map (fun k => ((s.fn j).lastRing + 1 + k) % 64)).foldl (fun s r => if s.registered j r && (s.ring j r).woken then s.judgeHead j r else s) s)

/-- A native kernel header (R93). -/
structure KernelHeader where
  ver : Nat
  lowerVer : Nat
  h : Nat
  g : Nat
  ralelle : Bool
  o : Nat
  codeLen : Nat
  major : Nat
  minor : Nat
  features : Nat
  reserved : Bool
  deriving DecidableEq, Repr

/-- Reads a header from its 32 bytes (R93). -/
def kernelHeader (b : List Byte) : KernelHeader where
  ver := byteField b 0 2
  lowerVer := byteField b 2 2
  h := byteField b 4 1
  g := fieldN (byteField b 4 4) 13 8
  ralelle := (byteField b 4 4).testBit 14
  o := fieldN (byteField b 8 4) 20 0
  codeLen := byteField b 12 4
  major := byteField b 16 1
  minor := byteField b 17 1
  features := byteField b 24 8
  reserved := fieldN (byteField b 4 4) 31 15 != 0 || fieldN (byteField b 8 4) 31 21 != 0 || byteField b 18 6 != 0

/-- The refusals of R94 and R57 for a launch at `base`. -/
def KernelHeader.check (k : KernelHeader) (base : Nat) : Option Nat :=
  if k.ver != 1 || k.reserved || 254 < k.h || 262144 < base + 32 + k.codeLen || k.features >>> 8 != 0 then some 4
  else if k.g = 0 || 32 < k.g || blocksPerFacet k.h k.g k.o k.ralelle = 0 then some 5
  else none

/-- Whether an accepted, incomplete CODE_LOAD of a tenant targets a byte of a range (R96). -/
def State.loading (s : State) (j a n : Nat) : Bool :=
  s.loads.any (fun (l : CodeLoad) => l.fn == j && !l.lower && decide (l.dest < a + n) && decide (a < l.dest + l.len))

/-- The Facets of a tenant whose code stores hold its images: in service and not reset through RESET_CTRL (R92, R525). -/
def State.codeFacets (s : State) (j : Nat) : List Nat :=
  ((s.logical j).map (·.2)).filter (fun f => !(s.facet f).failed && !(s.facet f).cleared)

/-- LAUNCH (R388, R93 to R96, R57, R162). An uncorrectable header word takes its Facet out of service (R325). -/
def State.acceptLaunch (s : State) (j r : Nat) (b : List Byte) : State :=
  let base := byteField b 16 4
  if s.loading j base 32 then s
  else if (s.logical j).isEmpty then s.refuse j r b 5
  else match s.codeFacets j with
    | [] => s
    | f :: _ =>
      let code := (s.facet f).code
      if code.badIn base 32 then s.facetFault f
      else
        let k := kernelHeader (code.fetch base 32)
        if s.loading j base (32 + k.codeLen) then s
        else match k.check base with
          | some st => s.refuse j r b st
          | none =>
            let x := s.fn j
            let l : Launch := {
              id := s.nextId, fn := j, ring := r, seq := byteField b 0 2, codeBase := base, codeLen := k.codeLen, h := k.h
              g := k.g, o := k.o, ralelle := k.ralelle, nblocks := byteField b 20 4, param := byteField b 24 8
              seedLo := x.seed.extractLsb' 0 32, seedHi := x.seed.extractLsb' 32 32
              seeded := (s.reg j Reg.srCtrl).getLsbD 0 }
            match (s.withReserved l).placeFor l with
            | none => s
            | some _ =>
              let s := s.acceptHead j r b
              { s with nextId := s.nextId + 1, launches := s.launches ++ [l] }

def execLaunch (j r : Nat) (s : State) : Out :=
  .next (s.takeUp j r (fun b => byteField b 2 1 == 1) (fun s b => s.acceptLaunch j r b))

/-- CODE_LOAD (R95): CODE_BUSY while its target overlaps the code region of a launch that has not completed. -/
def State.acceptCodeLoad (s : State) (j r : Nat) (b : List Byte) : State :=
  let dest := byteField b 16 4
  let len := byteField b 20 4
  if s.launches.any (fun (l : Launch) => l.fn == j && decide (l.codeBase < dest + len) && decide (dest < l.codeBase + 32 + l.codeLen)) then
    s.refuse j r b 6
  else
    let s := s.acceptHead j r b
    { s with loads := s.loads ++ [{ fn := j, ring := r, seq := byteField b 0 2, dest, len, src := byteField b 24 8, lower := false }] }

def execCodeLoad (j r : Nat) (s : State) : Out :=
  .next (s.takeUp j r (fun b => byteField b 2 1 == 2) (fun s b => s.acceptCodeLoad j r b))

/-- DRAIN (R258, R259); one with a buddy leg reads the delta map first, once its lines allow it (R385, R411). -/
def execDrain (j r : Nat) (s : State) : Out :=
  .next (s.takeUp j r (fun b => byteField b 2 1 == 3) (fun s b =>
    let legs := entryBits b 16 2 1
    match s.drainCheck j legs with
    | some st => s.refuse j r b st
    | none => match (if legs % 2 = 1 then s.mapGate j else none) with
      | some s => s
      | none => (s.acceptHead j r b).startDrain j r (byteField b 0 2) (entryBits b 16 0 0) legs (byteField b 20 4)))

/-- A COLLECTIVE entry at acceptance (R360, R392): a function without a valid position, or a VC closed to it (R332, R345), is
answered CHORD_CLOSED; of other refusals the lowest code is given (log entry 48). -/
def State.acceptColl (s : State) (j r : Nat) (b : List Byte) : State :=
  let n (off k : Nat) : Nat := byteField b off k
  let g := entryBits b 17 7 5
  let x := s.makeColl j g r (n 0 2) (n 16 1) (entryBits b 17 1 0) (entryBits b 17 3 2) (entryBits b 17 4 4 == 1) (n 40 8)
    (n 24 8) (n 32 8) (entryBits b 20 19 0) (BitVec.ofNat 32 (n 52 4)) (n 40 4) (n 44 4) (n 48 1)
  if (s.posOf j).isNone then s.refuse j r b 0xB
  else match s.tableGate j g with
    | some t => t
    | none => match x.2.1 with
      | none => x.1.refuse j r b (x.2.2.headD 0xA)
      | some c => if s.vcClosed j (3 + g) then x.1.refuse j r b 0xB else (x.1.acceptHead j r b).submitColl c

/-- The row of the COLLECTIVE entries with one OP. -/
def takeColl (s : State) (j r op : Nat) : State :=
  s.takeUp j r (fun b => byteField b 2 1 == 4 && byteField b 16 1 == op) (fun s b => s.acceptColl j r b)

def execAllreduce (j r : Nat) (s : State) : Out := .next (takeColl s j r 0)
def execReduceScatter (j r : Nat) (s : State) : Out := .next (takeColl s j r 1)
def execAllgather (j r : Nat) (s : State) : Out := .next (takeColl s j r 2)
def execAlltoall (j r : Nat) (s : State) : Out := .next (takeColl s j r 3)
def execBroadcast (j r : Nat) (s : State) : Out := .next (takeColl s j r 4)
def execSend (j r : Nat) (s : State) : Out := .next (takeColl s j r 5)
def execRecv (j r : Nat) (s : State) : Out := .next (takeColl s j r 6)
def execLowrank (j r : Nat) (s : State) : Out := .next (takeColl s j r 7)

/-- LOWRANK_CONT (R370): completes at acceptance with the phase-1 COLL_ID it names. -/
def execLowrankCont (j r : Nat) (s : State) : Out :=
  .next (s.takeUp j r (fun b => byteField b 2 1 == 5) (fun s b =>
    match s.waitingLowrank j (entryBits b 20 2 0) (byteField b 16 4) with
    | none => s.refuse j r b 0xA
    | some c => ((s.acceptHead j r b).completeEntry j r (byteField b 0 2) (entryRec b 0)).continueLowrank c))

/-- Bytes read for a message as carried words; words that poisoned bytes touch are poisoned. -/
def wordsOf (bytes : List Byte) (a : Nat) (bad : List Nat) : List Code :=
  (chunks 16 bytes).zipIdx.map (fun (w, i) =>
    if bad.any (fun x => decide (x < a + 16 * i + 16) && decide (a + 16 * i < x + 16)) then poisonCode
    else packCode (BitVec.ofNat 128 (leNat w)) 0)

/-- The next REMOTE tag of a function that no waiting entry uses. -/
def State.freeTag (s : State) (j : Nat) : Nat :=
  let n := (s.fn j).nextTag
  ((List.range 300).map (fun i => (n + i) % 65536)).find? (fun t => (s.remote? j t).isNone) |>.getD n

/-- A REMOTE entry of VFj at acceptance by CE (j mod 4) (R391, R339, R453): the request is sent on VC1, with the local data it carries. It
waits while that engine is gated, its local area cannot be accessed, and a read until landing space for its response is free (R343). -/
def State.acceptRemote (s : State) (j r : Nat) (b : List Byte) : State :=
  let n (off k : Nat) : Nat := byteField b off k
  let kind := entryBits b 16 1 0
  let len := n 18 1
  match s.posOf j, s.translate j (n 32 8) with
  | none, _ => s.refuse j r b 0xB
  | some src, d =>
    if s.weight j 1 = 0 then s.refuse j r b 0xB
    else if !s.ceClocked j then s
    else
      let d := d.getD 0
      let size := if kind = 3 then 128 else 128 * (len + 1)
      let (s, clear) := s.clearOfHost d size (kind == 1)
      if !clear || (kind == 1 && !s.landingFree size) then s
      else
        let tag := s.freeTag j
        let (s, words) : State × List Code :=
          if kind = 1 then (s, [])
          else
            let (s, bytes, bad) := s.agentRead d size
            let w := wordsOf bytes d bad
            (s, if kind = 3 then packCode (BitVec.ofNat 128 (n 40 8)) 0 :: w else w)
        let s := (s.acceptHead j r b).updFn j (fun f => { f with nextTag := (tag + 1) % 65536 })
        let x : Remote := { fn := j, tag, kind, len, laddr := n 32 8, since := s.now, ring := r, seq := n 0 2 }
        { s with remotes := s.remotes ++ [x] }.send
          { fn := j, dst := entryBits b 20 19 0, src, kind, vc := 1
            hdr := hdrWord kind (n 24 8) len tag 0 0 0 0 0 (entryBits b 16 3 2) (n 17 1)
            words, stripe := (n 24 8 >>> 16) % 32 }

/-- The row of the REMOTE entries of one KIND. -/
def takeRemote (s : State) (j r kind : Nat) : State :=
  s.takeUp j r (fun b => byteField b 2 1 == 6 && entryBits b 16 1 0 == kind) (fun s b => s.acceptRemote j r b)

def execRemoteRd (j r : Nat) (s : State) : Out := .next (takeRemote s j r 1)
def execRemoteWr (j r : Nat) (s : State) : Out := .next (takeRemote s j r 2)
def execRemoteNma (j r : Nat) (s : State) : Out := .next (takeRemote s j r 3)

/-- MARK (R391): completes at acceptance. -/
def execMark (j r : Nat) (s : State) : Out :=
  .next (s.takeUp j r (fun b => byteField b 2 1 == 7) (fun s b =>
    (s.acceptHead j r b).completeEntry j r (byteField b 0 2) (entryRec b 0)))

/-- The IKF module at a tenant address (R139): its length, from its header. -/
def moduleLength (h : List Byte) : Nat := max 64 (byteField h 24 8 + byteField h 32 8)

/-- The lowering version of the library in force (R40, R488). -/
def State.lowerVer (s : State) : Nat :=
  byteField (s.boot.images.slotBytes s.boot.active) 68 4 % 65536

/-- Code whose instructions with vector operands take RLX form (R103, R144): EXT[3] set in the ALU classes, LD, LDS, ST and ATOM. Word 1
of format W follows as it is. -/
def rlxForm : List Byte → List Byte
  | b0 :: b1 :: b2 :: b3 :: b4 :: b5 :: op :: b7 :: rest =>
    let b0 := if op.toNat ≤ 0x5C ∨ (0x60 ≤ op.toNat ∧ op.toNat ≤ 0x62) ∨ op.toNat = 0x70 then b0 ||| 8 else b0
    if b7.toNat % 8 = 4 then
      match rest with
      | c0 :: c1 :: c2 :: c3 :: c4 :: c5 :: c6 :: c7 :: rest =>
        b0 :: b1 :: b2 :: b3 :: b4 :: b5 :: op :: b7 :: c0 :: c1 :: c2 :: c3 :: c4 :: c5 :: c6 :: c7 :: rlxForm rest
      | rest => b0 :: b1 :: b2 :: b3 :: b4 :: b5 :: op :: b7 :: rest
    else b0 :: b1 :: b2 :: b3 :: b4 :: b5 :: op :: b7 :: rlxForm rest
  | l => l

/-- The native kernel header of a lowered image (R93, R141, R144): the lowering version, the source version and, from IKF major 2
on, the module's FEATURES unchanged; an RL-400 binary's has RALELLE 1 and IKF_MAJOR 0. What the lowering decides (H, G, O, the
code) is the candidate's, an RL-400 binary's code in RLX form. `h` is the module header, none for an RL-400 binary. -/
def loweredImage (ver : Nat) (h : Option (List Byte)) (image : List Byte) : List Byte :=
  let k := kernelHeader image
  let ralelle := h.isNone || k.ralelle
  let source := match h with | some h => (h.drop 4).take 2 | none => leBytes 2 0
  let features := match h with
    | some h => if 2 ≤ byteField h 4 1 then byteField h 8 8 else k.features
    | none => 0
  leBytes 2 1 ++ leBytes 2 ver ++ leBytes 4 (k.h + k.g <<< 8 + (if ralelle then 2 ^ 14 else 0)) ++ leBytes 4 k.o ++
    leBytes 4 (image.length - 32) ++ source ++ leBytes 6 0 ++ leBytes 8 features ++
    (if h.isNone then rlxForm (image.drop 32) else image.drop 32)

/-- Whether the lowering accepts a module header (R139, R140). -/
def ikfAccepted (h : List Byte) : Bool :=
  let major := byteField h 4 1
  let minor := byteField h 5 1
  byteField h 6 2 == 0 && byteField h 20 4 == 0 && byteField h 40 24 == 0 && byteField h 8 8 >>> 8 == 0 &&
    ((major == 1 && decide (minor ≤ 4)) || (major == 2 && decide (minor ≤ 3)))

/-- The hardware-mode choice of R143: the largest b of R56, then the smallest h. -/
def bestLowering (l : List (List Byte)) : Option (List Byte) :=
  let b (x : List Byte) : Nat := let k := kernelHeader x; blocksPerFacet k.h k.g k.o k.ralelle
  let h (x : List Byte) : Nat := (kernelHeader x).h
  match l with
  | [] => none
  | x :: t => some (t.foldl (fun m y => if b m < b y ∨ (b m = b y ∧ h y < h m) then y else m) x)

/-- The number that names a LOWER in a pending decision. -/
def lowerKey (j r seq : Nat) : Nat := j * 2 ^ 22 + r * 2 ^ 16 + seq

/-- Settles the image of the LOWER a decision names: a candidate by its index, or the hardware choice (R143, R406). -/
def State.chooseLowering (s : State) (key : Nat) (pick : Option Nat) : State :=
  { s with loads := s.loads.map (fun (l : CodeLoad) =>
      if l.lower && lowerKey l.fn l.ring l.seq == key && l.image.isNone then
        { l with image := ((pick.bind (fun i => l.cands[i]?)).orElse (fun _ => bestLowering l.cands)) }
      else l) }

/-- LOWER at its acceptance by MP (R139 to R144, R169): refused with IKF_UNSUPPORTED, or its candidates are formed and one is
taken under function 9. A module with an uncorrectable word or a nonzero reserved header byte is refused so too (log entry 118). Bytes without the IKF magic are an RL-400 binary up to the end of its region. -/
def State.acceptLower (s : State) (j r : Nat) (b : List Byte) : State :=
  let src := byteField b 16 8
  match s.translate j src with
  | none => s.refuse j r b 2
  | some d =>
    let (s, clear) := s.clearOfHost d 64 false
    if !clear then s
    else
      let (s, h, bad) := s.agentRead d 64
      let ikf := byteField h 0 4 == 0x00464B49
      let len := if ikf then moduleLength h else match s.regionOf j src with | some g => g.tbase + g.len - src | none => 64
      if !bad.isEmpty || (ikf && !ikfAccepted h) then s.refuse j r b 7
      else if ikf && decide (byteField h 16 4 ≤ byteField b 24 4) then s.refuse j r b 1
      else if !s.inOneRegion j src len then s.refuse j r b 2
      else
        let (s, clear) := s.clearOfHost d len false
        if !clear then s
        else
          let (s, bytes, bad) := s.agentRead d len
          let found := if ikf then Config.lowerings bytes (byteField b 24 4) else [Config.binaryLowering bytes]
          let cands := found.map (loweredImage s.lowerVer (if ikf then some h else none))
          if !bad.isEmpty || cands.isEmpty || (ikf && Config.gradientRefused bytes (byteField b 24 4)) then s.refuse j r b 7
          else
            let seq := byteField b 0 2
            let s := s.acceptHead j r b
            let l : CodeLoad := { fn := j, ring := r, seq, dest := byteField b 28 4, len := 0, src, lower := true, cands }
            let s := { s with loads := s.loads ++ [l] }
            if cands.length < 2 then s.chooseLowering (lowerKey j r seq) none
            else
              let (s, waits) := s.decisionPoint 9 cands.length (lowerKey j r seq)
              if waits then s else s.chooseLowering (lowerKey j r seq) none

def execLower (j r : Nat) (s : State) : Out :=
  if !s.mpRuns then .next s
  else .next (s.takeUp j r (fun b => byteField b 2 1 == 8) (fun s b => s.acceptLower j r b))

/-- Writes an image into a code store (R92): words that poisoned bytes touch are poisoned (R325); bytes past its end are
not stored. -/
def writeCode (m : Ram) (dest : Nat) (bytes : List Byte) (bad : Nat → Bool) : Ram :=
  let bytes := bytes.take (262144 - dest)
  let m := m.write dest bytes
  ((List.range bytes.length).filter bad).foldl (fun m i => m.poison ((dest + i) / 16)) m

/-- CODE_LOAD_COMPLETE (R92, R393): every code store of the tenant holds the image. -/
def execCodeLoadComplete (j r seq : Nat) (s : State) : Out :=
  match s.loads.find? (fun (l : CodeLoad) => l.fn == j && l.ring == r && l.seq == seq && !l.lower) with
  | none => .next s
  | some l =>
    match s.translate j l.src with
    | none => .next s
    | some d =>
      let (s, clear) := s.clearOfHost d l.len false
      if !clear then .next s
      else
        let (s, bytes, bad) := s.agentRead d l.len
        let isBad (i : Nat) : Bool := bad.any (fun x => decide (x ≤ d + i) && decide (d + i < x + 16))
        let targets := ((s.logical j).map (·.2)).filter (fun f => !(s.facet f).failed)
        let s := targets.foldl (fun s f => s.updFacet f (fun x => { x with code := writeCode x.code l.dest bytes isBad })) s
        let s := { s with loads := s.loads.filter (fun (x : CodeLoad) => x != l) }
        .next (s.completeEntry j r seq { status := 0 })

/-- LOWER_COMPLETE (R393): the chosen image lies in the code store of every Facet of the tenant. -/
def execLowerComplete (j r seq : Nat) (s : State) : Out :=
  match s.loads.find? (fun (l : CodeLoad) => l.fn == j && l.ring == r && l.seq == seq && l.lower) with
  | none => .next s
  | some l =>
    match l.image with
    | none => .next s
    | some image =>
      if !s.mpRuns then .next s
      else
        let targets := ((s.logical j).map (·.2)).filter (fun f => !(s.facet f).failed)
        let s := targets.foldl (fun s f => s.updFacet f (fun x => { x with code := writeCode x.code l.dest image (fun _ => false) })) s
        let s := { s with loads := s.loads.filter (fun (x : CodeLoad) => x != l) }
        .next (s.completeEntry j r seq { status := 0 })

/-- Whether work of a launch is still out: line requests and transfers (R393). -/
def State.launchOut (s : State) (id : Nat) : Bool :=
  s.reqs.any (fun (r : LineReq) => r.launch == id) || s.facets.any (fun (e : Nat × Facet) => e.2.transfers.any (fun (t : Transfer) => t.launch == id))

/-- LAUNCH_COMPLETE (R393, R394): every block has ended and its writes are acknowledged. FAULTED stands over FACET_LOST
(R392), and a completion with FACET_LOST is the decision point of function 3 (R406). -/
def execLaunchComplete (launch : Nat) (s : State) : Out :=
  match s.launch? launch with
  | none => .next s
  | some l =>
    if l.next < l.nblocks || l.live != 0 || s.launchOut l.id then .next s
    else
      let s := { s with launches := s.launches.filter (fun (x : Launch) => x.id != l.id) }
      let elapsed := (l.finish - l.start) / 2
      match l.fault with
      | some (code, facet, slot, pc) =>
        .next (s.completeEntry l.fn l.ring l.seq
          { status := 0x40, elapsed, faultCode := code, faultFacet := facet, faultSlot := slot, faultPc := pc })
      | none =>
        if !l.lost then .next (s.completeEntry l.fn l.ring l.seq { status := 0, elapsed })
        else
          let s := s.completeEntry l.fn l.ring l.seq { status := 0x41, elapsed }
          let (s, waits) := s.decisionPoint 3 l.fn 0
          .next (if waits then s else s.updFn l.fn (fun f => { f with recover := true }))

/-- A write of LOCUS_CFG (R386). -/
def writeLocusCfg (s : State) (j r : Nat) (v : Word) : State :=
  let s := if v.getLsbD 30 then s.setRegF j (Reg.locusCfg r) 30 30 0 else s
  let refused (s : State) : State := s.setRegF j (Reg.locusCfg r) 30 30 1
  if s.registered j r then
    if v.getLsbD 31 then (if field v 3 0 = s.regF j (Reg.locusCfg r) 3 0 then s else refused s)
    else if s.outstandingOn j r != 0 then refused s
    else (s.setRegF j (Reg.locusCfg r) 31 31 0).setRegF j (Reg.locusCfg r) 3 0 (field v 3 0)
  else
    let s := s.setRegF j (Reg.locusCfg r) 3 0 (field v 3 0)
    if !v.getLsbD 31 then s
    else
      let log := field v 3 0
      let n := 2 ^ log
      let base := s.regF j (Reg.locusRingHi r) 15 0 * 2 ^ 32 + s.regF j (Reg.locusRingLo r) 31 6 * 64
      let cq := (s.reg j (Reg.locusCqHi r)).toNat * 2 ^ 32 + s.regF j (Reg.locusCqLo r) 31 6 * 64
      let plain := match s.regionOf j base with | some g => !g.hc | none => false
      if (s.reg j Reg.hifSelect).getLsbD 31 && decide (4 ≤ log) && decide (log ≤ 12) && plain &&
          s.inOneRegion j base (64 * n) && base % (64 * n) == 0 && cq % (128 * n) == 0 then
        (s.setRegF j (Reg.locusCfg r) 31 31 1).updRing j r (fun _ => {})
      else refused s

/-- A write of a ring's register other than LOCUS_CFG (R386); LOCUS_STATE holds nothing a write stores. -/
def writeLocusBase (s : State) (j r a : Nat) (v : Word) : State :=
  if s.registered j r then s.setRegF j (Reg.locusCfg r) 30 30 1
  else if a % 32 = 0x14 then s else s.setReg j a v

/-- A write of HIF_SELECT (R395). -/
def writeHifSelect (s : State) (j : Nat) (v : Word) : State :=
  let s := if v.getLsbD 30 then s.setRegF j Reg.hifSelect 30 30 0 else s
  let ringed := j != 0 && (List.range 64).any (s.registered j)
  if ringed || 2 < field v 7 0 then s.setRegF j Reg.hifSelect 30 30 1
  else (s.setRegF j Reg.hifSelect 31 31 (field v 31 31)).setRegF j Reg.hifSelect 7 0 (field v 7 0)

end Sys2Proof.Machine
end

