-- ==== Sys2Proof/Machine/Tenants.lean ====
section
/-! DEFINITION. Tenants: enabling (R396), tenant reset (R397, R214, R252, R266, R299, R326, R374), spares (R50), the seed
(R163), gates of Facets (R460), Facet faults (R46, R49) and Facet resets (R525). -/

namespace Sys2Proof.Machine

/-- Sets the enables of a gate. -/
def State.setGate (s : State) (id : Nat) (e : BitVec 3) : State := { s with power := { s.power with gates := aput s.power.gates id e } }

/-- The gate of a physical Facet (R458). -/
def facetGate (f : Nat) : Nat := 0x100 + f

/-- Whether a physical Facet is good and holds no position (R45). -/
def State.isSpare (s : State) (f : Nat) : Bool :=
  decide (f < 208) && !s.defects.contains f && !s.retired.contains f && !(s.facet f).failed && !s.positions.contains (some f)

/-- The free spares of a die, ascending. -/
def State.spares (s : State) (die : Nat) : List Nat := ((List.range 52).map (52 * die + ·)).filter s.isSpare

/-- A Facet reset (R483): everything the Facet holds is cleared. -/
def Facet.reset (x : Facet) : Facet := { failed := x.failed, cleared := x.cleared }

/-- Stops the work of a Facet (R214, R252): groups, blocks, transfers and queues go; its code store stays. -/
def Facet.stopped (x : Facet) : Facet := { code := x.code, half := x.half, failed := x.failed, cleared := x.cleared }

/-- A write of SR_SEED_HI commits the seed (R163). -/
def writeSrSeedHi (s : State) (j : Nat) (v : Word) : State :=
  let s := s.setReg j Reg.srSeedHi v
  let s := s.updFn j (fun f => { f with seed := v ++ s.reg j Reg.srSeedLo })
  s.count j Reg.srCtrl 31 16 1

/-- The registers of a window that a reset takes return to their reset values; RWS bits stay (R16). -/
def State.resetRegs (s : State) (j : Nat) (takes : Nat → RegSpec → Bool) : State :=
  s.updFn j (fun f => { f with regs := f.regs.map (fun (e : Nat × Word) =>
    match regSpec? j e.1 with
    | some r => if takes e.1 r then (e.1, (r.reset &&& ~~~ r.rws) ||| (e.2 &&& r.rws)) else e
    | none => e) })

/-- MEM_STATE.UNVERIFIED outlives a tenant reset (R311). -/
def State.resetTenantRegs (s : State) (j : Nat) (takes : Nat → RegSpec → Bool) : State :=
  let u := s.regF j Reg.memState 31 31
  let s := s.resetRegs j takes
  if u = 0 then s else s.setRegF j Reg.memState 31 31 u

/-- A tenant's pin command ends with PIN_ABORTED (R299). -/
def State.abortPins (s : State) (j : Nat) : State :=
  if s.hull.pins.any (fun (c : PinCmd) => c.vf == j) then
    { s with hull := { s.hull with pins := s.hull.pins.filter (fun (c : PinCmd) => c.vf != j) } }.pinEnd j 5 0
  else s

/-- The Hull at a tenant reset (R299): pins, dead-record entries and the tenant's lines; the guard releases, and its counts start
afresh under the configuration in force (R292; DESIGN CHOICE, log entry 141). -/
def State.resetHull (s : State) (j : Nat) : State :=
  let s := (s.abortPins j).setRegF j Reg.hullTgStatus 31 31 0
  let s := { s with hull := { s.hull with
    dead := s.hull.dead.map (fun (e : Nat × List (Nat × Nat)) => (e.1, e.2.filter (fun x => x.2 != j)))
    guards := s.hull.guards.map (fun (e : Nat × Guard) => (e.1, if e.1 = j then { cfg := e.2.cfg } else e.2)) } }
  let mine (w : Way) : Bool := w.used && w.tenant == j
  let dirty := s.hull.sets.flatMap (fun (e : Nat × List Way) =>
    (e.2.filter (fun w => mine w && !w.dead)).map (fun w => (lineOf e.1 w.tag, w.dirty)))
  let s := dirty.foldl (fun s x => s.writeBackSectors x.1 x.2) s
  { s with hull := { s.hull with sets := s.hull.sets.map (fun (e : Nat × List Way) => (e.1, e.2.map (fun (w : Way) =>
      let w := if mine w then { w with use := 15, dirty := if w.dead then w.dirty else 0 } else w
      if w.cls = 3 ∧ w.pinner = j then { w with cls := 0, use := 15 } else w))) } }

/-- Every accepted entry of a function ends with ENDED_BY_RESET (R392, R397). -/
def State.endEntries (s : State) (j : Nat) : State :=
  (s.entries.filter (fun (e : Entry) => e.fn == j)).foldl (fun s e =>
    let id := match s.colls.find? (fun (c : Collective) => c.fn == j && c.ring == e.ring && c.seq == e.seq) with
      | some c => c.id
      | none => 0
    let elapsed := match s.launches.find? (fun (l : Launch) => l.fn == j && l.ring == e.ring && l.seq == e.seq) with
      | some l => if l.next = 0 then 0 else (s.launchTime l - l.start) / 2
      | none => 0
    let x : Rec := { status := 0x44, collId := id, elapsed := elapsed }
    let x := match s.drains.find? (fun (d : Drain) => d.fn == j && d.ring == e.ring && d.seq == e.seq) with
      | some d => { x with stepNo := d.step, overlap := d.overlap, buddyLeg := if d.buddy then 2 else 0
                           storeLeg := if !d.store then 0 else if d.storeEnd = 0 then 3 else d.storeEnd }
      | none => x
    s.completeEntry j e.ring e.seq x) s

/-- The work of a function stops (R397 step 2): collectives end with status 2 in the digest ring and COLL_ID restarts
(R374), its drain (R266), launches, loads, REMOTE entries and unsent messages go; its Facets stop (R214, R252); requests
already formed complete for nobody. -/
def State.stopFn (s : State) (j : Nat) : State :=
  let owed := (s.colls.filter (fun (c : Collective) => c.fn == j && !c.wait)).flatMap (fun c => s.digestEntries c 2)
  let s := (s.updFn j (fun f => { f with owedDigests := f.owedDigests ++ owed })).flushDigests j owed.length
  let s := s.endEntries j
  let s := s.dropDrain j true
  let s := { s with
    colls := s.colls.filter (fun (c : Collective) => c.fn != j)
    groupsOf := s.groupsOf.filter (fun (e : Nat × CollGroup) => e.1 / 8 != j)
    launches := s.launches.filter (fun (l : Launch) => l.fn != j)
    loads := s.loads.filter (fun (l : CodeLoad) => l.fn != j)
    remotes := s.remotes.filter (fun (r : Remote) => r.fn != j)
    egress := s.egress.filter (fun (m : Msg) => m.fn != j)
    ports := s.ports.map (fun (e : Nat × Port) => (e.1, e.2.discard (fun m => m.fn == j)))
    reqs := s.reqs.map (fun (r : LineReq) => if r.vf = j then { r with slot := 64 } else r) }
  let s := (s.logical j).foldl (fun s e => s.updFacet e.2 Facet.stopped) s
  s.resetHull j

/-- A tenant reset starts, or joins the one that runs (R397, steps 1 and 2). `disable`: the tenant is left disabled. -/
def State.beginReset (s : State) (j : Nat) (disable : Bool) : State :=
  let s := if disable then s.updFn j (fun f => { f with disableAfter := true }) else s
  if j = 0 || 16 < j || (s.fn j).resetting then s
  else
    let s := s.updFn j (fun f => { f with resetting := true })
    let s := s.forget (fun d => d.fn == 3 && d.subject == j || d.fn == 9 && d.data / 2 ^ 22 == j)
    (s.setRegF 0 (Reg.tenStatus j) 31 31 1).stopFn j

/-- A spare takes the position of a failed Facet, or the position stays empty (R50, R460). -/
def State.replaceFacet (s : State) (pos f : Nat) : State :=
  match (s.spares (f / 52)).head? with
  | none => { s with positions := s.positions.set pos none }
  | some x =>
    let old := s.gate (facetGate f)
    let s := { s with positions := s.positions.set pos (some x) }
    (s.updFacet x (fun _ => {})).setGate (facetGate x) ((old &&& 6) ||| 1)

/-- The assigned positions of VFj (R48). -/
def State.assigned (s : State) (j : Nat) : List Nat :=
  (List.range 192).filter (fun p => (s.reg 0 (Reg.tenFacets j (p / 32))).getLsbD (p % 32))

/-- Whether accumulates on a function's memory are still queued (R326). -/
def State.nmaQueued (s : State) (j : Nat) : Bool := s.hbm.pcs.any (fun e => e.2.nma.any (fun n => n.vf == j))

/-- TENANT_RESET_COMPLETE (R397, steps 3 to 5), once the tenant's queued accumulates are applied (R326) and its digest entries
written (R374, R385). -/
def State.endReset (s : State) (j : Nat) : State :=
  if !(s.fn j).resetting then s else
  let s := s.flushDigests j (s.fn j).owedDigests.length
  if s.nmaQueued j || !(s.fn j).owedDigests.isEmpty then s
  else
    let s := s.forget (fun d => d.fn == 3 && d.subject == j)
    let s := { s.abortPins j with held := s.held.filter (fun (h : Held) => h.fn != j) }
    let s := (s.logical j).foldl (fun s e => s.updFacet e.2 (fun x => { x with code := {}, cleared := false })) s
    let s := s.resetTenantRegs j (fun _ r => r.kind == .tenant)
    let s := s.resetRegs 0 (fun a r => r.kind == .tenant && a == Reg.buddyRxStatus j)
    let s := ((s.logical j).filter (fun e => (s.facet e.2).failed)).foldl (fun s e => s.replaceFacet e.1 e.2) s
    let short := (s.assigned j).any (fun p => (s.positions.getD p none).isNone)
    let off := (s.fn j).disableAfter
    let s := s.updFn j (fun f => { regs := f.regs, disableAfter := false })
    let code := if short then 1 else 0
    let s := ((s.setRegF 0 (Reg.tenStatus j) 31 31 0).setRegF 0 (Reg.tenStatus j) 7 0 code).setRegF j Reg.tenSelf 7 0 code
    if off then s.setRegF 0 (Reg.tenCtrl j) 31 31 0 else s

def execTenantResetComplete (j : Nat) (s : State) : Out := .next (if j = 0 || 16 < j then s else s.endReset j)

/-- FLR_VF (R377). -/
def execFlrVf (j : Nat) (s : State) : Out := .next (s.beginReset j false)

/-- FLR_PF0 (R377, R528): every VF is reset, and PF0's own tenant-kind registers, with the state its buddy reception
keeps (R412), return to their reset values. -/
def execFlrPf0 (s : State) : Out :=
  let s := (List.range 16).foldl (fun s k => s.beginReset (k + 1) false) s
  let s := s.updFn 0 (fun f => { f with rx := {} })
  .next (s.resetTenantRegs 0 (fun a r => r.kind == .tenant && (a == Reg.buddyRxStatus 0 || decide (a < 0x6900) || decide (0x6A20 ≤ a))))

/-- TENANT_RECOVERY_RESET (R406, function 3): the reset that follows once the tenant has no accepted entry outstanding. -/
def execTenantRecoveryReset (j : Nat) (s : State) : Out :=
  .next (if (s.fn j).recover && s.outstanding j == 0 then s.beginReset j false else s)

/-- The checks of R396, in order; 0 when all pass. -/
def State.enableError (s : State) (j : Nat) : Nat :=
  let pos := s.assigned j
  let others := s.tenants.filter (· != j)
  let regions := s.regions j
  let overlap (a la b lb : Nat) : Bool := decide (a < b + lb) && decide (b < a + la)
  let pairs := (List.range 8).flatMap (fun r => (List.range r).filterMap (fun q =>
    match s.region? j r, s.region? j q with | some x, some y => some (x, y) | _, _ => none))
  if others.any (fun k => (s.assigned k).any pos.contains) then 1
  else if pos.isEmpty then 2
  else if pos.any (fun p => (s.positions.getD p none).isNone) then 6
  else if regions.any (fun x => decide (deviceBytes < x.dbase + x.len)) then 3
  else if regions.any (fun x => overlap x.dbase x.len reservedBase (deviceBytes - reservedBase) ||
      others.any (fun k => (s.regions k).any (fun y => overlap x.dbase x.len y.dbase y.len))) ||
      pairs.any (fun p => overlap p.1.dbase p.1.len p.2.dbase p.2.len) then 4
  else if pairs.any (fun p => overlap p.1.tbase p.1.len p.2.tbase p.2.len) then 5
  else 0

/-- Enables a tenant when every check passes (R396). -/
def State.enableTenant (s : State) (j : Nat) : State :=
  if s.enabled j then s
  else
    let e := s.enableError j
    let s := s.setRegF 0 (Reg.tenStatus j) 15 8 e
    if e = 0 then s.setRegF 0 (Reg.tenCtrl j) 31 31 1 else s

/-- A write of TEN_CTRL (R396, R397). -/
def writeTenCtrl (s : State) (j : Nat) (v : Word) : State :=
  if v.getLsbD 31 then
    let s := s.enableTenant j
    if v.getLsbD 30 then s.beginReset j false else s
  else s.beginReset j true

/-- A write of TEN_SELF (R397). -/
def writeTenSelf (s : State) (j : Nat) (v : Word) : State := if v.getLsbD 31 then s.beginReset j false else s

/-- A write of TEN_FACETS or TEN_REGION: discarded while the tenant is enabled (R396). -/
def writeTenMap (s : State) (j a : Nat) (v : Word) : State :=
  if s.enabled j then s.setRegF 0 (Reg.tenStatus j) 30 30 1 else s.setReg 0 a v

/-- FACET_FAULT (R46, R49): a good physical Facet faults at run time; a spare stops being one. -/
def execFacetFault (f : Nat) (s : State) : Out :=
  .next (if 208 ≤ f || s.defects.contains f || (s.facet f).failed then s else s.facetFault f)

/-- A Facet reset through RESET_CTRL (R525): its blocks are lost, its contents cleared; a Facet of an enabled tenant takes no
new block until that tenant's reset. -/
def State.resetFacet (s : State) (f : Nat) : State :=
  let s := s.loseBlocks f
  let owned := (s.ownerOf f).isSome
  let s := s.updFacet f (fun x => { x.reset with cleared := x.cleared || owned })
  { s with reqs := s.reqs.map (fun (r : LineReq) => if r.f = f then { r with slot := 64 } else r) }

end Sys2Proof.Machine
end

