-- ==== Sys2Proof/Machine/Host.lean ====
section
/-! DEFINITION. CXL.mem from the host (R383 to R385, R387, R500). -/

namespace Sys2Proof.Machine

/-- Whether CXL.mem requests are served: the link is up and the module runs with its memory trained (R376, R493). -/
def State.memServed (s : State) : Bool := s.side.cxlUp && s.boot.phase == .running

/-- CXL_MEM_READ (R384, R385): `cache` asks for a copy the host keeps. A read of the reserved region returns zero (R500). A
grant waits while the snoop filter is full, its oldest line called back. The host's own lines are not called back for its own
access (log entry 50). -/
def execCxlMemRead (addr : Nat) (cache : Bool) (s : State) : Out :=
  let a := addr / 64 * 64
  if deviceBytes ≤ a then .fault (.noSuchDeviceAddress addr)
  else if !s.memServed then .next s
  else if reservedBase ≤ a then .next (s.answer 1 a (List.replicate 64 0))
  else
    let line := a / 64
    let grant := cache && s.hcLine (a / 2048) && !s.hull.held.contains line
    if grant && decide (524288 ≤ s.hull.held.length) then
      match s.hull.held with
      | [] => .next s
      | old :: _ =>
        if s.hull.snoops.contains old then .next s
        else .next { s with hull := { s.hull with snoops := s.hull.snoops ++ [old] }
                            out := { s.out with snoops := (old, true) :: s.out.snoops } }
    else
      match s.agentTurn a 64 false with
      | some s => .next s
      | none =>
      let (s, bytes, bad) := s.agentRead a 64
      let s := s.answer 1 a bytes
      let s := if bad.isEmpty then s else { s with out := { s.out with poisoned := a :: s.out.poisoned } }
      .next (if grant then { s with hull := { s.hull with held := s.hull.held ++ [line] } } else s)

/-- The 64-byte masked write of one CXL.mem write, as a write to its sector (R384): the poison indication stores the
canonical poisoned word in every word the write touches. -/
def cxlSector (a : Nat) (bytes : List Byte) (mask : DWord) (poison : Bool) : SinkWrite :=
  let o := a % 128
  let words := (List.range 4).filter (fun i => field mask (16 * i + 15) (16 * i) != 0)
  { sector := a / 128
    mask := BitVec.ofNat 128 (mask.toNat <<< o)
    data := { data := BitVec.ofNat 1024 (leNat (bytes.take 64) <<< (8 * o))
              pois := if poison then BitVec.ofNat 8 ((words.map (fun i => 2 ^ (o / 16 + i))).sum) else 0 } }

/-- The Locus filter (R387): a write of all 64 bytes of a slot wakes the front end of the ring's tenant. -/
def State.wakeRings (s : State) (a : Nat) : State :=
  (List.range 17).foldl (fun s j => (List.range 64).foldl (fun s r =>
    if !s.registered j r then s
    else
      let base := s.regF j (Reg.locusRingHi r) 15 0 * 2 ^ 32 + s.regF j (Reg.locusRingLo r) 31 6 * 64
      match s.translate j base with
      | none => s
      | some d =>
        if d ≤ a && a < d + 64 * s.ringSize j r then s.updRing j r (fun q => { q with woken := true }) else s) s) s

/-- CXL_MEM_WRITE (R384, R387): `mask` 0xFFFF_FFFF_FFFF_FFFF is a MemWr, any other a MemWrPtl. It commits when its line and its
sink allow (R274, R305, R306), and is answered by a Cmp, an answer without bytes. A write to the reserved region is discarded
(R500). -/
def execCxlMemWrite (addr : Nat) (bytes : List Byte) (mask : DWord) (poison : Bool) (s : State) : Out :=
  let a := addr / 64 * 64
  if deviceBytes ≤ a then .fault (.noSuchDeviceAddress addr)
  else if !s.memServed then .next s
  else if reservedBase ≤ a then .next (s.answer 1 a [])
  else match s.agentTurn a 64 true with
  | some s => .next s
  | none =>
    let s := (s.agentPut (cxlSector a bytes mask poison)).answer 1 a []
    .next (if mask = BitVec.allOnes 64 then s.wakeRings a else s)

/-- BIRSP (R385): the host has given a line up, with its bytes when it had changed them; what waited for it may go on. Changed
bytes wait for room in their sink (R306). -/
def execBirsp (addr : Nat) (dirty : List Byte) (s : State) : Out :=
  let line := addr / 64
  if !s.hull.snoops.contains line || (!dirty.isEmpty && (s.agentTurn (64 * line) 64 true).isSome) then .next s
  else
    let s := { s with hull := { s.hull with held := s.hull.held.filter (· != line), snoops := s.hull.snoops.filter (· != line) } }
    let s := if dirty.isEmpty then s else s.agentWrite (64 * line) (dirty.take 64)
    .next s.landAll.pumpAll

end Sys2Proof.Machine
end

