-- ==== Sys2Proof/Machine/Reset.lean ====
section
/-! DEFINITION. Cold, warm and port resets (R483 to R485) with what they keep (R299, R310, R311, R326, R374, R398, R422). -/

namespace Sys2Proof.Machine

/-- Reset release (R484): for a cold reset once the supply has reached 47.0 V and MOD_RESET_N is released, for a warm one once
its entry is over and HOST_PERST_N is released. RESET_CAUSE is written, and the start begins. -/
def State.release (s : State) : State :=
  let cold := s.boot.phase == .coldHeld && s.boot.seen47 && !s.boot.pinReset
  let warm := s.boot.phase == .warmHeld && !s.boot.pinPerst
  if !cold && !warm then s
  else
    let kind := if warm then 1 else 2
    let s := { s with boot := { s.boot with phase := .starting, warm := warm }, ports := s.freshPorts }
    (s.setReg 0 Reg.resetCause (BitVec.ofNat 32 (s.boot.cause * 256 + kind))).trace 0x0001 0 255 [kind, s.boot.cause]

/-- A cold reset (R483): everything outside the Gnomon store, the system area and the config flash returns to its state at
power-up, and what the system area holds is loaded from its copy A (R447); HBM contents are lost. What the supply, the pins and the sensors show, and what has left the module, stays. -/
def State.coldReset (s : State) (source : Nat) : State :=
  let r := State.reset
  let b := s.boot
  let boot : Boot := {
    cause := source, pinReset := b.pinReset, pinPerst := b.pinPerst, seen47 := b.seen47 && source != 3
    moduleFaults := b.moduleFaults, flash := b.flash, rollback := s.store.areaA.rollback, refclk := b.refclk }
  let power : Power := { volts := s.power.volts, amps := s.power.amps, watts := s.power.watts, inlet := s.power.inlet
                         junction := s.power.junction, hotDie := s.power.hotDie, inrush := s.power.inrush }
  let t : State := { r with
    pending := s.pending, freeCtr := s.freeCtr, nextId := s.nextId, defects := s.defects, retired := s.store.areaA.retired
    store := { (if source = 3 then s.store.torn s.boot.spUp else s.store).restarting with paused := false, bad := s.store.areaA.bad }
    boot := boot, power := power, side := { dynAddr := s.side.dynAddr, offset := s.side.offset, latch := s.side.latch, senseArmed := s.side.senseArmed }
    life := { live := s.store.areaA.life }, out := s.out }
  t.restoreReset.release

/-- Ports as a warm reset leaves them: every message and all of their state lost (R374). -/
def State.dropChord (s : State) : State :=
  { s with ports := s.ports.map (fun (e : Nat × Port) => (e.1, e.2.dark)), egress := [], remotes := [], colls := [], groupsOf := [] }

/-- Warm-reset entry begins (R485, steps 1 and 2): acceptance stops, entries in flight are lost without a record (R398),
Facets, engines and ports stop. -/
def State.warmReset (s : State) (source : Nat) : State :=
  if s.boot.phase == .coldHeld || s.boot.phase == .stopped || s.boot.phase == .warmEntry then s
  else
    let s := s.dropChord
    { s with
      boot := { s.boot with phase := .warmEntry, cause := source, warmDue := false, mpUp := false, identityKey := none, sealed := false }
      locusOpen := false, entries := [], launches := [], loads := [], drains := []
      facets := s.facets.map (fun (e : Nat × Facet) => (e.1, e.2.stopped))
      reqs := s.reqs.map (fun (r : LineReq) => { r with slot := 64 }) }

/-- Every dirty sector that is not dead is written back (R299). -/
def State.flushHull (s : State) : State :=
  s.hull.sets.foldl (fun s e => e.2.foldl (fun s w =>
    if w.used && !w.dead then s.writeBackSectors (lineOf e.1 w.tag) w.dirty else s) s) s

/-- What an engine keeps in retention through a warm reset (R310): its scrub position and counts, and its pin. -/
def PseudoChannel.retained (p : PseudoChannel) : PseudoChannel :=
  { scrub := p.scrub, passes := p.passes, rowCe := p.rowCe, rowUe := p.rowUe, refreshes := p.refreshes
    failedPins := p.failedPins, copy := p.copy }

/-- The engines write their sinks to the cells and enter self-refresh (R310). -/
def State.quiesceHbm (s : State) : State :=
  let s := s.hbm.pcs.foldl (fun s e => s.flushEngine e.1) s
  { s with hbm := { s.hbm with pcs := s.hbm.pcs.map (fun (e : Nat × PseudoChannel) => (e.1, e.2.retained)), selfRefresh := true } }

/-- An engine writes every sink entry to the cells (R310): the writes on their way reach the sink, and the accumulates that the bytes
of an entry follow are applied before it (R318; log entry 143). -/
def State.quietEngine (s : State) (k : Nat) : State :=
  let s := s.updPc k (fun p => p.inbound.foldl PseudoChannel.commit { p with inbound := [] })
  let s := (s.pc k).nma.foldl (fun s _ => if (s.pc k).nma.any (·.after.isSome) then s.applyNma k else s) s
  let s := (s.pc k).sink.foldl (fun s w => s.retire w) s
  s.updPc k (fun p => { p with sink := [], service := false })

/-- Every engine writes its sink to the cells and enters self-refresh, for S1, S2 and the safe hold (R310, R477). -/
def State.selfRefreshAll (s : State) : State :=
  let s := s.hbm.pcs.foldl (fun s e => s.quietEngine e.1) s
  { s with hbm := { s.hbm with selfRefresh := true } }

/-- The engines leave self-refresh (R310, R480). -/
def State.wakeEngines (s : State) : State :=
  { s with hbm := { s.hbm with selfRefresh := false } }

/-- The lifetime counters are persisted while SP is up (R422). -/
def State.persistLife (s : State) : State := if s.spRuns then s.saveArea (fun a => { a with life := s.life.live }) else s

/-- Registers at a warm reset (R16, R311): kinds warm, tenant and port return to their reset values, RWS bits stay, and
UNVERIFIED is set for every function. -/
def State.warmRegs (s : State) : State :=
  (List.range 17).foldl (fun s j =>
    let s := s.resetRegs j (fun _ r => r.kind != .cold)
    let s := s.updFn j (fun f => { regs := f.regs })
    s.setRegF j Reg.memState 31 31 1) s

/-- The Hull as a warm reset leaves it: empty, its disabled ways still disabled (R298, R299). -/
def Hull.warm (h : Hull) : Hull :=
  { sets := (h.sets.filter (fun (e : Nat × List Way) => e.2.any (·.off))).map (fun (e : Nat × List Way) => (e.1, e.2.map Way.cleared)) }

/-- Clocks and power as a warm reset leaves them (R16, R481, R482): the warm registers' values return to their reset column, the
coolant row with its cap too, until PP applies the inlet's row again. What a comparator shows as in force stays (log entry 76). -/
def Power.warm (p : Power) : Power :=
  { p with
    state := if p.holds.isEmpty then 0 else p.state
    entering := 0, leaving := 0, ballast := 0, n := 64, nLoop := 64, lo := 16, hi := 64, hardHi := 64
    row := 0, cap := 3000, ppFloor := false, rowHeld := none }

/-- A handover that a warm reset ends (R504): the new images start once the commit marker stands. -/
def Boot.endHandover (b : Boot) : Boot :=
  if b.phaseNo = 0 then b
  else if b.committed then
    { b with active := b.staged.getD b.active, staged := none, phaseNo := 0, committed := false, activations := b.activations + 1 }
  else { b with phaseNo := 0 }

/-- WARM_ENTRY_COMPLETE (R485, steps 3 to 5). -/
def execWarmEntryComplete (s : State) : Out :=
  if s.boot.phase != .warmEntry then .next s
  else
    let s := s.flushHull.quiesceHbm
    let s := s.persistLife.restoreReset
    let s := s.warmRegs
    let s := { s with
      hull := s.hull.warm, reqs := [], decisions := [], held := []
      facets := s.facets.map (fun (e : Nat × Facet) => (e.1, { failed := e.2.failed }))
      store := { s.store.restarting with paused := s.power.warnAt.isSome || !s.power.holds.isEmpty }
      power := s.power.warm
      side := { s.side with cxlUp := false, cxlL2 := false, awaitCxl := false, session := false }
      boot := { s.boot.endHandover with phase := .warmHeld, mpUp := false, spUp := false, staging := none, crashAt := [], tardy := [] } }
    .next s.release

/-- A port reset (R483): flit, credit and retry state and port-kind registers; the messages the port held are lost (log entry
51); then it trains. -/
def State.resetPort (s : State) (p : Nat) : State :=
  let s := (s.losePort p).forget (fun d => samePort d 1 p)
  let s := s.updPort p (fun _ => { trainDue := true })
  s.resetRegs 0 (fun a r => r.kind == .port && decide (Reg.portState p ≤ a) && decide (a < Reg.portState (p + 1)))

end Sys2Proof.Machine
end

