-- ==== Sys2Proof/Machine/Decisions.lean ====
section
/-! DEFINITION. Decisions (R406 to R409), takeover (R416, R417), escalation (R415) and lifetime counters (R422). -/

namespace Sys2Proof.Machine

/-- Whether SPARE_TAKE for function `j` and position `p` is refused (R417). -/
def State.takeRefused (s : State) (j p : Nat) : Bool :=
  j == 0 || decide (16 < j) || s.enabled j || (List.range 17).any (fun k => s.posOf k == some p) ||
  (s.reg 0 Reg.escStatus).getLsbD 31 || s.boot.faultDue

/-- A takeover once decided (R416); one that a refusal of R417 meets by then, or whose tenant fails the checks of R396, sets
ERR. -/
def State.takeOver (s : State) (j p : Nat) : State :=
  if s.takeRefused j p then s.setRegF 0 Reg.spareTake 30 30 1
  else
    let s := (s.takePosition j (BitVec.ofNat 32 (2 ^ 31 + p % 2 ^ 20))).enableTenant j
    if s.enabled j then s.setRegF 0 Reg.spareTake 31 31 1 else s.setRegF 0 Reg.spareTake 30 30 1

/-- A write of SPARE_TAKE (R416, R417): every write starts a request. -/
def writeSpareTake (s : State) (v : Word) : State :=
  let old := s.reg 0 Reg.spareTake
  let s := s.setReg 0 Reg.spareTake ((old &&& ~~~ v &&& 0xC0000000) ||| (v &&& 0x3E0FFFFF))
  let j := field v 29 25
  let p := field v 19 0
  if s.takeRefused j p then s.setRegF 0 Reg.spareTake 30 30 1
  else
    let (s, waits) := s.decisionPoint 5 j p
    if waits then s else s.takeOver j p

/-- The row of the coolant curve for an inlet temperature in quarter degrees (R469). -/
def curveRow (inlet : Nat) : Nat := let t := ceilDiv inlet 4; if t ≤ 55 then 0 else if t ≤ 59 then t - 55 else 5

/-- Thermal cap and row ceiling of a row of the coolant curve (R469). -/
def curveCap : Nat → Nat × Nat
  | 0 => (3000, 64)
  | 1 => (2820, 61)
  | 2 => (2640, 55)
  | 3 => (2460, 48)
  | 4 => (2280, 41)
  | _ => (2100, 35)

/-- Whether a cause holds N to 32 (R463, R465): a hardware thermal limit (R461), a supply warning, the fast current clamp or
PP's missing heartbeat. -/
def Power.capped (p : Power) : Bool :=
  p.throttle || p.holds.contains 2 || p.holds.contains 5 || p.warnAt.isSome || p.clamp || p.ppFloor

/-- hard_hi of R463. -/
def Power.hardCeil (p : Power) : Nat := min (min 64 p.limiter) (min (curveCap p.row).2 (if p.capped then 32 else 64))

/-- The hard ceiling acts on N at once (R463). -/
def State.settle (s : State) : State :=
  let h := s.power.hardCeil
  { s with power := { s.power with hardHi := h, n := min s.power.n h } }

/-- A derating step is applied (R469, R470). -/
def State.applyRow (s : State) (row : Nat) : State :=
  { s with power := { s.power with row := row, cap := (curveCap row).1, rowHeld := none } }.settle

/-- The sources of an emergency in force (R476), numbered as HOLD_CAUSE. -/
def Power.emergencies (p : Power) : List Nat :=
  (if p.warnAt.isSome || p.holds.contains 1 then [1] else []) ++
  (if p.throttle || p.holds.contains 2 || p.holds.contains 5 then [2] else []) ++ [3, 4].filter p.holds.contains

/-- Whether an emergency is in force (R476). -/
def Power.emergency (p : Power) : Bool := !p.emergencies.isEmpty

/-- A handover abandoned before its point of no return (R504). -/
def State.abortHandover (s : State) (result : Nat) : State :=
  if s.boot.phaseNo = 0 || s.boot.committed then s
  else
    let s := { s with boot := { s.boot with phaseNo := 0 } }
    (s.setRegF 0 Reg.fwResult 7 0 result).trace 0x0033 1 255 [result]

/-- What follows a change of the emergencies in force: trace points 0x0050 and 0x0051 (R505), a handover abandoned (R504).
`old` is the power state before the change. -/
def State.emergencyEdge (s : State) (old : Power) : State :=
  let now := s.power.emergencies
  let s := (now.filter (fun c => !old.emergencies.contains c)).foldl (fun s c => s.trace 0x0050 0 255 [c]) s
  let s := (old.emergencies.filter (fun c => !now.contains c)).foldl (fun s c => s.trace 0x0051 0 255 [c]) s
  if !now.isEmpty && old.emergencies.isEmpty then s.abortHandover 0x18 else s

/-- The hardware-mode action of a decision, which is also its fallback (R406), and that of the answers that mean the same. -/
def State.takeAction (s : State) (d : Decision) : State :=
  match d.fn with
  | 1 => s.failoverAction d.subject
  | 2 => s.updPort d.subject (fun p => { p with ordered := true })
  | 3 => s.updFn d.subject (fun f => { f with recover := true })
  | 4 => s.scheduleStore d.subject true
  | 5 => s.takeOver d.subject d.data
  | 6 => if s.boot.ppUp then s.applyRow d.data else s
  | 7 =>
    match d.data with
    | 0 => s.stackFault d.subject
    | 1 => { s with boot := { s.boot with faultDue := true } }
    | _ => { s with boot := { s.boot with warmDue := true } }.warmReset 6
  | 8 => s.startScrub
  | _ => s.chooseLowering d.data none

/-- An answer of R406 to a decision; none when the answer is not one the function has. -/
def State.answerDecision (s : State) (d : Decision) (a : Nat) : Option State :=
  match d.fn, a with
  | 3, 1 => some ((s.updFn d.subject (fun f => { f with recover := true })).beginReset d.subject false)
  | 3, 2 => some (s.takeAction d)
  | 3, 3 => some s
  | 4, 1 => some (s.takeAction d)
  | 4, 2 => some (s.scheduleStore d.subject false)
  | 5, 1 => some (s.takeAction d)
  | 5, 2 => some s
  | 6, 1 => some (s.takeAction d)
  | 6, 2 => some { s with power := { s.power with rowHeld := some d.data } }
  | 7, 1 => some (s.takeAction d)
  | 7, 2 => some s
  | 8, 1 => some (s.takeAction d)
  | 8, 2 => some s
  | 9, a => if a < d.subject then some (s.chooseLowering d.data (some a)) else none
  | _, _ => none

/-- Removes the first decision of a function and subject. -/
def State.dropDecision (s : State) (fn subject : Nat) : State :=
  match s.decisions.findIdx? (fun d => d.fn == fn && d.subject == subject) with
  | some i => { s with decisions := s.decisions.eraseIdx i }
  | none => s

/-- A write of DEC_ANSWER (R408, R423): an answer that matches no pending decision, that comes when the wait is over, or that
the function does not have, counts as STALE. -/
def writeDecAnswer (s : State) (v : Word) : State :=
  let stale := s.count 0 Reg.decPending 31 24 1
  match s.decisions.find? (fun d => d.fn == field v 31 28 && d.subject == field v 23 0) with
  | none => stale
  | some d =>
    if d.due ≤ s.now then stale
    else (((s.dropDecision d.fn d.subject).answerDecision d (field v 27 24))).getD stale

/-- Whether the unit that takes a fallback is present (R409). -/
def State.ownerUp (s : State) (fn : Nat) : Bool :=
  match fn with
  | 3 | 4 | 5 | 7 | 9 => s.mpRuns
  | 6 => s.boot.ppUp
  | 8 => s.spRuns
  | _ => true

/-- DECISION_WAIT_EXPIRE (R406, R409): the wait is over, and the fallback is taken. -/
def execDecisionWaitExpire (fn subject : Nat) (s : State) : Out :=
  match s.decisions.find? (fun d => d.fn == fn && d.subject == subject) with
  | none => .next s
  | some d => if s.now < d.due || !s.ownerUp fn then .next s else .next ((s.dropDecision fn subject).takeAction d)

/-- EDGE_UE_RATE_EXCEEDED (R415): more than 1,000 edge-fabric uncorrectable words in one second; a warm reset. PATH_ERR.UE counts
them (R325), a number above 1,000 that is free (log entry 119). -/
def execEdgeUeRateExceeded (s : State) : Out :=
  if s.boot.phase != .running then .next s
  else
    let (s, k) := s.free
    let s := s.count 0 Reg.pathErr 15 0 (1001 + (Config.freeWord k).toNat)
    let (s, waits) := s.decisionPoint 7 0 2
    .next (if waits then s else s.warmReset 6)

/-- Whether logic power is off, or its return from S2 is not finished (R478, R480). -/
def Power.deep (p : Power) : Bool := p.state == 2 || (p.state == 5 && p.leaving == 2)

/-- Logic power returns from S2 (R480): MP and SP run once their clocks do, unless they had crashed, the ports train, and the host
has to retrain the CXL link. -/
def State.logicBack (s : State) : State :=
  let up (p : Nat) : Bool := !s.boot.crashAt.any (fun e => e.1 == p)
  { s with boot := { s.boot with mpUp := up 0, spUp := up 2 }, side := { s.side with awaitCxl := true }, ports := s.freshPorts }

/-- The safe hold (R474, R477): STATE 3, self-refresh, the store paused. The cause that entered it is reported, but for a lost
clock, which takes the report over (R481). From S2 logic power returns, since the hold has it as S1 has (log entry 83). -/
def State.enterHold (s : State) (cause : Nat) : State :=
  if s.power.holds.contains cause then s
  else
    let old := s.power
    let holds := if cause = 4 then cause :: old.holds else old.holds ++ [cause]
    let s := if s.boot.phase == .running then s.selfRefreshAll else s
    let s := if old.deep then s.logicBack else s
    let s := { s with power := { s.power with holds := holds, state := 3, entering := 0, leaving := 0 } }
    s.pauseStore.settle.emergencyEdge old

/-- Steps 1 and 2 of a module fault (R415). -/
def State.stopForFault (s : State) : State :=
  let s := { s.setRegF 0 Reg.escStatus 31 31 1 with locusOpen := false }
  let s := (List.range 17).foldl (fun s j => s.endEntries j) s
  { s with boot := { s.boot with faultDue := false, moduleFaults := s.boot.moduleFaults + 1 } }

/-- The safe hold of a module fault that recurs: ports disabled (R415, R477). -/
def State.faultHold (s : State) : State :=
  (s.enterHold 3).darkPorts

/-- The steps of a declared module fault (R415): ALERT, ESC_STATUS, acceptance stops, accepted entries end, and one cold reset; a
fault that recurs before Locus acceptance puts the module in the safe hold instead. -/
def State.runFault (s : State) : State :=
  if s.boot.moduleFaults == 0 then s.stopForFault.coldReset 7 else s.stopForFault.faultHold

/-- MODULE_FAULT (R415): the declared fault runs its steps. With none declared the command is the event itself, a stack or die that
does not answer within its R278 share, a decision point of function 7 (log entry 124). -/
def execModuleFault (s : State) : Out :=
  if s.boot.faultDue then .next s.runFault
  else if s.boot.phase != .running then .next s
  else
    let t := s.escalateModule
    .next (if t.boot.faultDue then t.runFault else t)

/-- LIFE_PERSIST (R422): the live counters go to the system area. -/
def execLifePersist (s : State) : Out := .next s.persistLife

/-- Bin of a temperature or voltage: `base` the lower edge of bin 1, `step` its width; bins 0 and 15 are open. -/
def lifeBin (x base step : Nat) : Nat := if x < base then 0 else min 15 ((x - base) / step + 1)

/-- LIFE_SAMPLE (R422): one second of junction, inlet and voltage. -/
def execLifeSample (s : State) : Out :=
  let s := s.life! (lifeBin s.power.junction 100 20) 1
  let s := s.life! (0x10 + lifeBin s.power.inlet 120 10) 1
  .next (s.life! (0x20 + lifeBin s.power.volts 42000 1000) 1)

/-- Bin `k` of the erase-count histogram over the data pool's 1,030,144 blocks (R446); a block not listed has no erase. -/
def State.eraseBin (s : State) (k : Nat) : Nat :=
  let l := (s.store.erases.filter (fun e => decide (8 ≤ e.1 % 4096) && decide (e.1 % 4096 ≤ 4031))).map (fun e => min 15 (e.2.toNat / 500))
  let n := (l.filter (· == k)).length
  if k = 0 then 1030144 - l.length + n else n

/-- A lifetime counter as MP's live copy has it (R422); the histogram of erases is the store's own. -/
def State.lifeCounter (s : State) (k : Nat) : BitVec 64 :=
  if 0x200 ≤ k ∧ k ≤ 0x20F then BitVec.ofNat 64 (s.eraseBin (k - 0x200)) else tget s.life.live k

/-- A write of LIFE_SEL: the pair is latched (R422). -/
def writeLifeSel (s : State) (v : Word) : State :=
  { s.setReg 0 Reg.lifeSel (v &&& 0x3FF) with life := { s.life with latched := s.lifeCounter (field v 9 0) } }

end Sys2Proof.Machine
end

