-- ==== Sys2Proof/Machine/Fec.lean ====
section
/-! DEFINITION. The FEC on a port's lanes (R328, R329): RS(544,514) over 10-bit symbols, two codewords interleaved. The commands
that receive flits name the wrong symbols of the codewords that carried them (State.decodeFlit); what the port sends is a view of its
flits. -/

namespace Sys2Proof.Machine

/-- Product in GF(2^10) with the field polynomial x^10 + x^3 + 1 (PRESUMED, IEEE 802.3; log entry 120). -/
def gf10mul (a b : Nat) : Nat :=
  (List.range 10).foldl (fun acc i =>
    let acc := if 512 ≤ acc then (2 * acc) ^^^ 0x409 else 2 * acc
    if b.testBit (9 - i) then acc ^^^ a else acc) 0

/-- Coefficients of the generator below its leading one, highest first: the product of (x - 2^i) for i = 0 to 29 (PRESUMED, IEEE
802.3; log entry 120). -/
def fecGenerator : List Nat :=
  ((List.range 30).foldl (fun (acc : List Nat × Nat) _ =>
    (List.zipWith (· ^^^ ·) (acc.1 ++ [0]) (0 :: acc.1.map (gf10mul acc.2)), gf10mul acc.2 2)) ([1], 1)).1.drop 1

/-- The 30 parity symbols of a message. -/
def fecParity (msg : List Nat) : List Nat :=
  msg.foldl (fun r m => List.zipWith (· ^^^ ·) (r.drop 1 ++ [0]) (fecGenerator.map (gf10mul (m ^^^ r.headD 0)))) (List.replicate 30 0)

/-- A codeword of RS(544,514): 514 message symbols and their parity. -/
def fecEncode (msg : List Nat) : List Nat := msg ++ fecParity msg

/-- Wrong symbols of what came for a codeword. -/
def wrongSymbols (msg got : List Nat) : Nat := ((fecEncode msg).zip got).countP (fun e => e.1 != e.2)

/-- A byte stream as 10-bit symbols, its bits in order. -/
def symbolsOf (bytes : List Byte) : List Nat :=
  (List.range (8 * bytes.length / 10)).map (fun i =>
    let w := byteField bytes (10 * i / 8) 2
    (w >>> (10 * i % 8)) % 1024)

/-- Every second element of a list, from the first or the second one. -/
def alternate (l : List Nat) (odd : Bool) : List Nat := (l.zipIdx.filter (fun e => (e.2 % 2 == 1) == odd)).map (·.1)

/-- The k-th pair of codewords, interleaved symbol by symbol, of a flit stream that fills their message parts (R329; the message
symbols go to the two in turn, log entry 120). -/
def fecPair (stream : List Byte) (k : Nat) : List Nat :=
  let msg := (symbolsOf ((stream.drop (1285 * k)).take 1285))
  List.flatten (List.zipWith (fun a b => [a, b]) (fecEncode (alternate msg false)) (fecEncode (alternate msg true)))

/-- The bytes of the flits a port has sent since its training, the first one first: codewords are aligned in training (R329). -/
def State.flitStream (s : State) (p : Nat) : List Byte :=
  (((s.out.flits.filter (fun e => e.1 == p)).take (s.port p).sentFlits).reverse).flatMap (·.2)

/-- The active lanes of a port: four, or two at reduced width (R328). -/
def Port.activeLanes (x : Port) : Nat := if x.lanes = 0xF then 4 else 2

/-- The symbols of a codeword pair on the i-th active lane of a port. -/
def State.laneSymbols (s : State) (p k i : Nat) : List Nat :=
  ((fecPair (s.flitStream p) k).zipIdx.filter (fun e => e.2 % (s.port p).activeLanes == i)).map (·.1)

end Sys2Proof.Machine
end

