-- ==== Sys2Proof/Machine/Power.lean ====
section
/-! DEFINITION. Clocks, power and heat (R451 to R481): references and locks, the gating tree, hard limits and the limiter, the
window of N, Level mode, the coolant curve, supply events, power states. -/

namespace Sys2Proof.Machine

/-- XTAL_STABLE (R452): the always-on island switches to the crystal. -/
def execXtalStable (s : State) : Out :=
  if s.power.xtalOk || s.boot.xtalFailed || s.power.holds.contains 4 then .next s
  else .next { s with power := { s.power with xtalOk := true, rcActive := false } }

/-- XTAL_TIMEOUT (R452): the module stays in reset, ALERT_N asserted. -/
def execXtalTimeout (s : State) : Out :=
  if s.power.xtalOk || !(s.boot.phase == .coldHeld || s.boot.phase == .starting) then .next s
  else .next { s with
    boot := { s.boot with phase := .stopped, xtalFailed := true }
    power := { s.power with rcActive := true } }

/-- XTAL_LOSS (R453): the safe hold with cause clock; the always-on island goes on from its internal oscillator. -/
def execXtalLoss (s : State) : Out :=
  if !s.power.xtalOk then .next s
  else .next ({ s with power := { s.power with xtalOk := false, rcActive := true } }.enterHold 4)

/-- Sets the lock bit of a PLL: 0 to 5 the origin PLLs, 6 to 15 the island PLLs in the order of `Power.islandLock`. -/
def Power.setLock (p : Power) (pll : Nat) (on : Bool) : Power :=
  let put (w : Nat) (b : BitVec w) (i : Nat) : BitVec w := if on then b ||| BitVec.ofNat w (2 ^ i) else b &&& ~~~ BitVec.ofNat w (2 ^ i)
  if pll < 6 then { p with originLock := put 6 p.originLock pll } else { p with islandLock := put 10 p.islandLock (pll - 6) }

/-- The lock bit of a PLL. -/
def Power.lock (p : Power) (pll : Nat) : Bool := if pll < 6 then p.originLock.getLsbD pll else p.islandLock.getLsbD (pll - 6)

/-- Whether a PLL exists: island PLLs only in paired mode (R455), and the reference of every one is the crystal (R451). -/
def State.hasPll (s : State) (pll : Nat) : Bool := decide (pll < 6) || (decide (pll < 16) && s.pairedMode)

/-- PLL_UNLOCK (R453): its islands are gated, LOCK_LOSS increments. -/
def execPllUnlock (pll : Nat) (s : State) : Out :=
  if !s.hasPll pll || !s.power.lock pll then .next s
  else .next ({ s with power := s.power.setLock pll false }.count 0 Reg.clkStatus 23 16 1)

/-- ORIGIN_RELOCK_TIMEOUT (R453). -/
def execOriginRelockTimeout (die : Nat) (s : State) : Out :=
  if die < 6 && !s.power.lock die && s.boot.phase == .running && s.power.state != 2 then .next (s.enterHold 4) else .next s

/-- CHORD_REFCLK_LOSS (R453): every port faults. -/
def execChordRefclkLoss (s : State) : Out := .next (s.upPorts.foldl (fun s p => s.faultPort p none) s)

/-- REFCLK_LOSS (R453, R523): the CXL link goes down. -/
def execRefclkLoss (s : State) : Out :=
  .next { s with side := { s.side with cxlUp := false }, boot := { s.boot with refclk := false } }

/-- Rated units of 62.5 MHz of an island PLL (R454). -/
def islandRated (island : Nat) : Nat := if island < 4 then 64 else 32

/-- Frequency and voltage in force on an island: rated, at the table's voltage, until it has been moved (R457). -/
def State.islandNow (s : State) (island : Nat) : Nat × Nat :=
  agetD s.power.islands island (islandRated island, Config.tableMv s.boot.tables island (islandRated island))

/-- The next step of the sequencer from `(n0, v0)` towards `n` units of 62.5 MHz at `mv` (R457, R461), none where a step is refused:
above the frequency or the voltage ceiling, below the table's voltage for a frequency in force on the way, or a voltage step
during a supply warning (R472). Raising moves the voltage first, lowering the frequency. -/
def retuneStep (table : Nat → Nat) (ceiling rated : Nat) (warning : Bool) (n0 v0 n mv : Nat) : Option (Nat × Nat) :=
  if n = 0 ∨ rated < n ∨ ceiling < mv ∨ (warning = true ∧ mv ≠ v0) then none
  else if mv < table n then none
  else if v0 = mv then some (n, mv)
  else if n < n0 then (if v0 < table n then none else some (n, v0))
  else if mv < table n0 then none else some (n0, mv)

/-- PLL_RETUNE (R457, R461, R472): one step of the sequencer in paired mode, of a PLL that has not lost lock; a move of frequency
and voltage is two steps (log entry 82). -/
def execPllRetune (island n mv : Nat) (s : State) : Out :=
  let now := s.islandNow island
  if 10 ≤ island || !s.pairedMode || !s.power.lock (6 + island) then .next s
  else match retuneStep (Config.tableMv s.boot.tables island) (Config.railCeiling s.boot.tables island) (islandRated island)
      s.power.warnAt.isSome now.1 now.2 n mv with
  | none => .next s
  | some x => .next { s with power := { s.power with islands := aput s.power.islands island x } }

/-- Units of 62.5 MHz of a compute die's Facet PLL; 64 in aligned mode (R454). -/
def State.facetUnits (s : State) (die : Nat) : Nat := if s.pairedMode then (agetD s.power.islands die (64, 0)).1 else 64

/-- The N that swallowing applies (R456, R457): `Power.n` is the Facet ratio of R463 in units of 62.5 MHz; in paired mode a
slower PLL takes up part of the trim, all of it when N reads 64. -/
def State.swallow (s : State) : Nat :=
  let u := (List.range 4).foldl (fun m d => max m (s.facetUnits d)) 1
  min 64 (64 * s.power.n / u)

/-- Facet cycles of a die per 64 cycles of 62.5 MHz (R456): N of every 64 cycles of its source clock. -/
def State.facetRate (s : State) (die : Nat) : Nat := s.facetUnits die * s.swallow

/-- Whether the Hull and edge fabric run at half rate (R461, R472). -/
def Power.hullHalf (p : Power) : Bool := p.warnAt.isSome || p.throttle

/-- A sample of the hottest junction. -/
def State.sense (s : State) (junction die : Nat) : State :=
  { s with power := { s.power with junction := junction, hotDie := die % 6 } }

/-- JUNCTION_THROTTLE (R461): temperatures in quarter degrees. -/
def execJunctionThrottle (junction die : Nat) (s : State) : Out :=
  let s := s.sense junction die
  if s.power.throttle || junction < 400 then .next s
  else .next ({ s with power := { s.power with throttle := true } }.settle.emergencyEdge s.power)

/-- THROTTLE_RELEASE (R461). -/
def execThrottleRelease (junction die : Nat) (s : State) : Out :=
  let s := s.sense junction die
  if !s.power.throttle || 380 < junction then .next s
  else .next ({ s with power := { s.power with throttle := false } }.settle.emergencyEdge s.power)

/-- JUNCTION_TRIP (R461). -/
def execJunctionTrip (junction die : Nat) (s : State) : Out :=
  let s := s.sense junction die
  .next (if junction < 440 then s else s.enterHold 2)

/-- INLET_LIMIT (R461): the inlet at or above 62 °C for one second. -/
def execInletLimit (inlet : Nat) (s : State) : Out :=
  let s := { s with power := { s.power with inlet := inlet } }
  .next (if inlet < 248 then s else s.enterHold 5)

/-- A return to P0 begins (R479, R480): LAST_WAKE, N under the ramp of R473; from S2 logic power returns. -/
def State.startWake (s : State) (source : Nat) : State :=
  let s := s.setRegF 0 Reg.pwrState 3 0 source
  let deep := s.power.deep
  let s := { s with power := { s.power with
    leaving := if deep then 2 else s.power.state, state := 5, entering := 0, ramping := true } }
  if deep then s.logicBack else s

/-- Causes of a safe hold released; with none left the return to P0 begins (R479). A hold of cause 3 or 4 never ends here. -/
def State.releaseHold (s : State) (gone : List Nat) (source : Nat) : State :=
  let rest := s.power.holds.filter (fun c => !gone.contains c)
  if rest == s.power.holds then s
  else
    let trip := s.power.holds.contains 2
    let s := { s with power := { s.power with holds := rest } }
    if rest.isEmpty then { s with power := { s.power with trip := trip } }.startWake source else s

/-- THERMAL_RELEASE (R461, R479): the junction trip needs both temperatures, the inlet limit the inlet's. -/
def execThermalRelease (junction die inlet : Nat) (s : State) : Out :=
  let s := (s.sense junction die)
  let s := { s with power := { s.power with inlet := inlet } }
  if 240 < inlet then .next s
  else
    let t := s.releaseHold (if junction ≤ 360 then [2, 5] else [5]) 4
    .next (t.settle.emergencyEdge s.power)

/-- FAST_CURRENT_CLAMP (R462): one sample above 67 A. -/
def execFastCurrentClamp (ma : Nat) (s : State) : Out :=
  let s := { s with power := { s.power with amps := ma } }
  .next (if ma ≤ 67000 then s else { s with power := { s.power with clamp := true } }.settle)

/-- CLAMP_RELEASE (R462): the mean has stayed at or below 64 A for 250 cycles; N returns under the ramp of R473. -/
def execClampRelease (ma : Nat) (s : State) : Out :=
  let s := { s with power := { s.power with amps := ma } }
  .next (if 64000 < ma || !s.power.clamp then s
    else { s with power := { s.power with clamp := false, ramping := true } }.settle)

/-- LIMITER_PERIOD (R462): the end of a 250-cycle period, with its mean power, its largest 25-cycle mean current and the mean
power of the last 2,500,000 cycles. -/
def execLimiterPeriod (meanW maxMa capW : Nat) (s : State) : Out :=
  let p := s.power
  let bad := decide (3300 < meanW) || decide (68000 < maxMa) || decide (p.cap < capW)
  let l := if bad then max 16 (p.limiter - 4) else p.limiter
  let anyBad := bad || p.limBad
  let last := p.limPeriods == 9
  let l := if last && !anyBad then min 64 (l + 1) else l
  .next { s with power := { p with
    limiter := l, limPeriods := if last then 0 else p.limPeriods + 1, limBad := !last && anyBad } }.settle

/-- A ratio request field: values outside 16 to 64 are taken as the nearer end (R482). -/
def clipRatio (x : Nat) : Nat := min 64 (max 16 x)

/-- FLOOR and CEIL of a function's request (R482). -/
def State.request (s : State) (j : Nat) : Nat × Nat := (clipRatio (s.regF j Reg.pwrReq 6 0), clipRatio (s.regF j Reg.pwrReq 14 8))

/-- The functions whose requests count: PF0 and the enabled tenants (R463). -/
def State.requesters (s : State) : List Nat := 0 :: s.tenants

/-- sw_lo and sw_hi of R463. -/
def State.softWindow (s : State) : Nat × Nat :=
  s.requesters.foldl (fun w j => (max w.1 (s.request j).1, min w.2 (s.request j).2)) (16, 64)

/-- LEVEL_CFG fields (R466). -/
def State.levelOn (s : State) : Bool := (s.reg 0 Reg.levelCfg).getLsbD 31

/-- The window of R463 before the overrides of R468. -/
def State.plainWindow (s : State) : Nat × Nat :=
  let w := s.softWindow
  let h := s.power.hardCeil
  let hi := min (max w.2 16) h
  (min (min (max w.1 16) h) hi, hi)

/-- The window in force: the overrides of R468 move lo down to hard_lo at most and hi up to hard_hi at most. -/
def State.window (s : State) : Nat × Nat :=
  let w := s.plainWindow
  if s.levelOn then (max 16 (w.1 - s.power.loCut), min s.power.hardCeil (w.2 + s.power.hiLift)) else w

/-- The Level loop of R467 and the overrides of R468, on the mean power of the period; not while a supply warning is in force
(R481). -/
def State.levelLoop (s : State) (p : Nat) : State :=
  let setp := s.regF 0 Reg.levelCfg 11 0
  let band := s.regF 0 Reg.levelCfg 21 16
  let ballast := (s.reg 0 Reg.levelCfg).getLsbD 30
  let (lo, hi) := s.window
  let q := s.power
  if !s.levelOn || q.warnAt.isSome then s
  else if setp * (400 + band) < 400 * p then
    if 0 < q.ballast then { s with power := { q with ballast := q.ballast - 4 } }
    else
      let cut := decide (q.nLoop ≤ lo) && decide (16 < lo)
      let lo := if cut then max 16 (lo - 4) else lo
      { s with power := { q with
        nLoop := max lo (q.nLoop - 4), loCut := if cut then q.loCut + 4 else q.loCut, hiLift := q.hiLift - 4 } }
  else if 400 * p < setp * (400 - band) then
    let q := { q with loCut := q.loCut - 4 }
    if q.nLoop < hi then { s with power := { q with nLoop := min hi (q.nLoop + 4) } }
    else if ballast && decide (q.ballast < 15) then { s with power := { q with ballast := min 15 (q.ballast + 4) } }
    else if hi < q.hardCeil then
      { s with power := { q with nLoop := min q.hardCeil (hi + 4), hiLift := q.hiLift + 4 } }
    else { s with power := q }
  else s

/-- The cause by which a function's request is clamped now (R464), 0 none: 1 below its FLOOR because another's CEIL prevails, 2
above its CEIL, 3 the Level override. A hard limit is none. -/
def State.clampCause (s : State) (j : Nat) : Nat :=
  let (floor, ceil) := s.request j
  let sw := s.softWindow
  let n := s.power.n
  if n < floor then
    if sw.2 < floor then 1
    else if s.levelOn && s.power.loCut != 0 && decide (s.window.1 < min floor s.power.hardCeil) then 3 else 0
  else if ceil < n then (if s.levelOn && s.power.hiLift != 0 then 3 else 2) else 0

/-- The clamp events of R464: each request that passes from honoured to clamped. -/
def State.clampRequests (s : State) : State :=
  s.requesters.foldl (fun s j =>
    let c := s.clampCause j
    let was := (s.fn j).clamped
    let s := if c != 0 && !was then s.clampEvent j c else s
    s.updFn j (fun f => { f with clamped := c != 0 })) s

/-- The N that the window asks for (R463). -/
def State.windowN (s : State) : Nat :=
  let (lo, hi) := s.window
  if s.levelOn then min (max s.power.nLoop lo) hi else hi

/-- Stores the window as FREQ_STATUS shows it; with Level mode off N_loop is sw_hi. -/
def State.storeWindow (s : State) : State :=
  let w := s.window
  { s with power := { s.power with
    lo := w.1, hi := w.2, hardHi := s.power.hardCeil
    nLoop := if s.levelOn then s.power.nLoop else s.softWindow.2 } }

/-- WINDOW_PERIOD (R463, R464, R467): the window is formed anew, the Level loop runs, N follows; under the ramp of R473 it does
not rise here. `meanW` is the mean input power of the last 25,000 cycles. -/
def execWindowPeriod (meanW : Nat) (s : State) : Out :=
  let s := { s with power := { s.power with watts := meanW } }
  let s := (s.storeWindow.levelLoop meanW).storeWindow
  let n := s.windowN
  let s := { s with power := { s.power with
    n := if s.power.ramping then min s.power.n n else n
    ramping := s.power.ramping && decide (s.power.n < n) } }
  .next s.clampRequests

/-- N_RAMP_STEP (R473): at most 8 towards the window. -/
def execNRampStep (s : State) : Out :=
  if !s.power.ramping then .next s
  else
    let s := s.storeWindow
    let n := s.windowN
    let m := min n (s.power.n + 8)
    .next { s with power := { s.power with n := m, ramping := decide (m < n) } }

/-- LEVEL_WINDOW_END (R468, R481): a 100 ms window is judged; one that met a warning counts neither way. -/
def execLevelWindowEnd (meanW : Nat) (s : State) : Out :=
  if !s.levelOn then .next s
  else
    let setp := s.regF 0 Reg.levelCfg 11 0
    let band := s.regF 0 Reg.levelCfg 21 16
    let above := decide (setp * (200 + band) < 200 * meanW)
    let below := decide (200 * meanW < setp * (200 - band))
    let s := s.setRegF 0 Reg.levelStatus 31 31 (if above || below then 0 else 1)
    let s := s.setRegF 0 Reg.levelStatus 23 12 (min 4095 meanW)
    let met := s.power.warnInLevel
    let s := { s with power := { s.power with warnInLevel := s.power.warnAt.isSome } }
    .next (if met then s
      else if above then s.count 0 Reg.levelStatus 11 6 1
      else if below then s.count 0 Reg.levelStatus 5 0 1 else s)

/-- PP_HEARTBEAT (R465). -/
def execPpHeartbeat (s : State) : Out :=
  if !s.boot.ppUp then .next s
  else .next { s with power := { s.power with beatAt := s.now, ppFloor := false } }.settle

/-- PP_HEARTBEAT_TIMEOUT (R465): no heartbeat for 250,000 cycles. -/
def execPpHeartbeatTimeout (s : State) : Out :=
  if s.now < s.power.beatAt + 250000 then .next s
  else .next { s with power := { s.power with ppFloor := true } }.settle

/-- DERATING_STEP (R469, R470): the inlet as PP reads it; a step towards a lower cap is a decision of function 6, a held step
leaves the row in force until the inlet changes row again, a step that waits is overtaken by a later one. While PP is silent
the row in force stays (R481). -/
def execDeratingStep (inlet : Nat) (s : State) : Out :=
  let s := { s with power := { s.power with inlet := inlet } }
  let row := curveRow inlet
  let asked := s.decisions.find? (fun d => d.fn == 6)
  let same := match asked with
    | some d => d.data == row
    | none => s.power.rowHeld == some row
  if !s.boot.ppUp || same then .next s
  else
    let s := { s with decisions := s.decisions.filter (fun d => d.fn != 6), power := { s.power with rowHeld := none } }
    if row ≤ s.power.row then .next (if row = s.power.row then s else s.applyRow row)
    else
      let (s, waits) := s.decisionPoint 6 0 row
      .next (if waits then s else s.applyRow row)

/-- SUPPLY_WARNING (R471, R472): below 45.0 V for 2 samples. -/
def execSupplyWarning (mv : Nat) (s : State) : Out :=
  let s := { s with power := { s.power with volts := mv } }
  if 45000 ≤ mv || s.power.warnAt.isSome || s.boot.phase == .coldHeld then .next s
  else
    let old := s.power
    let s := s.count 0 Reg.supplyEvents 31 16 1
    let s := { s with power := { s.power with warnAt := some s.now, warnInLevel := true } }
    .next (s.pauseStore.settle.emergencyEdge old)

/-- Bin of a supply warning's length (R422). -/
def supplyBin (len : Nat) : Nat := ((List.range 15).find? (fun k => decide (len < 64 * 2 ^ (k + 1)))).getD 15

/-- SUPPLY_RELEASE (R471, R473, R479): at or above 47.0 V for 25 samples. -/
def execSupplyRelease (mv : Nat) (s : State) : Out :=
  let s := { s with power := { s.power with volts := mv } }
  match s.power.warnAt with
  | none => .next s
  | some t =>
    if mv < 47000 then .next s
    else
      let old := s.power
      let len := s.now - t
      let s := s.setReg 0 Reg.supplyLast (BitVec.ofNat 32 (min (2 ^ 32 - 1) len))
      let s := s.life! (0x30 + supplyBin len) 1
      let s := { s with power := { s.power with warnAt := none, ramping := true } }
      let s := s.releaseHold [1] 3
      let s := if s.power.state = 0 then s.unpauseStore else s
      .next (s.settle.emergencyEdge old)

/-- SUPPLY_HOLD (R471, R474): the warning is not released within 125,000 cycles. -/
def execSupplyHold (s : State) : Out :=
  match s.power.warnAt with
  | none => .next s
  | some t =>
    if s.now < t + 125000 || s.power.holds.contains 1 then .next s
    else .next ((s.count 0 Reg.supplyEvents 15 8 1).enterHold 1)

/-- SUPPLY_RESET (R471, R475): below 41.0 V for 2 samples; the supply has to reach 47.0 V again before reset release (R484). -/
def execSupplyReset (mv : Nat) (s : State) : Out :=
  let s := { s with power := { s.power with volts := mv } }
  .next (if 41000 ≤ mv then s else s.coldReset 3)

/-- Whether PWR_CMD is refused (R478). -/
def State.powerRefused (s : State) : Bool :=
  s.entries.any (fun e => s.enabled e.fn) || !s.drains.isEmpty || s.store.restore.isSome || s.power.emergency

/-- A write of PWR_CMD (R478, R479): TARGET 0 returns from S1; 1 and 2 start entry from P0, 2 also from S1. -/
def writePwrCmd (s : State) (v : Word) : State :=
  let t := field v 1 0
  let st := s.power.state
  if t = 0 then (if st = 1 then s.startWake 5 else s)
  else if t = 3 then s
  else if s.powerRefused then s.setRegF 0 Reg.pwrState 25 25 1
  else if st = 0 || (st = 1 && t = 2) then { s with power := { s.power with state := 4, entering := t, leaving := st } }.pauseStore
  else s

/-- The PLLs that stay locked in S2: those of the dies, and of the islands, whose DEEP enable is 1 (R459, R477). -/
def State.deepLocks (s : State) : BitVec 6 × BitVec 10 :=
  let deep (id : Nat) : Bool := (s.gate id).getLsbD 2
  let bits (l : List Nat) : Nat := (l.zipIdx.map (fun e => if deep e.1 then 2 ^ e.2 else 0)).sum
  (s.power.originLock &&& BitVec.ofNat 6 (bits [0, 1, 2, 3, 4, 5]),
   s.power.islandLock &&& BitVec.ofNat 10 (bits [0x10, 0x14, 0x18, 0x1C, 0x11, 0x15, 0x19, 0x1D, 4, 5]))

/-- POWER_ENTRY_COMPLETE (R310, R422, R477, R478): self-refresh; for S2 also the link to L2, the ports down, and logic power off
but for units with DEEP = 1 (R459). -/
def execPowerEntryComplete (s : State) : Out :=
  if s.power.state != 4 then .next s
  else
    let target := s.power.entering
    let s := s.selfRefreshAll
    let s := if target = 2 then s.persistLife else s
    let s := { s with power := { s.power with state := target, entering := 0, leaving := 0 } }
    if target != 2 then .next s
    else
      .next { s with
        side := { s.side with cxlUp := false, cxlL2 := true }
        power := { s.power with originLock := s.deepLocks.1, islandLock := s.deepLocks.2 }
        boot := { s.boot with mpUp := false, spUp := false } }.darkPorts

/-- The wake from S1 or S2 by a comparator (R479). -/
def State.wake (s : State) (source : Nat) : State :=
  if s.power.state = 1 || s.power.state = 2 then s.startWake source else s

/-- WAKE_SENSE (R479, R508): the pin rises through 0.90 V. The comparator acts when it is armed; whether the voltage has fallen
below 0.85 V since its last rise, which arms it again, is for the world outside to say: a free value (log entry 145). -/
def execWakeSense (s : State) : Out :=
  let (s, k) := s.free
  let armed := s.side.senseArmed || (Config.freeWord k).getLsbD 0
  let s := { s with side := { s.side with senseArmed := false } }
  .next (if armed && (s.reg 0 Reg.wakeCfg).getLsbD 31 then s.wake 1 else s)

/-- INLET_WAKE (R479): the inlet falls below WAKE_INLET. -/
def execInletWake (inlet : Nat) (s : State) : Out :=
  let s := { s with power := { s.power with inlet := inlet } }
  .next (if (s.reg 0 Reg.wakeCfg).getLsbD 30 && decide (inlet < s.regF 0 Reg.wakeCfg 25 16) then s.wake 2 else s)

/-- Whether the PLLs a wake needs are locked (R480). -/
def State.locked (s : State) : Bool := s.power.originLock == 0x3F && (!s.pairedMode || s.power.islandLock == 0x3FF)

/-- The module is back in P0 (R480). -/
def State.finishWake (s : State) : State :=
  let s := { s with power := { s.power with state := 0, leaving := 0, trip := false } }.wakeEngines
  if s.power.warnAt.isNone then s.unpauseStore else s

/-- Whether R458 lists a gate. -/
def gateKnown (id : Nat) : Bool :=
  decide (id < 6) || (decide (0x10 ≤ id) && decide (id < 0x20) && id % 4 != 2) || (decide (0x100 ≤ id) && decide (id < 0x1D0)) ||
  (decide (0x200 ≤ id) && decide (id < 0x224)) || (decide (0x240 ≤ id) && decide (id < 0x244))

/-- Every gate of R458. -/
def gates : List Nat := (List.range 0x244).filter gateKnown

/-- The parent of a gate (R458). -/
def gateParent (id : Nat) : Option Nat :=
  if id < 6 then none
  else if id < 0x20 then some ((id - 0x10) / 4)
  else if id < 0x1D0 then some (0x10 + 4 * ((id - 0x100) / 52))
  else if id < 0x224 then some (if id ≤ 0x211 then 4 else 5)
  else some (if id ≤ 0x241 then 4 else 5)

/-- Whether the tree rule refuses `e` for a gate (R459): a parent cleared below a set child, a child set below a cleared
parent. -/
def State.treeRefuses (s : State) (id : Nat) (e : BitVec 3) : Bool :=
  let now := s.gate id
  let children := gates.filter (fun c => gateParent c == some id)
  children.any (fun c => s.gate c &&& now &&& ~~~ e != 0) ||
  (match gateParent id with
   | none => false
   | some p => e &&& ~~~ now &&& ~~~ (s.gate p) != 0)

/-- A write of GATE_CMD (R458 to R460, R481). -/
def writeGateCmd (s : State) (v : Word) : State :=
  let id := field v 9 0
  let e := BitVec.ofNat 3 (field v 28 26)
  let result (s : State) (status : Nat) (en : BitVec 3) : State :=
    s.setReg 0 Reg.gateStatus (BitVec.ofNat 32 (status * 2 ^ 24 + en.toNat * 2 ^ 16 + id))
  if !gateKnown id then result s 3 0
  else if s.power.state = 4 || s.treeRefuses id e || (!e.getLsbD 0 && (s.gate id).getLsbD 0 && s.gateInUse id) then
    result s 2 (s.gate id)
  else result (s.setGate id e) 1 e

/-- A write of LEVEL_CFG (R466): BAND outside 6 to 40 or SETPOINT above 3,000 discards it. EN and BALLAST are RWC. -/
def writeLevelCfg (s : State) (v : Word) : State :=
  let band := field v 21 16
  if band < 6 || 40 < band || 3000 < field v 11 0 then s.setRegF 0 Reg.levelStatus 30 30 1
  else s.setReg 0 Reg.levelCfg ((s.reg 0 Reg.levelCfg &&& 0xC0000000) ||| (v &&& 0x003F0FFF))

end Sys2Proof.Machine
end

