-- ==== Sys2Proof/Machine/Rdu.lean ====
section
/-! DEFINITION. The reduction unit (R244 to R251): REDG, REDB, RED.R and the acceptance of its queue. -/

namespace Sys2Proof.Machine

/-- Whether MOD is an index form. -/
def Ins.indexed (i : Ins) : Bool := i.mod == 3 || i.mod == 4

/-- EXT[2]: index registers given (R245). -/
def Ins.idx (i : Ins) : Bool := i.w0.getLsbD 2

/-- The destination of an RDU instruction (R245). -/
def redDest (i : Ins) : Reg? := { uniform := i.ud, rlx := false, n := i.d, span := if i.indexed then 2 else 1 }

/-- A vector source of an RDU instruction. -/
def redSrc (n : Nat) : Reg? := { uniform := false, rlx := false, n := n, span := 1 }

/-- The encoding rules REDG, REDB and RED.R share (R245). -/
def ownRed (i : Ins) : Bool :=
  (i.type == 0 || i.type == 1 || i.type == 2 || i.type == 5) && decide (i.mod ≤ 4) && !i.rlx && !i.ua && !i.ub &&
  field i.w0 1 0 == 0 && (redDest i).legal

/-- The 32 lanes of a source register of REDG or REDB; an uncorrectable word reads as +0 (R251). -/
def Group.redLanes (g : Group) (n : Nat) : List Word := (List.range 32).map (fun l => g.readLane? n l)

/-- The uncorrectable source register words of REDG or REDB are counted, each once (R251). -/
def State.redBad (s : State) (g : Group) (i : Ins) : State :=
  let bad := distinct ((i.a :: (if i.idx then [i.b] else [])).flatMap (fun n => g.badWords n (List.range 32)))
  if bad.isEmpty then s else (s.drop g.vf 3 bad.length).count 0 Reg.pathErr 15 0 bad.length

/-- Queues an instruction of one group at the RDU; its destination is owed (R104). -/
def State.pushRdu (s : State) (f : Nat) (op : RduOp) : State := s.updFacet f (fun x => { x with rdu := x.rdu ++ [op] })

/-- REDG (R245, R246). -/
def runRedg (f slot : Nat) (s : State) (g : Group) (i : Ins) : Issue :=
  let own := ownRed i && i.c == 0 && !i.uc && (i.idx || i.b == 0)
  let srcs := redSrc i.a :: (if i.idx then [redSrc i.b] else [])
  if !own then .fault 4 g.live 0
  else if !((redDest i :: srcs).all (Reg?.inRange · (s.topReg g))) then .fault 5 g.live 0
  else match g.uniformGuard i with
    | some false => .done s (g.next i)
    | u =>
      if u.isNone || !g.fullConverged then .fault 7 g.live 0
      else if 8 ≤ (s.facet f).rdu.length then .hold
      else
        let (s, token) := s.fresh
        let d := redDest i
        let op : RduOp :=
          { scope := 0, block := g.block, mod := i.mod, type := i.type
            outs := [{ slot := slot, token := token, uniform := i.ud, reg := i.d }]
            values := g.redLanes i.a
            indices := if i.idx then g.redLanes i.b else (List.range 32).map (BitVec.ofNat 32)
            order := token }
        .done ((s.redBad g i).pushRdu f op) { g.next i with writes := { token := token, vregs := d.vregs, uregs := d.uregs } :: g.writes }

/-- Sources of REDG and REDB. -/
def redSources (i : Ins) : List Nat × List Nat := regSets (redSrc i.a :: (if i.idx then [redSrc i.b] else []))

def execRedg (f slot : Nat) (s : State) : Out :=
  .next (s.issue f slot (fun i => i.op == 0xC0 && i.fmt == 0) redSources (fun i => regSets [redDest i]) false (runRedg f slot))

/-- REDB (R247): an arrival at barrier C[3:0] with mask 0, which takes an entry of the RDU's queue (R249); the result is due
when the use releases. -/
def runRedb (f slot : Nat) (s : State) (g : Group) (i : Ins) : Issue :=
  let own := ownRed i && decide (i.c < 16) && !i.uc && (i.idx || i.b == 0)
  let srcs := redSrc i.a :: (if i.idx then [redSrc i.b] else [])
  if !own then .fault 4 g.live 0
  else if !((redDest i :: srcs).all (Reg?.inRange · (s.topReg g))) then .fault 5 g.live 0
  else match g.uniformGuard i with
    | some false => .done s (g.next i)
    | u =>
      if u.isNone || !g.fullConverged then .fault 7 g.live 0
      else if s.joinHeld f slot g || decide (8 ≤ (s.facet f).rdu.length) then .hold
      else match s.block? f g.block with
        | none => .hold
        | some b =>
          let values := g.redLanes i.a
          let indices := if i.idx then g.redLanes i.b else (List.range 32).map (fun l => BitVec.ofNat 32 (32 * g.gidx + l))
          let p := s.fresh
          let use := ((aget? b.barriers (i.c % 16)).map (·.use)).getD p.2
          match arrive b (i.c % 16) 0 g.gidx (some (i.mod, i.type, if i.idx then 1 else 0)) (values, indices) (some (i.ud, i.d)) use with
          | none => .fault 8 g.live 0
          | some b =>
            let op : RduOp := { scope := 3, block := g.block, mod := i.mod, type := i.type, outs := [], order := p.2, use := use }
            .done (((p.1.redBad g i).updBlock f g.block (fun _ => b)).pushRdu f op) { g with wait := .barrier (i.c % 16) }

def execRedb (f slot : Nat) (s : State) : Out :=
  .next ((s.issue f slot (fun i => i.op == 0xC1 && i.fmt == 0) redSources (fun i => regSets [redDest i]) true
    (runRedb f slot)).settleBarriers f slot s)

/-- L of RED.R (R245). -/
def Ins.len (i : Ins) : Nat := field i.w1 33 20

/-- Sources of RED.R. -/
def redRSources (i : Ins) : List Nat × List Nat := ([], (descOp i.od 4).uregs ++ (if i.uc then [i.c] else []))

/-- RED.R (R248): rows of an OPC tile, one per lane, or one for the group with a uniform destination. -/
def runRedR (f slot : Nat) (s : State) (g : Group) (i : Ins) : Issue :=
  let own := ownRed i && i.a == 0 && i.b == 0 && !i.idx && (if i.uc then decide (i.c < 64) else i.c == 0) &&
    field i.w1 19 0 == 0 && decide (1 ≤ i.len) && decide (i.len ≤ 8192)
  if !own then .fault 4 g.live 0
  else if !((redDest i).inRange (s.topReg g)) then .fault 5 g.live 0
  else
    let all := g.lanes i
    let lanes : Word := if i.ud && all != 0 then BitVec.ofNat 32 (2 ^ lowLane all) else all
    if lanes = 0 then .done s (g.next i)
    else
      let q := Desc.of (g.desc i.od)
      if q.malformed (some (if i.type = 5 then 16 else 32)) then .fault 10 lanes 0
      else
        let bad := maskOf (fun l => lanes.getLsbD l && !(q.holds (i.rowoff + l) (i.coloff + i.len - 1)))
        if bad != 0 then .fault 11 bad 0
        else if !q.fits (s.granules f g.block) then .fault 11 lanes 0
        else if 8 ≤ (s.facet f).rdu.length then .hold
        else
          let (s, token) := s.fresh
          let d := redDest i
          let op : RduOp :=
            { scope := 2, block := g.block, mod := i.mod, type := i.type
              outs := [{ slot := slot, token := token, uniform := i.ud, reg := i.d }]
              desc := g.desc i.od, lanes := lanes, row0 := i.rowoff, col0 := i.coloff, len := i.len
              base := if i.uc then tget g.u i.c else 0, order := token }
          .done (s.pushRdu f op) { g.next i with writes := { token := token, vregs := d.vregs, uregs := d.uregs } :: g.writes }

def execRedR (f slot : Nat) (s : State) : Out :=
  .next (s.issue f slot (fun i => i.op == 0xC2 && i.fmt == 4) redRSources (fun i => regSets [redDest i]) false (runRedR f slot))

/-- The row of one lane of RED.R: its entries, poisoned words read as +0, and those words (R248, R251). -/
def RduOp.row (o : RduOp) (m : Ram) (l : Nat) : List (Option (Word × Word)) × List Nat :=
  let q := Desc.of o.desc
  let cells := (List.range o.len).map (fun j =>
    let b := q.bit (o.row0 + l) (o.col0 + j)
    (m.bitsAt b q.bits, b / 128, o.base + BitVec.ofNat 32 (o.col0 + j)))
  (cells.map (fun x => some (redEntry o.type (BitVec.ofNat 32 (x.1.getD 0)), x.2.2)),
   distinct ((cells.filter (fun x => x.1.isNone)).map (fun x => x.2.1)))

/-- RDU_ACCEPT (R249): the oldest queued instruction is reduced and its results written; an arrival of a REDB enters its use.
A RED.R takes its turn at the vector port (R230). -/
def execRduAccept (f : Nat) (s : State) : Out :=
  .next (match (s.facet f).rdu with
    | [] => s
    | o :: rest =>
      if !s.facetRuns f then s
      else
        let indexed := decide (3 ≤ o.mod)
        let vf := ((s.block? f o.block).map (·.vf)).getD 0
        let all : Word := BitVec.allOnes 32
        match o.scope with
        | 0 =>
          let x := reduce o.mod o.type ((o.values.zip o.indices).map (fun e => some (redEntry o.type e.1, e.2)))
          o.outs.foldl (fun s d => s.writeReduced f d indexed all (fun _ => x)) (s.updFacet f (fun y => { y with rdu := rest }))
        | 3 => (s.updFacet f (fun y => { y with rdu := rest })).finishRedb f
        | _ =>
          if (s.facet f).port.any (fun p => decide (p.token ≤ o.order)) then s
          else
            let rows := (bitsOf o.lanes).map (fun l => (l, o.row (s.opc f o.block) l))
            let words := distinct (rows.flatMap (fun r => r.2.2))
            let s := (if words.isEmpty then s else s.drop vf 3 words.length).pathErr (s.opc f o.block) (distinct ((bitsOf o.lanes).flatMap o.rowWords))
            let x (l : Nat) : Word × Word := ((rows.find? (fun r => r.1 == l)).map (fun r => reduce o.mod o.type r.2.1)).getD (0, 0)
            o.outs.foldl (fun s d => s.writeReduced f d indexed o.lanes x) (s.updFacet f (fun y => { y.unage 4 with rdu := rest })))

end Sys2Proof.Machine
end

