-- ==== Sys2Proof/Machine/Prism.lean ====
section
/-! DEFINITION. The Prisms: the MMA forms (R179 to R194), their acceptance and last beat with the rescale loop (R208, R209),
the fused output stage (R203 to R206), MMA.SR and MMA.SW (R211). -/

namespace Sys2Proof.Machine

/-- m, n and K of an MMA form (R181). -/
def mmaDims (op shape : Nat) : Nat × Nat × Nat :=
  match op with
  | 0xA0 =>
    match shape with
    | 1 => (32, 32, 16)
    | 2 => (16, 16, 8)
    | 3 => (8, 16, 16)
    | 4 => (16, 8, 16)
    | 5 => (1, 16, 16)
    | _ => (16, 16, 16)
  | 0xA1 => (16, 16, 32)
  | 0xA2 => (16, 16, 64)
  | _ => (16, 16, 8)

/-- Accumulator registers of a form (R189). -/
def accCount (op shape : Nat) : Nat :=
  if op = 0xA0 then
    match shape with
    | 1 => 32
    | 3 | 4 => 4
    | 5 => 1
    | _ => 8
  else 8

/-- Register and lane of element (i, j) (R189). -/
def accPlace (op shape i j : Nat) : Nat × Nat :=
  if op = 0xA0 ∧ shape = 4 then (i / 4, 8 * (i % 4) + j)
  else if op = 0xA0 ∧ shape = 1 then (8 * (2 * (i / 16) + j / 16) + (i % 16) / 2, 16 * (i % 2) + j % 16)
  else (i / 2, 16 * (i % 2) + j)

/-- The elements of an output tile, row by row. -/
def tileIndex (op shape : Nat) : List (Nat × Nat) :=
  let d := mmaDims op shape
  (List.range d.1).flatMap (fun i => (List.range d.2.1).map (fun j => (i, j)))

namespace MmaOp
def ins (o : MmaOp) : Ins := { w0 := o.w0, w1 := o.w1 }
def op (o : MmaOp) : Nat := o.ins.op
def shape (o : MmaOp) : Nat := o.ins.mod % 8
def za (o : MmaOp) : Bool := o.w0.getLsbD 43
def stat (o : MmaOp) : Nat := field o.w1 9 8
end MmaOp

/-- Word 1 of an MMA form (R184). -/
def Ins.ad (i : Ins) : Nat := field i.w1 63 60
def Ins.bd (i : Ins) : Nat := field i.w1 59 56
def Ins.ak0 (i : Ins) : Nat := field i.w1 55 46
def Ins.bk0 (i : Ins) : Nat := field i.w1 45 36
def Ins.am0 (i : Ins) : Nat := field i.w1 35 27
def Ins.bn0 (i : Ins) : Nat := field i.w1 26 18
def Ins.bt (i : Ins) : Nat := field i.w1 17 14
def Ins.tw (i : Ins) : Nat := field i.w1 13 12
def Ins.ta (i : Ins) : Bool := i.w1.getLsbD 11
def Ins.tb (i : Ins) : Bool := i.w1.getLsbD 10
def Ins.stat (i : Ins) : Nat := field i.w1 9 8
def Ins.shape (i : Ins) : Nat := i.mod % 8

/-- Tree width w (R184). -/
def Ins.width (i : Ins) : Nat := 4 <<< i.tw

/-- Whether the form accumulates in INT32 (R185). -/
def Ins.intForm (i : Ins) : Bool := i.op == 0xA1 && (i.type == 10 || i.type == 11)

/-- Operand types, shape and tree width that the table of R185 lists. -/
def mmaListed (i : Ins) : Bool :=
  let t := i.type
  let b := i.bt
  match i.op with
  | 0xA0 => (t == 4 || t == 5) && b == t && decide (i.shape ≤ 5) && (if i.shape = 2 then decide (i.tw ≤ 1) else decide (i.tw ≤ 2))
  | 0xA1 => (((t == 6 || t == 7) && (b == 6 || b == 7)) || ((t == 10 || t == 11) && (b == 10 || b == 11))) &&
      i.shape == 0 && (i.tw == 1 || i.tw == 2)
  | 0xA2 => t == 8 && b == 8 && i.shape == 0 && i.tw == 2
  | _ => t == 2 && b == 2 && i.shape == 0 && decide (i.tw ≤ 1)

/-- Accumulator registers D to D + n − 1. -/
def Ins.accRegs (i : Ins) : List Nat := (List.range (accCount i.op i.shape)).map (i.d + ·)

/-- E, and S with S + 1 (R183). -/
def Ins.extraRegs (i : Ins) : List Nat := (if i.op = 0xA2 then [i.a] else []) ++ (if i.stat = 0 then [] else [i.b, i.b + 1])

/-- The encoding rules of R183 to R185 and R212. -/
def mmaLegal (i : Ins) : Bool :=
  mmaListed i && decide (i.stat ≤ 2) && i.d % 8 == 0 && (i.op == 0xA2 || i.a == 0) && field i.w1 7 0 == 0 &&
  (if i.stat = 0 then i.b == 0 && i.c == 0 && i.ext == 0
   else i.b % 2 == 0 && decide (i.c < 64) && i.ext == 0x10 && !(i.op == 0xA0 && i.shape == 1) && !i.intForm) &&
  (i.accRegs ++ i.extraRegs).Nodup

/-- The element sizes the operand types need, in bits. -/
def mmaBits (i : Ins) : Nat × Nat := (typeBits i.type, typeBits i.bt)

/-- The farthest elements an MMA reads, as (row, column) of its descriptors (R187). -/
def mmaCorners (i : Ins) : (Nat × Nat) × (Nat × Nat) :=
  let d := mmaDims i.op i.shape
  let am := i.am0 + d.1 - 1
  let ak := 8 * i.ak0 + d.2.2 - 1
  let bn := i.bn0 + d.2.1 - 1
  let bk := 8 * i.bk0 + d.2.2 - 1
  (if i.ta then (ak, am) else (am, ak), if i.tb then (bn, bk) else (bk, bn))

/-- A Prism of a Facet. -/
def Facet.prism (x : Facet) (q : Nat) : Prism := agetD x.prisms q {}

/-- Updates a Prism. -/
def State.updPrism (s : State) (f q : Nat) (h : Prism → Prism) : State :=
  s.updFacet f (fun x => { x with prisms := aput x.prisms q (h (x.prism q)) })

/-- Whether an MMA chains to the one before it (R197). -/
def chainsTo (o : MmaOp) (slot : Nat) (i : Ins) : Bool :=
  o.slot == slot && o.op == i.op && o.shape == i.shape && o.ins.d == i.d && o.stat == 0 && !i.w0.getLsbD 43

/-- The last MMA issued to a Prism that has not retired. -/
def Prism.lastOp (p : Prism) : Option MmaOp := if p.queue.isEmpty then p.flight.getLast? else p.queue.getLast?

/-- Accumulator registers an MMA may take from the latch. -/
def mmaChained (f slot : Nat) (s : State) (_ : Group) (i : Ins) : List Nat :=
  match ((s.facet f).prism (slot / 16)).lastOp with
  | some o => if chainsTo o slot i then i.accRegs else []
  | none => []

/-- Checks an MMA form before its acceptance (R212) and hands it to its Prism, which reads register E of an MMA.Q when it accepts it
(R188): no later instruction writes E before (R29, R44; DEDUCED, log entry 26). -/
def runMma (f slot : Nat) (s : State) (g : Group) (i : Ins) : Issue :=
  if !mmaLegal i then .fault 4 g.live 0
  else if !((i.accRegs ++ i.extraRegs).all (fun r => r == 255 || decide (r ≤ s.topReg g))) then .fault 5 g.live 0
  else match g.uniformGuard i with
    | some false => .done s (g.next i)
    | u =>
      if u.isNone || !g.fullConverged then .fault 7 g.live 0
      else
        let a := Desc.of (g.desc i.ad)
        let b := Desc.of (g.desc i.bd)
        let far := mmaCorners i
        let gr := s.granules f g.block
        if a.malformed (some (mmaBits i).1) || b.malformed (some (mmaBits i).2) then .fault 10 g.live 0
        else if !(a.holds far.1.1 far.1.2 && b.holds far.2.1 far.2.2 && a.fits gr && b.fits gr) then .fault 11 g.live 0
        else if 4 ≤ ((s.facet f).prism (slot / 16)).queue.length then .hold
        else
          let (s, token) := s.fresh
          let o : MmaOp :=
            { slot := slot, block := g.block, w0 := i.w0, w1 := i.w1, adesc := g.desc i.ad, bdesc := g.desc i.bd
              pbase := if i.stat = 0 then 0 else (tget g.u i.c).toNat
              scales := [], token := token }
          let w : PendWrite := { token := token, vregs := i.accRegs ++ (if i.stat = 0 then [] else [i.b, i.b + 1]), uregs := []
                                 reads := if i.op = 0xA2 then [i.a] else [] }
          .done (s.updPrism f (slot / 16) (fun p => { p with queue := p.queue ++ [o] })) { g.next i with writes := w :: g.writes }

/-- Source registers of an MMA form. -/
def mmaSources (i : Ins) : List Nat × List Nat :=
  ((if i.w0.getLsbD 43 then [] else i.accRegs) ++ i.extraRegs,
   (descOp i.ad 4).uregs ++ (descOp i.bd 4).uregs ++ (if i.stat = 0 then [] else [i.c]))

/-- Destination registers of an MMA form. -/
def mmaDests (i : Ins) : List Nat × List Nat := (i.accRegs ++ (if i.stat = 0 then [] else [i.b, i.b + 1]), [])

/-- Issues the MMA form with opcode `op`. -/
def issueMma (s : State) (f slot op : Nat) : State :=
  s.issue f slot (fun i => i.op == op && i.fmt == 4) mmaSources mmaDests false (runMma f slot) (mmaChained f slot)

def execMmaH (f slot : Nat) (s : State) : Out := .next (issueMma s f slot 0xA0)
def execMmaB (f slot : Nat) (s : State) : Out := .next (issueMma s f slot 0xA1)
def execMmaQ (f slot : Nat) (s : State) : Out := .next (issueMma s f slot 0xA2)
def execMmaF (f slot : Nat) (s : State) : Out := .next (issueMma s f slot 0xA3)

/-- Whether an MMA of the group has not retired (R211). -/
def State.mmaOut (s : State) (f slot : Nat) : Bool :=
  let p := (s.facet f).prism (slot / 16)
  (p.queue ++ p.flight).any (fun o => o.slot == slot) || p.out.any (fun o => o.1.slot == slot)

/-- MMA.SR (R211). -/
def execMmaSr (f slot : Nat) (s : State) : Out :=
  .next (s.issue f slot (fun i => i.op == 0xBE && i.fmt == 4) (fun _ => ([], [])) (fun i => ([], [i.d])) false
    (fun s g i =>
      if !(field i.w0 47 40 == 0 && field i.w0 31 8 == 0 && i.ext == 0x80 && i.w1 == 0 && decide (i.d < 64)) then .fault 4 g.live 0
      else if s.mmaOut f slot then .hold
      else if !g.onceTrue i then .done s (g.next i)
      else
        let x : Word := BitVec.ofNat 32 (g.shift + (if g.ovf then 256 else 0))
        .done s { g.next i with u := tset g.u i.d x }))

/-- MMA.SW (R211). -/
def execMmaSw (f slot : Nat) (s : State) : Out :=
  .next (s.issue f slot (fun i => i.op == 0xBF && i.fmt == 4) (fun _ => ([], [])) (fun _ => ([], [])) false
    (fun s g i =>
      let set := i.w1.getLsbD 5
      let v := field i.w1 4 0
      if !(field i.w0 47 0 == 0 && field i.w1 63 9 == 0 && field i.w1 7 6 == 0 && (!set || (v % 8 == 0 && decide (v ≤ 24)))) then
        .fault 4 g.live 0
      else if s.mmaOut f slot then .hold
      else if !g.onceTrue i then .done s (g.next i)
      else .done s { g.next i with shift := if set then v else g.shift, ovf := g.ovf && !i.w1.getLsbD 8 }))

/-- Reads the accumulator tile of an MMA from its group's registers, row by row (R189). -/
def Group.readTile (g : Group) (o : MmaOp) : List Word :=
  (tileIndex o.op o.shape).map (fun e =>
    let p := accPlace o.op o.shape e.1 e.2
    g.readLane? (o.ins.d + p.1) p.2)

/-- Uncorrectable register words of the tile, each once (R213). -/
def Group.tileBad (g : Group) (o : MmaOp) : List Nat :=
  distinct ((tileIndex o.op o.shape).flatMap (fun e =>
    let p := accPlace o.op o.shape e.1 e.2
    g.badWords (o.ins.d + p.1) [p.2]))

/-- Writes the accumulator tile; writes to v255 are discarded. -/
def Group.writeTile (g : Group) (o : MmaOp) (t : List Word) : Group :=
  ((tileIndex o.op o.shape).zip t).foldl (fun g e =>
    let p := accPlace o.op o.shape e.1.1 e.1.2
    if o.ins.d + p.1 = 255 then g else g.setLane (o.ins.d + p.1) p.2 e.2) g

/-- The scales of an MMA.Q: register E as it stands (R188). -/
def Group.scales (g : Group) (o : MmaOp) : List Word :=
  if o.op = 0xA2 then (List.range 32).map (fun l => tget g.v (32 * o.ins.a + l)) else []

/-- The element positions of A[i][k] and B[k][j] (R187). -/
def mmaElem (i : Ins) (r k : Nat) (isA : Bool) : Nat × Nat :=
  if isA then (if i.ta then (8 * i.ak0 + k, i.am0 + r) else (i.am0 + r, 8 * i.ak0 + k))
  else (if i.tb then (i.bn0 + r, 8 * i.bk0 + k) else (8 * i.bk0 + k, i.bn0 + r))

/-- The bit addresses of an operand's elements, row (or column) by k. -/
def MmaOp.places (o : MmaOp) (isA : Bool) : List (List Nat) :=
  let i := o.ins
  let d := mmaDims o.op o.shape
  let q := Desc.of (if isA then o.adesc else o.bdesc)
  (List.range (if isA then d.1 else d.2.1)).map (fun r => (List.range d.2.2).map (fun k =>
    let e := mmaElem i r k isA
    q.bit e.1 e.2))

/-- The OPC words an MMA reads, each once. -/
def MmaOp.words (o : MmaOp) : List Nat := distinct ((o.places true ++ o.places false).flatten.map (· / 128))

/-- The bits of an operand, row (or column) by k; elements of uncorrectable words are 0 (R213). -/
def MmaOp.operand (o : MmaOp) (m : Ram) (isA : Bool) : List (List Nat) :=
  let e := (Desc.of (if isA then o.adesc else o.bdesc)).bits
  (o.places isA).map (·.map (fun b => (m.bitsAt b e).getD 0))

/-- Both operands of a pass as the OPC holds them. -/
def MmaOp.operands (o : MmaOp) (m : Ram) : List (List Nat) × List (List Nat) := (o.operand m true, o.operand m false)

/-- The operands of a pass (R214): as the OPC holds them now; where it held others when the pass began, each beat's slice, one
K-group of R193, is one or the other, by the bits of a free word (log entry 25). -/
def mixBeats (width : Nat) (choice : Word) (old new : List (List Nat)) : List (List Nat) :=
  (old.zip new).map (fun r => (r.1.zip r.2).mapIdx (fun k x => if choice.getLsbD (k / width) then x.1 else x.2))

/-- PRISM_ACCEPT (R188, R190, R195): the next MMA of a Prism; register E of an MMA.Q and its accumulator are read once, unless the
accumulator comes from the latch. A word of the accumulator that is uncorrectable reads as +0 and is counted (R213). -/
def execPrismAccept (f q : Nat) (s : State) : Out :=
  .next (
    let p := (s.facet f).prism q
    match p.queue with
    | [] => s
    | o :: rest =>
      if !s.facetRuns f then s
      else
        let fromLatch := match p.flight.getLast? with | some l => chainsTo l o.slot o.ins | none => false
        let acc : Option (List Word) :=
          if o.za then some ((tileIndex o.op o.shape).map (fun _ => 0))
          else if fromLatch then none
          else some (((s.group? f o.slot).map (fun g => g.readTile o)).getD [])
        let o : MmaOp := { o with acc := acc, scales := ((s.group? f o.slot).map (fun g => g.scales o)).getD []
                                  early := o.operands (s.opc f o.block) }
        let s := s.updPrism f q (fun p => { p with queue := rest, flight := p.flight ++ [o] })
        match s.group? f o.slot with
        | none => s
        | some g =>
          let bad := if o.za || fromLatch then [] else g.tileBad o
          let s := s.setGroup f o.slot { g with writes := g.writes.map (fun (w : PendWrite) => if w.token = o.token then { w with reads := [] } else w) }
          if bad.isEmpty then s else (s.drop g.vf 2 bad.length).count 0 Reg.pathErr 15 0 bad.length)

/-- hi and lo of the split (R194). -/
def splitF32 (x : Nat) : Val × Val :=
  let v := f32.decode x
  match v with
  | .fin _ _ _ =>
    let h := bf16.decode (bf16.round 1 false v)
    (h, bf16.decode (bf16.round 0 false (sumVals 0 [v, h.neg])))
  | v => (v, .fin false 0 0)

/-- Whether a value is finite. -/
def Val.finite : Val → Bool
  | .fin _ _ _ => true
  | _ => false

/-- The products of one k before the shift (R193, R194), for the floating forms. -/
def MmaOp.products (o : MmaOp) (i j k a b : Nat) : List Val :=
  match o.op with
  | 0xA2 =>
    let sc (lane : Nat) : Val := e8m0Val (field (o.scales.getD lane 0) (8 * (k / 32) + 7) (8 * (k / 32)))
    [((e2m1.decode a).mul (sc i)).mul ((e2m1.decode b).mul (sc (16 + j)))]
  | 0xA3 =>
    let x := splitF32 a
    let y := splitF32 b
    if x.1.finite && y.1.finite then [x.1.mul y.1, x.1.mul y.2, x.2.mul y.1] else [x.1.mul y.1]
  | _ => [(typeVal o.ins.type a).mul (typeVal o.ins.bt b)]

/-- A value scaled by 2^(−n), exactly. -/
def Val.shifted (v : Val) (n : Nat) : Val :=
  match v with
  | .fin s m e => .fin s m (e - n)
  | v => v

/-- One element of a floating form through its K-groups (R172, R208): the result, and whether it overflowed. -/
def floatElement (groups : List (List Val)) (acc : Nat) (last : Bool) : Nat × Bool :=
  let r := groups.foldl (fun (p : Nat × Bool × Bool) l =>
    if p.2.2 then p
    else
      let e := sumVals 0 (f32.decode p.1 :: l)
      let v := f32.round 0 false e
      match e, f32.decode v with
      | .fin neg _ _, .inf _ => if last then (f32.maxBits neg, true, true) else (v, true, false)
      | _, _ => (v, p.2.1, false)) (acc, false, false)
  (r.1, r.2.1)

/-- One element of an INT32 form (R193, R208). -/
def intElement (groups : List Int) (acc : Int) (last : Bool) : Int × Bool :=
  let r := groups.foldl (fun (p : Int × Bool × Bool) x =>
    if p.2.2 then p
    else
      let e := p.1 + x
      if clampInt 32 true e = e then (e, p.2.1, false)
      else if last then (clampInt 32 true e, true, true) else (e, true, false)) (acc, false, false)
  (r.1, r.2.1)

/-- One pass of an MMA under a shift (R208): the tile and whether any element overflowed. -/
def MmaOp.pass (o : MmaOp) (a b : List (List Nat)) (c : List Word) (shift : Nat) : List Word × Bool :=
  let d := mmaDims o.op o.shape
  let w := o.ins.width
  let last := shift == 24
  let cell (e : (Nat × Nat) × Word) : Word × Bool :=
    let ra := a.getD e.1.1 []
    let rb := b.getD e.1.2 []
    let ks := (List.range (d.2.2 / w)).map (fun n => (List.range w).map (fun t => w * n + t))
    if o.ins.intForm then
      let v (t x : Nat) : Int := intVal 8 (t == 10) x
      let groups := ks.map (fun l => (l.map (fun k => (v o.ins.type (ra.getD k 0) * v o.ins.bt (rb.getD k 0)) / 2 ^ shift)).sum)
      let r := intElement groups e.2.toInt last
      (wrap32 r.1, r.2)
    else
      let groups := ks.map (fun l => l.flatMap (fun k =>
        (o.products e.1.1 e.1.2 k (ra.getD k 0) (rb.getD k 0)).map (fun v => v.shifted shift)))
      let r := floatElement groups e.2.toNat last
      (BitVec.ofNat 32 r.1, r.2)
  let out := ((tileIndex o.op o.shape).zip c).map cell
  (out.map (·.1), out.any (·.2))

/-- The accumulator of a retry (R208). -/
def MmaOp.rescaled (o : MmaOp) (c : List Word) : List Word :=
  c.map (fun x =>
    if o.ins.intForm then wrap32 (x.toInt / 256) else BitVec.ofNat 32 (f32.round 0 false ((f32.decode x.toNat).shifted 8)))

/-- PRISM_LAST_BEAT (R208, R209): the last beat of the Prism's oldest accepted MMA leaves ACC. An overflow below the last
shift starts the retry; otherwise the tile is written, or goes to the output stage with STAT. A chained MMA takes its accumulator
from the latch, elements that lie in v255 included (R197: DESIGN CHOICE, log entry 132). -/
def execPrismLastBeat (f q : Nat) (s : State) : Out :=
  .next (
    let p := (s.facet f).prism q
    match p.flight with
    | [] => s
    | o :: rest =>
      match s.group? f o.slot with
      | none => s
      | some g =>
        if !s.facetRuns f then s
        else
          let m := s.opc f o.block
          let words := o.words.filter m.bad
          let s := (if words.isEmpty then s else s.drop g.vf 2 words.length).pathErr m o.words
          let now := o.operands m
          let (s, choice) := if o.early = now then (s, 0) else let (s, c) := s.free; (s, Config.freeWord c)
          let a := mixBeats o.ins.width choice o.early.1 now.1
          let b := mixBeats o.ins.width choice o.early.2 now.2
          let c := match o.acc, p.latch with
            | some c, _ => c
            | none, some l => l.tile
            | none, none => g.readTile o
          let r := o.pass a b c g.shift
          if r.2 && g.shift != 24 then
            let s := s.count g.vf (Reg.rescaleCount (s.logicalOf g.vf f)) 31 0 1
            let o : MmaOp := { o with acc := some (o.rescaled c), early := now, retries := o.retries + 1 }
            (s.setGroup f o.slot { g with shift := g.shift + 8 }).updPrism f q (fun p => { p with flight := o :: rest })
          else
            let s := if r.2 then s.count g.vf Reg.prismCounts 31 0 1 else s
            let g := { g with ovf := g.ovf || r.2 }
            if o.stat = 0 then
              let l : Latch := { slot := o.slot, op := o.op, shape := o.shape, dst := o.ins.d, tile := r.1 }
              let g := { (g.writeTile o r.1).progressed with writes := g.writes.filter (fun w => w.token != o.token) }
              ((s.updFacet f (·.unage q)).setGroup f o.slot g).updPrism f q (fun p => { p with flight := rest, latch := some l })
            else
              ((s.updFacet f (·.unage q)).setGroup f o.slot g).updPrism f q (fun p => { p with flight := rest, out := p.out ++ [(o, r.1)], latch := none }))

/-- One row of the output stage (R205): maximum, sum, position, correction, and the exponentiated elements. A NaN that m_old holds on
entry is greater than nothing and nothing is greater: it stays, with its position (DESIGN CHOICE, log entry 133). -/
def statRow (x : List Word) (pbase : Nat) (mOld lOld : Word) (pOld : Nat) : Word × Word × Nat × Word × List Word :=
  let t := extreme true x
  let pos (j : Nat) : Nat := (pbase + j) % 2 ^ 24
  let v (w : Word) : Val := f32.decode w.toNat
  let better := (v mOld).below (v t.1) || (t.1 == mOld && v t.1 != .nan && decide (pos t.2 < pOld))
  let m := if better then t.1 else mOld
  let p := if better then pos t.2 else pOld
  let sub (y : Word) : Word := BitVec.ofNat 32 (f32.add 0 y.toNat (m.toNat ^^^ f32.signBit))
  let ex (y : Word) : Word := BitVec.ofNat 32 (expValue y.toNat)
  let dead := m == 0xFF800000#32
  let c : Word := if dead then 0x3F800000 else ex (sub mOld)
  let e := x.map (fun y => if dead then 0 else ex (sub y))
  (m, addF32 (mulF32 lOld c) (treeSum e), p, c, e)

/-- OUTPUT_STAGE_ACCEPT (R204 to R206): the output stage takes the oldest finished tile, and the instruction retires with the
write of the pair S, S + 1. -/
def execOutputStageAccept (f q : Nat) (s : State) : Out :=
  .next (
    let p := (s.facet f).prism q
    match p.out with
    | [] => s
    | (o, tile) :: rest =>
      match s.group? f o.slot with
      | none => s
      | some g =>
        if !s.facetRuns f then s
        else
          let d := mmaDims o.op o.shape
          let sreg := o.ins.b
          let read (k l : Nat) : Word := if sreg + k = 255 then 0 else tget g.v (32 * (sreg + k) + l)
          let rows := (List.range d.1).map (fun i =>
            statRow ((List.range d.2.1).map (fun j => tile.getD (d.2.1 * i + j) 0)) o.pbase (read 0 i) (read 0 (16 + i))
              ((read 1 i).toNat % 2 ^ 24))
          let g := g.writeTile o (if o.stat = 2 then rows.flatMap (fun r => r.2.2.2.2) else tile)
          let put (g : Group) (k l : Nat) (x : Word) : Group := if sreg + k = 255 then g else g.setLane (sreg + k) l x
          let g := rows.zipIdx.foldl (fun g r =>
            let i := r.2
            put (put (put (put g 0 i r.1.1) 0 (16 + i) r.1.2.1) 1 i (BitVec.ofNat 32 r.1.2.2.1)) 1 (16 + i) r.1.2.2.2.1) g
          let g := { g.progressed with writes := g.writes.filter (fun w => w.token != o.token) }
          (s.setGroup f o.slot g).updPrism f q (fun p => { p with out := rest }))

/-- The OPC words a transfer has still to read or write. -/
def Transfer.words (t : Transfer) : List Nat :=
  let d := MemDesc.of t.mem
  let q := Desc.of t.opc
  if t.store then
    ((tileElems d.vrows d.vcols).filter (fun e => t.lines.contains (d.bit e.1 e.2 / 8 / 2048))).map (fun e => q.bit e.1 e.2 / 128)
  else (t.granules.filter (fun n => !t.written.contains n)).flatMap (fun n => (List.range 8).map (8 * n + ·))

/-- The OPC words that a client requests (R217): a Prism those of the MMA it runs, the vector port those of its oldest
instruction and of the RED.R whose turn it is, the tile mover those of its transfers. -/
def Facet.requests (x : Facet) (client : Nat) (write : Bool) : List Nat :=
  if client < 4 then (if write then [] else (x.prism client).flight.flatMap MmaOp.words)
  else if client = 4 then
    (match x.port.head? with
     | some o => if o.ralelle then (if write then o.cols else o.rows) else if o.store == write then o.words else []
     | none => []) ++
    (match x.rdu.head? with
     | some o => if o.scope = 2 ∧ write = false then (bitsOf o.lanes).flatMap o.rowWords else []
     | none => [])
  else (x.transfers.filter (fun t => t.store == !write)).flatMap Transfer.words

/-- Whether a client requests a word of a bank: that of OPC offset x is floor(x / 32) mod 32 (R217). -/
def Facet.asks (x : Facet) (client bank : Nat) (write : Bool) : Bool := (x.requests client write).any (fun w => w / 2 % 32 == bank)

/-- OPC_REQUEST_AGED (R221): a bank-word request has lost arbitration in 8 consecutive cycles. Clients: 0 to 3 the Prisms,
4 the vector port, 5 the tile mover; a bank has at most six readers and two writers. -/
def execOpcRequestAged (f client bank : Nat) (write : Bool) (s : State) : Out :=
  .next (if bank < 32 ∧ client ≤ 5 ∧ (write → 4 ≤ client) ∧ s.facetRuns f ∧ (s.facet f).asks client bank write ∧
      !(s.facet f).aged.contains (client, bank, write) then
    s.updFacet f (fun x => { x with aged := x.aged ++ [(client, bank, write)] }) else s)

end Sys2Proof.Machine
end

