-- ==== Sys2Proof/Machine/Firmware.lean ====
section
/-! DEFINITION. Config flash (R486 to R491), staging and handover (R501 to R504), recovery mode (R494), resets by command
(R483, R525), measurements (R497). -/

namespace Sys2Proof.Machine

/-- The regions of the config flash (R486). -/
inductive FlashRegion where
  | header0 | header1 | helper | record | site | slotA | slotB
  deriving DecidableEq, Repr

/-- Offset and length of a region (R486). -/
def flashPlace : FlashRegion → Nat × Nat
  | .header0 => (0x0000000, 0x1000)
  | .header1 => (0x0001000, 0x1000)
  | .helper => (0x0010000, 0x10000)
  | .record => (0x0020000, 0x100000)
  | .site => (0x0120000, 0x10000)
  | .slotA => (0x0400000, 62914560)
  | .slotB => (0x4000000, 62914560)

/-- The region of slot A (0) or B (1). -/
def slotRegion (n : Nat) : FlashRegion := if n = 0 then .slotA else .slotB

/-- The 16 bytes of a header copy (R487). -/
def Header.bytes (h : Header) : List Byte :=
  leBytes 4 h.magic ++ leBytes 4 h.hseq ++ leBytes 1 h.preferred ++ leBytes 3 0 ++ leBytes 4 h.check

/-- What a region holds (R486): as programmed, or what the factory put there (log entry 4). -/
def Flash.region (x : Flash) (r : FlashRegion) : List Byte :=
  (match r with
    | .header0 => (x.headers[0]?.map Header.bytes).getD []
    | .header1 => (x.headers[1]?.map Header.bytes).getD []
    | .helper => x.helper.getD Config.factoryHelper
    | .record => x.record.getD Config.factoryRecord
    | .site => x.site.getD []
    | .slotA => x.slotBytes 0
    | .slotB => x.slotBytes 1).take (flashPlace r).2

/-- An anti-rollback counter (R491). -/
def Boot.counter (b : Boot) (k : Nat) : Nat := agetD b.rollback k 0

/-- SVN `i` of a slot image: MP, PP and SP image, table set (R488). -/
def slotSvn (l : List Byte) (i : Nat) : Nat := byteField l (8 + 4 * i) 4

/-- Image `i` of a slot image: MP, PP, SP, table set, lowering library (R488). -/
def slotImage (l : List Byte) (i : Nat) : List Byte := (l.drop (byteField l (24 + 8 * i) 4)).take (byteField l (28 + 8 * i) 4)

/-- The SVN of the module record or the site block (R488). -/
def regionSvn (l : List Byte) : Nat := byteField l 8 4

/-- The rollback check of a slot image (R491). -/
def Boot.rollsBack (b : Boot) (l : List Byte) : Bool := (List.range 4).any (fun i => decide (slotSvn l i < b.counter i))

/-- Whether a signer's keys are accepted for a region of a ROLE (R490): they are the root's, or carry a certificate of root keys that
signs them with that ROLE by both algorithms. A certificate of another ROLE makes the region invalid. -/
def keysAccepted (b : Config.SigBlock) (role : Nat) : Bool :=
  let keys := b.rsaKey ++ b.mldsaKey
  let m := Config.sha512 (keys ++ leBytes 4 role)
  match b.cert with
  | none => Config.sha512 keys == Config.rootHash
  | some c =>
    c.role == role && (Config.sha512 keys == Config.rootHash ||
      (Config.sha512 (c.rsaKey ++ c.mldsaKey) == Config.rootHash && Config.rsaVerifies c.rsaKey m c.rsaSig &&
        Config.mldsaVerifies c.mldsaKey m c.mldsaSig))

/-- Whether a region is valid (R489, R490): both signatures of the block after it verify over the digest of its signed bytes, under
accepted keys. -/
def regionValid (signed block : List Byte) (role : Nat) : Bool :=
  match Config.parseBlock block with
  | none => false
  | some b =>
    let m := Config.sha512 signed
    keysAccepted b role && Config.rsaVerifies b.rsaKey m b.rsaSig && Config.mldsaVerifies b.mldsaKey m b.mldsaSig

/-- The check of a module record (ROLE 2) or a site block (ROLE 3), as the FW_RESULT code; 0 passes (R488 to R491). -/
def Boot.checkRegion (b : Boot) (role : Nat) (l : List Byte) : Nat :=
  let n := Config.contentLen role l
  if !regionValid (l.take n) (l.drop n) role then 0x10 else if regionSvn l < b.counter (role + 2) then 0x11 else 0

/-- The check of the module record at a start; the factory's carries valid signatures (log entry 4). -/
def Boot.checkRecord (b : Boot) : Nat :=
  match b.images.record with
  | some l => b.checkRegion 2 l
  | none => if regionSvn Config.factoryRecord < b.counter 4 then 0x11 else 0

/-- The checks of R488 to R491 on a slot image, as FW_RESULT codes; 0 passes. An image without the slot MAGIC has no signed
region and so no valid signature. -/
def Boot.checkImage (b : Boot) (l : List Byte) : Nat :=
  let total := byteField l 64 4
  if byteField l 0 4 != 0x544F4C53 || decide (l.length < total) then 0x10
  else if byteField l 4 2 != 0x00A1 then 0x12
  else if !regionValid (l.take total) (l.drop (4096 * ceilDiv total 4096)) 1 then 0x10
  else if b.rollsBack l then 0x11 else 0

/-- The check of a slot (R491, R493); the factory image carries valid signatures (log entry 4). -/
def Boot.checkSlot (b : Boot) (x : Flash) (n : Nat) : Nat :=
  match aget? x.slots n with
  | some l => b.checkImage l
  | none => if b.rollsBack (Config.factorySlot n) then 0x11 else 0

/-- CHECK of a header copy: the CRC-32 over its bytes 0 to 11 (R487). -/
def headerCheck (magic hseq preferred : Nat) : Nat :=
  crc32 (leBytes 4 magic ++ leBytes 4 hseq ++ leBytes 1 preferred ++ leBytes 3 0)

/-- A valid copy of a given HSEQ. -/
def Header.make (hseq slot : Nat) : Header :=
  let n := hseq % 2 ^ 32
  ⟨0x48464843, n, slot, headerCheck 0x48464843 n slot⟩

/-- HSEQ plus 1 of a valid copy, 0 of another (R487). -/
def Header.rank (h : Header) : Nat :=
  if h.magic = 0x48464843 ∧ h.check = headerCheck h.magic h.hseq h.preferred then h.hseq + 1 else 0

/-- The slot the governing header copy prefers: the valid copy with the higher HSEQ; slot A with no valid copy (R487). -/
def Flash.preferred (x : Flash) : Nat :=
  match x.headers with
  | [x, y] => if x.rank = 0 ∧ y.rank = 0 then 0 else if x.rank < y.rank then y.preferred else x.preferred
  | _ => 0

/-- A header write: over the copy with the lower HSEQ, with the higher plus 1, in 32 bits (R487). -/
def Flash.writeHeader (f : Flash) (slot : Nat) : Flash :=
  match f.headers with
  | [x, y] =>
    let h := Header.make (max x.rank y.rank) slot
    { f with headers := if x.rank < y.rank then [h, y] else [x, h] }
  | _ => f

/-- RESULT of FW_RESULT. -/
def State.fwResult (s : State) (code : Nat) : State := s.setRegF 0 Reg.fwResult 7 0 code

/-- Whether a command runs: BUSY of FW_RESULT (R506). -/
def Boot.busy (b : Boot) : Bool := b.staging.isSome || b.phaseNo != 0 || !b.svnWanted.isEmpty

/-- What the boot cache's measurements cover (R493, R499): both slots, module record, site block and helper data, then the MP, PP and
SP image of slot A and of slot B. -/
def Flash.measure (x : Flash) : List (BitVec 512) :=
  ([FlashRegion.slotA, .slotB, .record, .site, .helper].map (fun r => Config.sha512 (x.region r))) ++
  (List.range 6).map (fun k => Config.sha512 (slotImage (x.slotBytes (k / 3)) (k % 3)))

/-- The boot cache holds a slot image anew, and is measured (R501). -/
def Boot.cacheSlot (b : Boot) (n : Nat) (image : List Byte) : Boot :=
  let x := { b.images with slots := aput b.images.slots n image }
  { b with cache := some x, measured := x.measure }

/-- Whether a byte range lies in device memory outside every tenant region and the reserved region (R501). -/
def State.stageRange (s : State) (base len : Nat) : Bool :=
  decide (len ≤ (flashPlace .slotA).2) && decide (base + len ≤ reservedBase) &&
  !s.tenants.any (fun j => (s.regions j).any (fun r => decide (base < r.dbase + r.len) && decide (r.dbase < base + len)))

/-- FW_CMD STAGE (R501). -/
def startStage (s : State) (slot : Nat) : State :=
  let base := (s.reg 0 Reg.fwStageAddr).toNat * 65536
  let len := (s.reg 0 Reg.fwStageLen).toNat
  if s.boot.staging.isSome || s.boot.phaseNo != 0 then s
  else if slot = s.boot.active then s.fwResult 0x13
  else if !s.stageRange base len then s.fwResult 0x1A
  else { s.fwResult 0 with boot := { s.boot with staging := some (slot, base, len) } }

/-- FW_STAGE_COMPLETE (R501): MP copies, checks and programs the image; a failure leaves the previous stage state. A handover that
began meanwhile goes first, and the slot it put in control is not programmed (log entry 87). -/
def execFwStageComplete (s : State) : Out :=
  match s.boot.staging with
  | none => .next s
  | some (slot, base, len) =>
    if !s.mpRuns || s.boot.phaseNo != 0 then .next s
    else if slot = s.boot.active then .next { s.fwResult 0x13 with boot := { s.boot with staging := none } }
    else
      match s.agentGate base len false with
      | some s => .next s
      | none =>
      let (s, image, bad) := s.agentRead base len
      let s := { s with boot := { s.boot with staging := none } }
      let code := if bad.isEmpty then s.boot.checkImage image else 0x10
      if code != 0 then .next (s.fwResult code)
      else
        let b := s.boot.cacheSlot slot image
        .next { s.fwResult 0x01 with
          boot := { b with flash := { b.flash with slots := aput b.flash.slots slot image }, staged := some slot } }

/-- FW_CMD ACTIVATE (R502). -/
def activate (s : State) : State :=
  if s.power.emergency then s.fwResult 0x14
  else if s.boot.staged.isNone then s.fwResult 0x15
  else if s.boot.phaseNo != 0 then s.fwResult 0x16
  else if !(s.boot.mpUp && s.boot.ppUp && s.boot.spUp) then s.fwResult 0x17
  else { s.fwResult 0 with boot := { s.boot with phaseNo := 1 } }.trace 0x0030 1 255 [0]

/-- The SVNs of the regions in force, by counter (R491). -/
def Boot.svns (b : Boot) : List (Nat × Nat) :=
  (List.range 3).map (fun i => (i, slotSvn (b.images.slotBytes b.active) i)) ++
  [(3, b.tableSvn), (4, b.recordSvn)] ++ (if b.site.isSome then [(5, b.siteSvn)] else [])

/-- SP raises counters, in both copies; a request to lower one is discarded (R448, R491). -/
def State.raiseCounters (s : State) (l : List (Nat × Nat)) : State :=
  l.foldl (fun s e =>
    if e.2 ≤ s.boot.counter e.1 then s
    else
      let l := aput s.boot.rollback e.1 e.2
      ({ s with boot := { s.boot with rollback := l } }.saveArea (fun a => { a with rollback := l })).trace 0x0060 3 255 [e.1, e.2]) s

/-- FW_CMD COMMIT_SVN (R491); it waits while SP is absent (R448). -/
def commitSvn (s : State) : State :=
  if s.boot.busy then s
  else if s.spRuns then (s.raiseCounters s.boot.svns).fwResult 0x03
  else { s.fwResult 0 with boot := { s.boot with svnWanted := s.boot.svns } }

/-- FW_CMD RECOVERY_BEGIN (R494). -/
def recoveryBegin (s : State) (slot : Nat) : State :=
  { s with boot := { s.boot with recoverySlot := some slot, recoveryData := []
                                 flash := { s.boot.flash with slots := aput s.boot.flash.slots slot [] } } }

/-- FW_CMD RECOVERY_END (R494). -/
def recoveryEnd (s : State) : State :=
  match s.boot.recoverySlot with
  | none => s
  | some n =>
    let code := s.boot.checkSlot s.boot.flash n
    { s.fwResult (if code = 0 then 0x04 else code) with boot := { s.boot with recoverySlot := none } }

/-- A write of FW_CMD (R494, R501, R502, R491). -/
def writeFwCmd (s : State) (v : Word) : State :=
  let slot := field v 8 8
  if s.boot.phase == .recovery then
    match field v 3 0 with
    | 4 => recoveryBegin s slot
    | 5 => recoveryEnd s
    | _ => s
  else
    match field v 3 0 with
    | 1 => startStage s slot
    | 2 => activate s
    | 3 => commitSvn s
    | _ => s

/-- A write of FW_DATA (R494): 32 bits more of the named slot, 60 MiB at most. -/
def writeFwData (s : State) (v : Word) : State :=
  match s.boot.recoverySlot with
  | none => s
  | some n =>
    if s.boot.phase != .recovery || (flashPlace (slotRegion n)).2 ≤ s.boot.recoveryData.length then s
    else
      let data := s.boot.recoveryData ++ leBytes 4 v.toNat
      { s with boot := { s.boot with recoveryData := data, flash := { s.boot.flash with slots := aput s.boot.flash.slots n data } } }

/-- A write of RESET_CTRL (R483, R525). A safe hold with cause module fault or clock ends only at MOD_RESET_N (R479): a cold reset
requested in one has no effect. -/
def writeResetCtrl (s : State) (v : Word) : State :=
  if field v 31 16 != 0xC0DE then s
  else
    let unit := field v 5 0
    match field v 11 8 with
    | 1 => s.warmReset 5
    | 2 => if s.power.holds.contains 3 || s.power.holds.contains 4 then s else s.coldReset 5
    | 3 => if unit < 52 then s.resetFacet (52 * field v 7 6 + unit) else s
    | 4 => if unit < 36 then s.resetPort unit else s
    | _ => s

/-- What SP does when it is there again (R45, R314, R448, R449). -/
def State.spReturns (s : State) : State :=
  let s := (s.spTakesRemaps.saveArea (fun a => { a with retired := s.retired, bad := s.store.bad })).storeResume
  if s.boot.svnWanted.isEmpty then s
  else
    let s := s.raiseCounters s.boot.svnWanted
    { s.fwResult 0x03 with boot := { s.boot with svnWanted := [] } }

/-- Measurement block `k` of R497; none where there is no such block. The flag marks a raw block. -/
def Boot.measurement (b : Boot) (k : Nat) : Option (Bool × List Byte) :=
  let hash (l : List Byte) : List Byte := ((List.range 64).map (fun i => (Config.sha512 l).extractLsb' (8 * (63 - i)) 8))
  let now := b.images.slotBytes b.active
  match k with
  | 1 => some (false, hash Config.bootRom)
  | 2 => some (false, hash (slotImage now 0))
  | 3 => some (false, hash (slotImage now 1))
  | 4 => some (false, hash (slotImage now 2))
  | 5 => some (false, hash b.tables)
  | 6 => some (false, hash b.record)
  | 7 => some (false, match b.site with | some l => hash l | none => List.replicate 64 0)
  | 8 => some (true, (List.range 16).flatMap (fun i => leBytes 4 (b.counter i)))
  | 9 => some (true, leBytes 4 (byteField now 68 4))
  | 10 => some (true, leBytes 4 b.activations)
  | _ => none

end Sys2Proof.Machine
end

