-- ==== Sys2Proof/Machine/Debug.lean ====
section
/-! DEFINITION. Debugging one group (R83 to R91). -/

namespace Sys2Proof.Machine

/-- The tenant that DBG_TARGET names. -/
def State.dbgVf (s : State) : Nat := s.regF 0 Reg.dbgTarget 28 24

/-- The group that DBG_TARGET names, with its physical Facet and slot; none where the slot is empty. -/
def State.dbgGroup (s : State) : Option (Nat × Nat × Group) :=
  let j := s.dbgVf
  let slot := s.regF 0 Reg.dbgTarget 5 0
  match (s.logical j)[s.regF 0 Reg.dbgTarget 15 8]? with
  | none => none
  | some e =>
    match s.group? e.2 slot with
    | some g => if j != 0 && g.vf == j then some (e.2, slot, g) else none
    | none => none

/-- A group leaves its halt: the handler of a fault it halted at is entered first (R85). -/
def State.letGo (s : State) (f slot : Nat) (g : Group) (h : Halt) : State :=
  match g.faulted with
  | some d => s.deliverHalted f slot { g with halt := h, faulted := none } d
  | none => s.setGroup f slot { g with halt := h }

/-- Whether a group waits at a barrier. -/
def Group.atBarrier (g : Group) : Bool := match g.wait with | .barrier _ => true | _ => false

/-- A write of DBG_CMD (R84, R85): ignored unless the target's tenant has debug on. A resume while a halt is still pending or a step
has not ended cancels it, and the group runs (DESIGN CHOICE, log entry 135). -/
def writeDbgCmd (s : State) (v : Word) : State :=
  match s.dbgGroup with
  | none => s
  | some (f, slot, g) =>
    if !s.debugOn s.dbgVf then s
    else match field v 1 0 with
      | 1 => if g.halt = .running then s.setGroup f slot { g with halt := .pending } else s
      | 2 => if g.halt = .running then s else s.letGo f slot g .running
      | 3 =>
        if g.halt != .halted then s
        else if g.atBarrier then s.setGroup f slot { g with halt := .stepped }
        else s.letGo f slot g .stepping
      | _ => s

/-- Whether everything a group has issued has completed (R84): its register writes, line requests, transfers, and what it has
queued at the Prisms, the OPC port and the RDU. -/
def State.groupQuiet (s : State) (f slot : Nat) (g : Group) : Bool :=
  let x := s.facet f
  g.writes.isEmpty && g.wait != .lock && s.slotIdle f slot g &&
  !x.transfers.any (fun (t : Transfer) => t.slot == slot && t.launch == g.launch)

/-- HALT_TAKES_EFFECT (R84, R85, R79): at an instruction boundary; after a step, not while its JOIN.WAIT waits. -/
def execHaltTakesEffect (f slot : Nat) (s : State) : Out :=
  match s.group? f slot with
  | none => .next s
  | some g =>
    let due := g.halt == .pending || (g.halt == .stepped && !g.atBarrier)
    .next (if due && s.groupQuiet f slot g then s.setGroup f slot { g with halt := .halted } else s)

/-- A write of DBG_ENABLE (R83, R88). -/
def writeDbgEnable (s : State) (v : Word) : State :=
  let old := s.reg 0 Reg.dbgEnable
  let s := s.setReg 0 Reg.dbgEnable (v &&& 0x0001FFFE)
  let off (j : Nat) : Bool := old.getLsbD j && !v.getLsbD j
  s.facets.foldl (fun s e => e.2.groups.foldl (fun s x =>
    match s.group? e.1 x.1 with
    | some g => if off g.vf && g.halt != .running then s.letGo e.1 x.1 g .running else s
    | none => s) s) s

/-- Vector registers a group has (R51, R52). -/
def State.vregsOf (s : State) (g : Group) : Nat := match s.launch? g.launch with | some l => min 255 (regsPerThread l.h) | none => 0

/-- The reconvergence-stack entries, bottom first (R91). -/
def Group.entries (g : Group) : List StackEntry := (g.stack.filter (fun e => !e.join)).reverse

/-- The word at SPACE and INDEX of a halted group (R91); 0 outside its allocation, none for a poisoned OPC word. -/
def State.dbgWord (s : State) (f : Nat) (g : Group) (space idx : Nat) : Option Word :=
  match space with
  | 0 => some (if idx / 32 < s.vregsOf g then tget g.v idx else 0)
  | 1 => some (if idx < 64 then tget g.u idx else if idx < 72 then tget g.p (idx - 64) else 0)
  | 2 =>
    if idx = 64 then some g.live
    else match g.entries[idx / 2]? with
      | none => some 0
      | some e => some (if idx % 2 = 0 then BitVec.ofNat 32 e.rcv else if e.parked then e.mask ||| 0x80000000 else e.mask)
  | _ =>
    match s.block? f g.block with
    | none => some 0
    | some b =>
      if 1024 * b.granules ≤ idx then some 0
      else if b.opc.badIn (4 * idx) 4 then none
      else some (BitVec.ofNat 32 (leNat (b.opc.fetch (4 * idx) 4)))

/-- Changes the `k`-th of the stack entries, counted in list order among those that are no join. -/
def updEntry (l : List StackEntry) (k : Nat) (h : StackEntry → StackEntry) : List StackEntry :=
  match l with
  | [] => []
  | e :: t => if e.join then e :: updEntry t k h else if k = 0 then h e :: t else e :: updEntry t (k - 1) h

/-- Stores a word at SPACE and INDEX of a halted group (R91); discarded outside its allocation. Bit 31 of a mask word is lane
31 of the mask; the parked flag, which shares that bit on a read, is not written (DESIGN CHOICE, log entry 61). -/
def State.setDbgWord (s : State) (f slot : Nat) (g : Group) (space idx : Nat) (v : Word) : State :=
  match space with
  | 0 => if idx / 32 < s.vregsOf g then s.setGroup f slot (g.setLane (idx / 32) (idx % 32) v) else s
  | 1 =>
    if idx < 64 then s.setGroup f slot { g with u := tset g.u idx v }
    else if idx < 72 then s.setGroup f slot { g with p := tset g.p (idx - 64) v } else s
  | 2 =>
    if idx = 64 then s.setGroup f slot { g with active := v &&& ~~~ g.exited }
    else
      let n := g.entries.length
      if n ≤ idx / 2 then s
      else s.setGroup f slot { g with stack := updEntry g.stack (n - 1 - idx / 2) (fun (e : StackEntry) =>
        if idx % 2 = 0 then { e with rcv := v.toNat % 2 ^ 18 } else { e with mask := v &&& ~~~ g.exited }) }
  | _ =>
    match s.block? f g.block with
    | none => s
    | some b =>
      if 1024 * b.granules ≤ idx then s
      else s.updBlock f g.block (fun (x : Block) => { x with opc := x.opc.write (4 * idx) (leBytes 4 v.toNat) })

/-- INDEX advances after a DBG_DATA access. -/
def State.dbgAdvance (s : State) : State :=
  s.setRegF 0 Reg.dbgAddr 29 0 ((s.regF 0 Reg.dbgAddr 29 0 + 1) % 2 ^ 30)

/-- A read of DBG_DATA (R86, R91): a free value where the target is not halted (log entry 14). -/
def readDbgData (s : State) : State × Word :=
  let word := match s.dbgGroup with
    | some (f, _, g) => if g.halt = Halt.halted then s.dbgWord f g (s.regF 0 Reg.dbgAddr 31 30) (s.regF 0 Reg.dbgAddr 29 0) else none
    | none => none
  match word with
  | some v => (s.dbgAdvance, v)
  | none =>
    let (s, c) := s.free
    (s.dbgAdvance, Config.freeWord c)

/-- A write of DBG_DATA (R86): discarded with WRITE_DISCARDED set where the target is not halted. -/
def writeDbgData (s : State) (v : Word) : State :=
  let s := match s.dbgGroup with
    | some (f, slot, g) =>
      if g.halt = Halt.halted then s.setDbgWord f slot g (s.regF 0 Reg.dbgAddr 31 30) (s.regF 0 Reg.dbgAddr 29 0) v
      else s.setRegF 0 Reg.dbgStatus 10 10 1
    | none => s.setRegF 0 Reg.dbgStatus 10 10 1
  s.dbgAdvance

end Sys2Proof.Machine
end

