-- ==== Sys2Proof/Machine/Window.lean ====
section
/-! DEFINITION. The management windows (R378 to R381, R16 to R18): capture, the effect of a write, what a read returns, and the
commands that are writes or reads of one register. -/

namespace Sys2Proof.Machine

/-- Whether MP answers a function's window: MP is up, clocked (R454) and past the seal (R381, R496), and no handover is in phase 3, whose
end answers what is captured meanwhile (R503); in recovery mode its ROM serves PF0 only (R494). -/
def State.serves (s : State) (j : Nat) : Bool :=
  s.mpRuns && s.boot.phaseNo != 3 && (s.boot.phase == .running || (s.boot.phase == .recovery && j == 0))

/-- A write of a register without effects of its own (R16 to R18): RW bits store, RW1C bits clear, the others stay. RWC bits
are sealed whenever a window write takes effect. -/
def State.plainWrite (s : State) (j a : Nat) (v : Word) : State :=
  match regSpec? j a with
  | none => s
  | some r =>
    let old := s.reg j a
    s.setReg j a ((old &&& ~~~ (r.rw ||| r.w1c)) ||| (v &&& r.rw &&& ~~~ r.w1c) ||| (old &&& ~~~ v &&& r.w1c))

/-- A write of GN_CFG: a KEEP of 0 or above 4 is discarded. -/
def writeGnCfg (s : State) (v : Word) : State :=
  let keep := field v 2 0
  s.plainWrite 0 Reg.gnCfg (if keep = 0 ∨ 4 < keep then setField v 2 0 (s.regF 0 Reg.gnCfg 2 0) else v)

/-- A write that takes effect in PF0's window. -/
def writePf0 (s : State) (a : Nat) (v : Word) : State :=
  if 0x800 ≤ a && a < 0x1000 then
    let j := (a - 0x800) / 0x80 + 1
    let o := (a - 0x800) % 0x80
    if o = 0 then writeTenCtrl s j v
    else match regSpec? 0 a with
      | none => s
      | some r => if o < 0x10 then s.plainWrite 0 a v else writeTenMap s j a (v &&& r.rw)
  else if a = Reg.dbgEnable then writeDbgEnable s v
  else if a = Reg.dbgCmd then writeDbgCmd s v
  else if a = Reg.dbgData then writeDbgData s v
  else if 0x3804 ≤ a && a < 0x3844 && a % 4 == 0 then writeHullQuota s ((a - 0x3800) / 4) v
  else if 0x3884 ≤ a && a < 0x38C4 && a % 4 == 0 then writeHullTgCfg s ((a - 0x3880) / 4) v
  else if a = Reg.memVerify then memVerify s v
  else if a = Reg.hbmInject then writeHbmInject s v
  else if a = Reg.portCmd then writePortCmd s v
  else if 0x5C00 ≤ a && a < 0x5E20 && a % 32 == 0 then writeChordFnPos s ((a - 0x5C00) / 32) v
  else if a = Reg.decAnswer then writeDecAnswer s v
  else if a = Reg.lifeSel then writeLifeSel s v
  else if a = Reg.spareTake then writeSpareTake s v
  else if a = Reg.gnCfg then writeGnCfg s v
  else if a = Reg.gnGenSel then writeGnGenSel s v
  else if a = Reg.gnRestoreCmd then writeGnRestore s v
  else if a = Reg.pwrCmd then writePwrCmd s v
  else if a = Reg.levelCfg then writeLevelCfg s v
  else if a = Reg.gateCmd then writeGateCmd s v
  else if a = Reg.fwCmd then writeFwCmd s v
  else if a = Reg.fwData then writeFwData s v
  else if a = Reg.resetCtrl then writeResetCtrl s v
  else if a = Reg.hifSelect then writeHifSelect s 0 v
  else s.plainWrite 0 a v

/-- A write that takes effect in a VF's window. -/
def writeVf (s : State) (j a : Nat) (v : Word) : State :=
  if 0x1000 ≤ a && a < 0x1800 then
    let r := (a - 0x1000) / 32
    let o := (a - 0x1000) % 32
    if o = 0x10 then writeLocusCfg s j r v
    else match regSpec? j a with
      | none => s
      | some x => writeLocusBase s j r a (v &&& x.rw)
  else if a = Reg.hifSelect then writeHifSelect s j v
  else if a = Reg.tenSelf then writeTenSelf s j v
  else if a = Reg.srSeedHi then writeSrSeedHi s j v
  else if a = Reg.drainCtrl then writeDrainCtrl s j v
  else if a = Reg.hullPinCmd then writePinCmd s j v
  else s.plainWrite j a v

/-- A captured write takes effect. -/
def State.applyWrite (s : State) (j a : Nat) (v : Word) : State := if j = 0 then writePf0 s a v else writeVf s j a v

/-- The capture unit (R379 to R381): a write of another size than 32 bits is discarded with BAD_SIZE set; one that MP answers
takes effect; else 32 of a function are held, and a further one is lost. -/
def State.capture (s : State) (j a size : Nat) (v : Word) : State :=
  if !s.side.cxlUp || 16 < j then s
  else if size != 4 || a % 4 != 0 then s.setRegF j Reg.winStatus 31 31 1
  else if s.serves j then s.applyWrite j a v
  else if (s.held.filter (fun h => h.fn == j && !h.read)).length < 32 then { s with held := s.held ++ [{ fn := j, addr := a, size := size, value := v }] }
  else s.count j Reg.winStatus 15 0 1

/-- The answer to a window read, as an output of the block. -/
def State.windowAnswer (s : State) (j a : Nat) (v : Word) : State := s.answer 0 (2 ^ 32 * j + a) (leBytes 4 v.toNat)

/-- A read of DBG_DATA that MP answers (R86). -/
def State.answerDbgData (s : State) : State :=
  let r := readDbgData s
  r.1.windowAnswer 0 Reg.dbgData r.2

/-- A held access that MP answers. -/
def State.applyAccess (s : State) (h : Held) : State := if h.read then s.answerDbgData else s.applyWrite h.fn h.addr h.value

/-- Reads held for the end of a handover's phase 3 when MP crashes: they return the RETRY pattern (R381). -/
def State.retryReads (s : State) : State :=
  (s.held.filter (·.read)).foldl (fun s h => s.windowAnswer h.fn h.addr 0xFFFFFFFE) { s with held := s.held.filter (fun h => !h.read) }

/-- The held accesses that MP answers, in the order of capture (R381). -/
def State.applyHeld (s : State) : Nat → State
  | 0 => s
  | n + 1 =>
    match s.held.findIdx? (fun h => s.serves h.fn) with
    | none => s
    | some i =>
      match s.held[i]? with
      | none => s
      | some h => State.applyHeld ({ s with held := s.held.eraseIdx i }.applyAccess h) n

/-- MP is back: what the capture unit holds takes effect, and is answered (R381, R503). -/
def State.mpReturns (s : State) : State := s.applyHeld s.held.length

/-- PROC_STATUS as read. -/
def State.procStatus (s : State) : Word :=
  let b (x : Bool) (k : Nat) : Word := if x then BitVec.ofNat 32 (2 ^ k) else 0
  s.reg 0 Reg.procStatus ||| b s.boot.mpUp 26 ||| b s.boot.ppUp 25 ||| b s.boot.spUp 24

/-- FW_STATUS as read. -/
def State.fwStatus (s : State) : Word :=
  let st := match s.boot.phase with
    | .recovery => 2
    | .running => if s.boot.phaseNo = 0 then 1 else 3
    | _ => 0
  setField (setField (setField (s.reg 0 Reg.fwStatus) 31 28 st) 27 27 (if s.boot.sealed then 1 else 0)) 24 24 s.boot.active

/-- The 64 bytes of a log record (R505). -/
def LogRec.bytes (r : LogRec) : List Byte :=
  let args := (r.args.map (fun x => leBytes 4 x)).flatten
  (leBytes 8 r.seq ++ leBytes 8 r.time ++ leBytes 2 r.point ++ leBytes 1 r.source ++ leBytes 1 r.fn ++ args ++
    List.replicate 44 0).take 64

/-- The record LOG_SEL selects: none once it has left the ring of 1,048,576 (R505). -/
def State.logRecord (s : State) : List Byte :=
  let want := (s.reg 0 Reg.logSel).toNat
  match s.log.find? (fun r => r.seq % 2 ^ 32 == want && decide (s.logSeq ≤ r.seq + 1048576)) with
  | some r => r.bytes
  | none => List.replicate 64 0

/-- DBG_STATUS as read (R90): an empty slot shows STATE 4; with DBG_TARGET.VF 0, which selects none, the reset value stands. -/
def State.dbgStatusView (s : State) : Word :=
  let w := field (s.reg 0 Reg.dbgStatus) 10 10 * 1024
  match s.dbgGroup with
  | none => BitVec.ofNat 32 (if s.dbgVf = 0 then w else w + 4)
  | some (_, _, g) =>
    let st := match g.halt with | .running => 0 | .pending => 1 | .halted => 2 | _ => 3
    let bar := if g.halt = .stepped && g.atBarrier then 256 else 0
    let code := match g.faulted with | some h => h.code * 65536 + 512 | none => 0
    BitVec.ofNat 32 (w + code + bar + min 31 g.entries.length * 8 + st)

/-- SPARE_STATUS as read (R46, R50): free spares of each die, and positions that await one, at most 7 in their 3 bits; 0 before
positions are assigned. -/
def State.spareStatus (s : State) : Word :=
  if s.positions.isEmpty then 0
  else BitVec.ofNat 32 ((List.range 4).map (fun n =>
    let await := ((List.range 48).filter (fun i => match s.positions.getD (48 * n + i) none with
      | some f => (s.facet f).failed
      | none => false)).length
    (min 7 (s.spares n).length + 8 * min 7 await) * 256 ^ n)).sum

/-- GN_STATUS as read (R446, R449); the counts are 0 until the rebuild (R438, R450). -/
def State.gnStatusView (s : State) : Word :=
  let x := s.store
  let st := if x.starting then 1 else if !s.boot.spUp then 3 else if x.readOnly then 4 else if x.paused then 2 else 0
  let counts := if x.starting then 0
    else (x.gens.filter Generation.isOpen).length * 2 ^ 24 + min 255 (x.gens.filter (·.committed)).length * 65536 + x.free.length
  BitVec.ofNat 32 ((if s.boot.spUp then 2 ^ 31 else 0) + st * 2 ^ 28 + counts)

/-- The oldest pending decision as DEC_INFO shows it; for function 9 the number of candidates. -/
def State.decInfo (s : State) : Word :=
  match s.decisions with
  | [] => 0
  | d :: _ => BitVec.ofNat 32 (d.fn * 2 ^ 28 + d.subject % 2 ^ 24)

/-- PORT_STATE as read. -/
def State.portStateView (s : State) (p : Nat) : Word :=
  let x := s.port p
  let st := match x.state with
    | .disabled => 0 | .training => 1 | .up => 2 | .upReduced => 3 | .failed => 4 | .down => 5 | .noVersion => 6
  let up := if x.isUp then x.version * 2 ^ 20 + x.lanes * 2 ^ 16 else 0
  BitVec.ofNat 32 (st * 2 ^ 28 + up + (s.reg 0 (Reg.portState p)).toNat % 65536)

/-- LOCUS_STATE as read (R387). -/
def State.locusStateView (s : State) (j r : Nat) : Word :=
  let bad := match s.headAddr j r with
    | some d => s.registered j r && (s.peekSlot d).isNone
    | none => false
  BitVec.ofNat 32 ((if bad then 2 ^ 25 else 0) + min 511 (s.outstandingOn j r) * 65536 + (s.ring j r).nextSeq)

/-- FACET_MAP as read (R48, R49). -/
def State.facetMapView (s : State) (j k : Nat) : Word :=
  match if s.enabled j then (s.logical j)[k]? else none with
  | none => 0
  | some e =>
    let x := s.facet e.2
    BitVec.ofNat 32 (2 ^ 31 + (if x.failed || x.cleared then 2 ^ 30 else 0) + e.1 * 65536 + (e.2 / 52) * 64 + e.2 % 52)

/-- HBM_SCRUB as read (R312): the passes of the stack's slowest engine, and its position in units of 1/65,536. -/
def State.scrubView (s : State) (k : Nat) : Word :=
  let l := (List.range 64).map (fun i => s.pc (64 * k + i))
  let done := l.foldl (fun m p => min m (p.passes * scrubSteps + p.scrub)) (((l.head?).map (fun p => p.passes * scrubSteps + p.scrub)).getD 0)
  BitVec.ofNat 32 (s.regF 0 (Reg.hbmScrub k) 31 31 * 2 ^ 31 + min 32767 (done / scrubSteps) * 65536 + done % scrubSteps * 65536 / scrubSteps)

/-- What a window read returns where MP answers it (R16, R17): the register's view of the state, the stored bits elsewhere, 0
at a reserved address. DBG_DATA has its own command. -/
def State.readWindow (s : State) (j a : Nat) : Word :=
  let p := s.power
  let vf := j != 0
  let n := BitVec.ofNat 32
  match regSpec? j a with
  | none => 0
  | some _ =>
    if a = Reg.winId then n (0xC960A100 + j)
    else if a = Reg.pwrView then n (p.state * 2 ^ 29 + (if p.emergency then 2 ^ 28 else 0) + s.swallow)
    else if vf then
      if a = Reg.tenSelf then
        n ((if s.enabled j then 2 ^ 30 else 0) + s.regF 0 (Reg.tenStatus j) 31 31 * 2 ^ 29 + s.regF j Reg.tenSelf 7 0)
      else if a = Reg.execFacets then n (if s.enabled j then (s.logical j).length else 0)
      else if 0x2100 ≤ a && a < 0x2400 then s.facetMapView j ((a - 0x2100) / 4)
      else if 0x1000 ≤ a && a < 0x1800 && a % 32 == 0x14 then s.locusStateView j ((a - 0x1000) / 32)
      else if a = Reg.hullPinTotal then n (s.pinTotal j)
      else if a = Reg.hullQuotaView then n (s.quota j)
      else if a = Reg.chordSelf then (match s.posOf j with | some q => n (2 ^ 31 + q) | none => 0)
      else if a = Reg.drainStatus then
        setField (s.reg j a) 27 27 (if s.drains.any (fun (d : Drain) => d.fn == j && d.store && d.storeEnd == 0) &&
          (!s.boot.spUp || s.store.paused) then 1 else 0)
      else s.reg j a
    else if a = Reg.dbgStatus then s.dbgStatusView
    else if a = Reg.dbgData then 0
    else if a = Reg.spareStatus then s.spareStatus
    else if 0x2830 ≤ a && a < 0x2848 then
      maskOf (fun b => match s.positions[32 * ((a - 0x2830) / 4) + b]? with | some none => true | _ => false)
    else if 0x4100 ≤ a && a < 0x41C0 && a % 16 == 8 then
      let k := (a - 0x4100) / 16
      setField (setField (s.reg 0 a) 23 16 (min 255 (s.hbm.waiting.filter (fun e => e.1 == k)).length)) 12 0 (s.remapsOf k).length
    else if 0x4100 ≤ a && a < 0x41C0 && a % 16 == 12 then s.scrubView ((a - 0x4100) / 16)
    else if 0x5900 ≤ a && a < 0x5B40 && a % 16 == 0 then s.portStateView ((a - 0x5900) / 16)
    else if a = Reg.decPending then setField (s.reg 0 a) 4 0 s.decisions.length
    else if a = Reg.decInfo then s.decInfo
    else if a = Reg.lifeDataLo then n (s.life.latched.toNat % 2 ^ 32)
    else if a = Reg.lifeDataHi then n (s.life.latched.toNat / 2 ^ 32)
    else if a = Reg.gnStatus then s.gnStatusView
    else if a = Reg.gnHealth then
      n ((if s.store.ratedExceeded then 2 ^ 31 else 0) + min 4095 (s.store.bad.length - s.store.factory.getD 0) * 65536 + s.store.sparesLeft)
    else if a = Reg.gnWear then
      n (s.store.poolErases / 1030144 * 65536 + s.store.erases.foldl (fun m e =>
        if 8 ≤ e.1 % 4096 ∧ e.1 % 4096 ≤ 4031 then max m e.2.toNat else m) 0)
    else if a = Reg.gnWritten then n (s.store.writtenBytes / 2 ^ 30)
    else if a = Reg.clkStatus then
      s.reg 0 a &&& 0x80FF0000 ||| n ((if p.xtalOk then 2 ^ 30 else 0) + (if p.rcActive then 2 ^ 29 else 0) +
        (if s.pairedMode then p.islandsUp.toNat * 256 else 0) + p.originLock.toNat)
    else if a = Reg.freqStatus then
      n (s.swallow * 2 ^ 25 + p.lo * 2 ^ 18 + p.hi * 2 ^ 11 + p.hardHi * 16 + (if p.hullHalf then 2 else 0) + (if p.ppFloor then 1 else 0))
    else if a = Reg.pwrState then s.reg 0 a &&& 0x0200000F ||| n (p.state * 2 ^ 29 + p.hold * 2 ^ 26)
    else if a = Reg.levelStatus then setField (s.reg 0 a) 27 24 p.ballast
    else if a = Reg.senseSupply then n (min 4095 (p.volts / 25) * 2 ^ 20 + min 255 (p.amps / 500) * 4096 + min 4095 p.watts)
    else if a = Reg.senseTherm then
      n (min 1023 p.inlet * 2 ^ 22 + min 1023 p.junction * 4096 + p.hotDie * 512 + p.row * 32 + (if p.rowHeld.isSome then 16 else 0) +
        (if p.throttle then 8 else 0) + (if 248 ≤ p.inlet then 4 else 0))
    else if a = Reg.fwStatus then s.fwStatus
    else if a = Reg.fwResult then setField (setField (s.reg 0 a) 31 31 (if s.boot.busy then 1 else 0)) 18 16 s.boot.phaseNo
    else if a = Reg.procStatus then s.procStatus
    else if 0x8080 ≤ a && a < 0x80C0 then n (s.boot.counter ((a - 0x8080) / 4))
    else if a = Reg.logHead then n s.logSeq
    else if 0x8140 ≤ a && a < 0x8180 then n (byteField s.logRecord (a - 0x8140) 4)
    else s.reg 0 a

/-- What a window read of a register returns (R379, R381): the RETRY pattern while MP is absent. -/
def State.answerRead (s : State) (j a : Nat) : Word := if s.serves j then s.readWindow j a else 0xFFFFFFFE

/-- WINDOW_WRITE (R379 to R381). -/
def execWindowWrite (j addr size : Nat) (v : Word) (s : State) : Out := .next (s.capture j addr size v)

/-- WINDOW_BAD_SIZE_READ (R379): BAD_SIZE, and 0xFFFF_FFFF, or the RETRY pattern while MP is absent (R381, log entry 64). -/
def execWindowBadSizeRead (j addr size : Nat) (s : State) : Out :=
  if !s.side.cxlUp || 16 < j || (size == 4 && addr % 4 == 0) then .next s
  else .next ((s.setRegF j Reg.winStatus 31 31 1).windowAnswer j addr (if s.serves j then 0xFFFFFFFF else 0xFFFFFFFE))

/-- A write of a register through the capture unit, or nothing where its index is out of range. -/
def State.command (s : State) (ok : Bool) (j a : Nat) (v : Word) : Out := .next (if ok then s.capture j a 4 v else s)

/-- Whether a number names a VF. -/
def isVf (j : Nat) : Bool := decide (1 ≤ j) && decide (j ≤ 16)

def execDbgHalt (s : State) : Out := s.command true 0 Reg.dbgCmd 1
def execDbgResume (s : State) : Out := s.command true 0 Reg.dbgCmd 2
def execDbgStep (s : State) : Out := s.command true 0 Reg.dbgCmd 3
def execDbgDataWrite (v : Word) (s : State) : Out := s.command true 0 Reg.dbgData v
def execDbgEnableWrite (v : Word) (s : State) : Out := s.command true 0 Reg.dbgEnable v

/-- DBG_DATA_READ (R86, R381): INDEX advances only where MP answers. One captured in phase 3 of a handover waits for the new MP
(R503). -/
def execDbgDataRead (s : State) : Out :=
  if !s.side.cxlUp then .next s
  else if s.serves 0 then .next s.answerDbgData
  else if s.mpRuns && s.boot.phaseNo == 3 then
    .next { s with held := s.held ++ [{ fn := 0, addr := Reg.dbgData, size := 4, value := 0, read := true }] }
  else .next (s.windowAnswer 0 Reg.dbgData 0xFFFFFFFE)

def execPinCmdPin (j : Nat) (s : State) : Out := s.command (isVf j) j Reg.hullPinCmd 1
def execPinCmdUnpin (j : Nat) (s : State) : Out := s.command (isVf j) j Reg.hullPinCmd 2
def execHullQuotaWrite (j : Nat) (v : Word) (s : State) : Out := s.command (isVf j) 0 (Reg.hullQuota j) v
def execHullTgCfgWrite (j : Nat) (v : Word) (s : State) : Out := s.command (isVf j) 0 (Reg.hullTgCfg j) v
def execMemVerifyWrite (v : Word) (s : State) : Out := s.command true 0 Reg.memVerify v
def execHbmInjectWrite (v : Word) (s : State) : Out := s.command true 0 Reg.hbmInject v
def execChordFnPosWrite (j : Nat) (v : Word) (s : State) : Out := s.command (decide (j ≤ 16)) 0 (Reg.chordFnPos j) v

/-- PORT_CMD with a command and a port (R357, R358). -/
def State.portCmd (s : State) (p cmd : Nat) : Out := s.command (decide (p < 36)) 0 Reg.portCmd (BitVec.ofNat 32 (cmd * 256 + p))

def execPortCmdRetrainFull (p : Nat) (s : State) : Out := s.portCmd p 1
def execPortCmdRetrainReduced (p : Nat) (s : State) : Out := s.portCmd p 2
def execPortCmdKeepOut (p : Nat) (s : State) : Out := s.portCmd p 3
def execLocusCfgWrite (j r : Nat) (v : Word) (s : State) : Out := s.command (isVf j && decide (r < 64)) j (Reg.locusCfg r) v
def execHifSelectWrite (j : Nat) (v : Word) (s : State) : Out := s.command (decide (j ≤ 16)) j Reg.hifSelect v
def execTenEnable (j : Nat) (s : State) : Out := s.command (isVf j) 0 (Reg.tenCtrl j) 0x80000000
def execTenDisable (j : Nat) (s : State) : Out := s.command (isVf j) 0 (Reg.tenCtrl j) 0

/-- TEN_CTRL_RESET (R397): RESET written with ENABLE as it stands. -/
def execTenCtrlReset (j : Nat) (s : State) : Out :=
  s.command (isVf j) 0 (Reg.tenCtrl j) (if s.enabled j then 0xC0000000 else 0x40000000)

def execTenSelfReset (j : Nat) (s : State) : Out := s.command (isVf j) j Reg.tenSelf 0x80000000
def execSrSeedHiWrite (j : Nat) (v : Word) (s : State) : Out := s.command (isVf j) j Reg.srSeedHi v
def execDrainAbortStore (j : Nat) (s : State) : Out := s.command (isVf j) j Reg.drainCtrl 1
def execGnGenSelWrite (v : Word) (s : State) : Out := s.command true 0 Reg.gnGenSel v
/-- GN_RESTORE (R440): CMD 1 with the buffer of `v`. -/
def execGnRestore (v : Word) (s : State) : Out := s.command true 0 Reg.gnRestoreCmd ((v &&& 0x100) ||| 1)
def execGnRestoreCancel (s : State) : Out := s.command true 0 Reg.gnRestoreCmd 2
def execDecAnswerWrite (v : Word) (s : State) : Out := s.command true 0 Reg.decAnswer v
def execSpareTakeWrite (v : Word) (s : State) : Out := s.command true 0 Reg.spareTake v
def execLifeSelWrite (v : Word) (s : State) : Out := s.command true 0 Reg.lifeSel v
def execPwrCmdP0 (s : State) : Out := s.command true 0 Reg.pwrCmd 0
def execPwrCmdS1 (s : State) : Out := s.command true 0 Reg.pwrCmd 1
def execPwrCmdS2 (s : State) : Out := s.command true 0 Reg.pwrCmd 2
def execGateCmdWrite (v : Word) (s : State) : Out := s.command true 0 Reg.gateCmd v
def execLevelCfgWrite (v : Word) (s : State) : Out := s.command true 0 Reg.levelCfg v
def execFwStage (slot : Nat) (s : State) : Out := s.command (decide (slot < 2)) 0 Reg.fwCmd (BitVec.ofNat 32 (slot * 256 + 1))
def execFwActivate (s : State) : Out := s.command true 0 Reg.fwCmd 2
def execFwCommitSvn (s : State) : Out := s.command true 0 Reg.fwCmd 3
def execFwRecoveryBegin (slot : Nat) (s : State) : Out := s.command (decide (slot < 2)) 0 Reg.fwCmd (BitVec.ofNat 32 (slot * 256 + 4))
def execFwDataWrite (v : Word) (s : State) : Out := s.command true 0 Reg.fwData v
def execFwRecoveryEnd (s : State) : Out := s.command true 0 Reg.fwCmd 5
def execResetCtrlWarm (s : State) : Out := s.command true 0 Reg.resetCtrl 0xC0DE0100
def execResetCtrlCold (s : State) : Out := s.command true 0 Reg.resetCtrl 0xC0DE0200
def execResetCtrlFacet (die mm : Nat) (s : State) : Out :=
  s.command (decide (die < 4) && decide (mm < 52)) 0 Reg.resetCtrl (BitVec.ofNat 32 (0xC0DE0300 + die * 64 + mm))
def execResetCtrlPort (p : Nat) (s : State) : Out :=
  s.command (decide (p < 36)) 0 Reg.resetCtrl (BitVec.ofNat 32 (0xC0DE0400 + p))
def execLogSelWrite (v : Word) (s : State) : Out := s.command true 0 Reg.logSel v

end Sys2Proof.Machine
end

