-- ==== Sys2Proof/Machine/Boot.lean ====
section
/-! DEFINITION. Resets by the pins and the supply (R484, R517), the start (R493 to R496), the firmware processors (R498, R499)
and the return from S2 (R480). -/

namespace Sys2Proof.Machine

/-- SUPPLY_FIRST_47V (R484): the input stands at 47.0 V at least. -/
def execSupplyFirst47v (s : State) : Out :=
  .next { s with boot := { s.boot with seen47 := true }, power := { s.power with volts := max 47000 s.power.volts } }.release

/-- INRUSH_LIMIT_END (R514). -/
def execInrushLimitEnd (s : State) : Out := .next { s with power := { s.power with inrush := false } }

/-- MOD_RESET_ASSERT (R484, R523): for at least 25 cycles. -/
def execModResetAssert (s : State) : Out := .next ({ s with boot := { s.boot with pinReset := true } }.coldReset 2)

/-- MOD_RESET_RELEASE (R484). -/
def execModResetRelease (s : State) : Out := .next { s with boot := { s.boot with pinReset := false } }.release

/-- Whether an assertion of HOST_PERST_N resets only the CXL port (R517): before the Locus acceptance of a cold start, and
while the link is in L2 or not retrained after an S2 wake. -/
def State.perstPortOnly (s : State) : Bool := !s.boot.opened || s.side.cxlL2 || s.side.awaitCxl

/-- HOST_PERST_ASSERT (R484, R517). -/
def execHostPerstAssert (s : State) : Out :=
  if s.boot.pinPerst then .next s
  else
    let portOnly := s.perstPortOnly
    let s := { s with boot := { s.boot with pinPerst := true }, side := { s.side with cxlUp := false, session := false } }
    .next (if portOnly then s else s.warmReset 4)

/-- HOST_PERST_RELEASE (R484, R517). -/
def execHostPerstRelease (s : State) : Out := .next { s with boot := { s.boot with pinPerst := false } }.release

/-- CXL_LINK_UP (R517, R480): training begins once HOST_PERST_N is released and stage 1 of the start is complete, which has every
origin PLL locked (R493). -/
def execCxlLinkUp (s : State) : Out :=
  let staged := match s.boot.phase with | .starting | .running | .recovery => true | _ => false
  if s.boot.pinPerst || !staged || !s.power.xtalOk || !s.power.lock 4 || s.power.state = 2 ||
      (s.boot.phase == .starting && s.power.originLock != 0x3F) then .next s
  else .next { s with
    side := { s.side with cxlUp := true, cxlL2 := false, awaitCxl := false }, boot := { s.boot with refclk := true } }

/-- The good Facets of a die by the records of R45. -/
def State.goodFacets (s : State) (die : Nat) : List Nat :=
  ((List.range 52).map (52 * die + ·)).filter (fun f => !s.defects.contains f && !s.retired.contains f)

/-- Positions and spares at a cold start (R45 to R47), the spares' gates at their reset value (R460). -/
def State.assignPositions (s : State) : State :=
  let take (n : Nat) : List (Option Nat) := let l := ((s.goodFacets n).take 48).map some; l ++ List.replicate (48 - l.length) none
  let spares := (List.range 4).flatMap (fun n => (s.goodFacets n).drop 48)
  let s := { s with positions := (List.range 4).flatMap take }
  spares.foldl (fun s f => s.setGate (facetGate f) 0) s

/-- The rows of a defect map, each with one of its bank's 128 spare rows, that exist; of two of one row or one spare the first
(R313). -/
def recordRemaps (record : List Byte) : List (Nat × Nat × Nat × Nat × Nat) :=
  (Config.recordRows record).foldl (fun l e =>
    let (k, pc, bank, row, spare) := e
    let clash := l.any (fun o => o.1 == k && o.2.1 == pc && o.2.2.1 == bank && (o.2.2.2.1 == row || o.2.2.2.2 == spare))
    if k < 12 ∧ pc < 64 ∧ bank < 16 ∧ row < 40960 ∧ spare < 128 ∧ clash = false then l ++ [e] else l) []

/-- The remap tables at a cold start: the defect map's rows, then the run-time remaps of the system area, 4,096 entries of a
stack at most (R313). -/
def State.loadRemaps (s : State) (rows : List (Nat × Nat × Nat × Nat × Nat)) : State :=
  let all := rows ++ s.store.areaA.remaps
  let table (k : Nat) := ((all.filter (·.1 == k)).map (·.2)).take 4096
  { s with hbm := { s.hbm with remaps := ((List.range 12).map (fun k => (k, table k))).filter (fun e => !e.2.isEmpty) } }

/-- The seal (R496). -/
def State.seal (s : State) : State := { s with boot := { s.boot with sealed := true } }.trace 0x0002 1 255 []

/-- A region found invalid (R492, R505): `region` 0 and 1 the slots, 2 the module record, 3 the site block, 4 the PUF helper data. -/
def State.invalidRegion (s : State) (region cause : Nat) : State := s.trace 0x0010 1 255 [region, cause]

/-- The seed that MP reconstructs from the PUF array with the helper data, accepted only when its digest is their tag (R495). -/
def Boot.seed (b : Boot) : Option (List Byte) :=
  let helper := b.images.region .helper
  let seed := Config.pufSeed b.puf helper
  if Config.sha512 seed = Config.helperTag helper then some seed else none

/-- The key-encryption key (R495): the first 256 bits of the digest of "CHILET-KEK" and the seed. -/
def kek (seed : List Byte) : BitVec 256 :=
  (Config.sha512 ([0x43, 0x48, 0x49, 0x4C, 0x45, 0x54, 0x2D, 0x4B, 0x45, 0x4B] ++ seed)).extractLsb' 256 256

/-- The identity key that the wrapped key of the system area holds (R495). -/
def Boot.identityOf (b : Boot) (wrapped : Option (List Byte)) : Option (List Byte) :=
  b.seed.bind (fun seed => wrapped.bind (Config.keyUnwrap (kek seed)))

/-- IDENTITY, and the key in MP SRAM (R495). -/
def State.setIdentity (s : State) (id : Nat) (key : Option (List Byte)) : State :=
  { s.setRegF 0 Reg.fwStatus 23 22 id with boot := { s.boot with identity := id, identityKey := key } }

/-- Stage 4 (R495): the seed derived and the identity key unwrapped; with none wrapped a key is made, wrapped and stored. -/
def State.unwrap (s : State) (puf : List Byte) : State :=
  let s := { s with boot := { s.boot with puf := puf } }
  match s.boot.seed with
  | none => (s.invalidRegion 4 0x10).setIdentity 2 none
  | some seed =>
    match s.store.areaA.key with
    | some w =>
      match Config.keyUnwrap (kek seed) w with
      | some k => s.setIdentity 0 (some k)
      | none => s.setIdentity 2 none
    | none =>
      let (s, c) := s.free
      let key := Config.freshKey c
      (s.saveArea (fun a => { a with key := some (Config.keyWrap (kek seed) key) })).setIdentity 1 (some key)

/-- Bad blocks a start finds: at the first start the factory's marks, recorded and replaced; later blocks retired in service
(R445). -/
def State.markBlocks (s : State) (l : List (Nat × Nat × Nat)) : State :=
  let first := s.store.factory.isNone
  let s := l.foldl (fun s b => (s.failBlock b.1 b.2.1 b.2.2).1) s
  if first then s.updStore (fun x => { x with factory := some x.bad.length }) else s

/-- What every start ends with (R493, R481, R438, R330): pins, stacks and dies that failed training, the store rebuilt, the three
processors up, N at 64 within the hard limits, Locus acceptance open. A stack or die that failed is a module fault instead
(R415). -/
def State.openUp (s : State) (x : StartReport) : State :=
  let s := (x.badPins.filter (fun e => decide (e.1 < 768 ∧ e.2 < 36))).foldl (fun s e => s.degradePin e.1 e.2) s
  let s := s.journalRebuild
  let s := s.markBlocks x.badBlocks
  let s := { s with
    boot := { s.boot with phase := .running, mpUp := true, ppUp := true, spUp := true, crashAt := [], tardy := [] }
    power := { s.power with n := 64, beatAt := s.now, ramping := false }
    hbm := { s.hbm with trained := true } }
  let s := s.settle.spReturns
  let s := if x.badStacks.isEmpty && x.badDies.isEmpty then { s with locusOpen := true, boot := { s.boot with moduleFaults := 0, opened := true } } else s.escalateModule
  s.mpReturns

/-- Recovery mode (R494): MP's ROM serves PF0, and takes the writes that waited. -/
def State.recover (s : State) : State := { s with boot := { s.boot with phase := .recovery, mpUp := true } }.mpReturns

/-- The slot a start takes of those in the boot cache (R487, R492, R493): the preferred one, else the other; none when both are
invalid. -/
def State.chooseSlot (s : State) (p : Nat) : State × Option Nat :=
  let q := 1 - p
  let cp := s.boot.checkSlot s.boot.images p
  if cp = 0 then (s, some p)
  else
    let s := s.invalidRegion p cp
    let cq := s.boot.checkSlot s.boot.images q
    if cq = 0 then ({ s with boot := { s.boot with fellBack := true } }, some q) else (s.invalidRegion q cq, none)

/-- The site block in force (R489, R491, R492): none when absent, badly signed or rolled back. -/
def State.takeSite (s : State) : State × Option (List Byte) :=
  match s.boot.images.site with
  | none => (s, none)
  | some l =>
    let c := s.boot.checkRegion 3 l
    if c = 0 then (s, some l) else (s.invalidRegion 3 c, none)

/-- Stage 3 (R493): the slot whose images start, and the site block in force; none: recovery mode (R492). -/
def State.verify (s : State) (preferred : Nat) : State × Option (Nat × Option (List Byte)) :=
  match s.chooseSlot preferred with
  | (s, none) => (s, none)
  | (s, some slot) =>
    let c := s.boot.checkRecord
    if c != 0 then (s.invalidRegion 2 c, none)
    else
      let (s, site) := s.takeSite
      (s, some (slot, site))

/-- Stage 5 of a cold start (R455, R466, R492): what the site block sets, or its defaults. -/
def State.applySite (s : State) (b : Option (List Byte)) : State :=
  match b with
  | none => (((s.setReg 0 Reg.modes 0).setReg 0 Reg.modeFailover 0).setReg 0 Reg.levelCfg 0).setRegF 0 Reg.fwStatus 25 25 1
  | some l =>
    let (paired, modes, failover, level) := Config.siteFields l
    let s := ((s.setReg 0 Reg.modes (modes &&& 0x0F0000FF)).setReg 0 Reg.modeFailover failover).setReg 0 Reg.levelCfg (level &&& 0xC03F0FFF)
    let s := { s with boot := { s.boot with site := some l, siteSvn := regionSvn l } }
    if paired then { s.setRegF 0 Reg.clkStatus 31 31 1 with power := { s.power with islandLock := 0x3FF } } else s

/-- FALLBACK as a start finds it (R492). -/
def State.showFallback (s : State) : State := if s.boot.fellBack then s.setRegF 0 Reg.fwStatus 26 26 1 else s

/-- Stage 2 of a cold start (R493): the config flash is read once into the boot cache, and measured. -/
def Boot.fillCache (b : Boot) : Boot := { b with cache := some b.flash, measured := b.flash.measure }

/-- A cold start (R493). -/
def State.coldStart (s : State) (x : StartReport) : State :=
  let s := { s with boot := s.boot.fillCache }
  match s.verify s.boot.flash.preferred with
  | (s, none) => s.recover
  | (s, some (slot, site)) =>
    let record := s.boot.images.region .record
    let image := s.boot.images.slotBytes slot
    let s := { s with
      boot := { s.boot with
        active := slot, tables := slotImage image 3, tableSvn := slotSvn image 3, record := record, recordSvn := regionSvn record }
      defects := (Config.recordFacets record).filter (fun f => decide (f < 208)) }
    let bad := (x.badFacets.filter (fun f => decide (f < 208) && !s.defects.contains f && !s.retired.contains f)).dedup
    let s := { s with retired := s.retired ++ bad }
    let s := ((s.showFallback.unwrap x.puf).applySite site).assignPositions
    (((s.loadRemaps (recordRemaps record)).seal).life! 0x112 1).openUp x

/-- Whether a word of the boot cache, which stands first in the reserved region in the layout of the flash, is uncorrectable in the
`len` bytes from flash offset `lo` (R486, R500; log entry 129). -/
def State.cacheSpoilt (s : State) (lo len : Nat) : Bool :=
  s.hbm.cells.marks.any (fun e =>
    decide (reservedBase + lo ≤ 16 * e.1 + 15) && decide (16 * e.1 < reservedBase + lo + len) && s.hbm.cells.bad e.1)

/-- Stage 2 of a warm start (R493): whether the boot cache matches its measurements. -/
def State.cacheMatches (s : State) : Bool :=
  !s.cacheSpoilt 0 0x8000000 && (match s.boot.cache with
    | none => false
    | some x => s.boot.measured == x.measure)

/-- A warm start (R493): the boot cache compared, its slots verified, the engines out of self-refresh; a Facet that fails self-test
is out of service (R46, R49). With no cold start before it that took a slot, nothing is there to run. -/
def State.warmStart (s : State) (x : StartReport) : State :=
  if !s.cacheMatches || s.positions.isEmpty then
    { s.setRegF 0 Reg.fwStatus 21 21 1 with boot := { s.boot with phase := .stopped, cacheGood := false } }
  else match s.verify s.boot.active with
  | (s, none) => s.recover
  | (s, some (slot, site)) =>
    let s := { s with boot := { s.boot with active := slot } }.showFallback
    let s := if site.isNone then { s.setRegF 0 Reg.fwStatus 25 25 1 with boot := { s.boot with site := none } } else s
    let s := s.unwrap x.puf
    let bad := x.badFacets.filter (fun f => decide (f < 208) && !s.defects.contains f && !(s.facet f).failed)
    let s := bad.foldl (fun s f => s.facetFault f) s
    let s := if s.power.holds.isEmpty then s.wakeEngines else s
    ((s.seal).life! 0x113 1).openUp x

/-- START_COMPLETE (R493): the start has run its stages. -/
def execStartComplete (x : StartReport) (s : State) : Out :=
  if s.boot.phase != .starting || !s.power.xtalOk || s.power.originLock != 0x3F then .next s
  else if s.boot.warm then (if s.pairedMode && s.power.islandLock != 0x3FF then .next s else .next (s.warmStart x))
  else .next (s.coldStart x)

/-- HANDOVER_PHASE_DONE (R503): the processors run while their clocks do; phase 1 needs all three ready; phase 3 hands control over, and
the new MP answers what was captured meanwhile; phase 4 writes the header. -/
def execHandoverPhaseDone (s : State) : Out :=
  let b := s.boot
  match if s.ioClocked 0 && s.ioClocked 1 then b.phaseNo else 0 with
  | 0 => .next s
  | 1 =>
    if !(b.mpUp && b.ppUp && b.spUp) then .next s
    else .next ({ s with boot := { b with phaseNo := 2, committed := true } }.trace 0x0031 1 255 [0])
  | 2 => .next { s with boot := { b with phaseNo := 3 } }
  | 3 => .next { s with boot := { b with phaseNo := 4, active := b.staged.getD b.active } }.mpReturns
  | 4 => .next { s with boot := { b with flash := b.flash.writeHeader b.active, phaseNo := 5 } }
  | _ =>
    let s := { s with boot := { b with phaseNo := 0, committed := false, staged := none, activations := b.activations + 1 } }
    .next ((s.fwResult 0x02).trace 0x0032 1 255 [0x02])

/-- Whether firmware processor `proc` (0 MP, 1 PP, 2 SP) is up. -/
def Boot.up (b : Boot) (proc : Nat) : Bool := match proc with | 0 => b.mpUp | 1 => b.ppUp | 2 => b.spUp | _ => false

/-- Sets whether a firmware processor is up. -/
def Boot.setUp (b : Boot) (proc : Nat) (on : Bool) : Boot :=
  match proc with
  | 0 => { b with mpUp := on }
  | 1 => { b with ppUp := on }
  | 2 => { b with spUp := on }
  | _ => b

/-- PROC_CRASH (R498, R499, R504, R505): counted, traced, a handover before its point of no return aborted; the identity key goes with
MP (R495), and for SP the pages in program still complete (R449). -/
def execProcCrash (proc kind : Nat) (s : State) : Out :=
  if !s.boot.up proc then .next s
  else
    let s := s.count 0 Reg.procStatus (23 - 8 * proc) (16 - 8 * proc) 1
    let s := { s with boot := { s.boot.setUp proc false with crashAt := s.boot.crashAt ++ [(proc, s.now)] } }
    let s := (s.trace (0x0020 + proc) 0 255 [kind]).abortHandover 0x19
    .next (match proc with
      | 0 => { s with boot := { s.boot with identityKey := none } }.retryReads
      | 2 => s.finishPages
      | _ => s)

/-- What a processor does once it is back: MP derives the identity key again (R495) and applies the held writes (R381), SP what waited
for it. -/
def State.procBack (s : State) (proc : Nat) : State :=
  match proc with
  | 0 => { s with boot := { s.boot with identityKey := s.boot.identityOf s.store.areaA.key } }.mpReturns
  | 2 => s.spReturns
  | _ => s

/-- Whether the hash of a processor's image in the boot cache matches its measurement (R499). -/
def State.imageIntact (s : State) (proc : Nat) : Bool :=
  let n := s.boot.active
  let l := s.boot.images.slotBytes n
  s.boot.measured[5 + 3 * n + proc]? == some (Config.sha512 (slotImage l proc)) &&
  !s.cacheSpoilt ((flashPlace (slotRegion n)).1 + byteField l (24 + 8 * proc) 4) (byteField l (28 + 8 * proc) 4)

/-- PROC_RESTART (R499): the image is reloaded from the boot cache if its hash matches its measurement; else CACHE_BAD is set and the
processor stays absent. -/
def execProcRestart (proc : Nat) (s : State) : Out :=
  if !s.boot.crashAt.any (fun e => e.1 == proc) || (s.power.state = 2 && proc != 1) then .next s
  else if !s.imageIntact proc then .next (s.setRegF 0 Reg.fwStatus 21 21 1)
  else
    let s := { s with boot := { s.boot.setUp proc true with
      crashAt := s.boot.crashAt.filter (fun e => e.1 != proc), tardy := s.boot.tardy.filter (· != proc) } }
    .next (s.procBack proc)

/-- Restart time of a firmware processor in always-on island cycles (R498). -/
def restartTime : Nat → Nat
  | 0 => 7500000
  | 1 => 1250000
  | _ => 12500000

/-- PROC_RESTART_TIMEOUT (R499): ALERT bit 2. -/
def execProcRestartTimeout (proc : Nat) (s : State) : Out :=
  if s.boot.crashAt.any (fun e => e.1 == proc && decide (e.2 + restartTime proc ≤ s.now)) && !s.boot.tardy.contains proc then
    .next { s with boot := { s.boot with tardy := s.boot.tardy ++ [proc] } }
  else .next s

/-- WAKE_COMPLETE (R480): the module is back in P0, and what waited for clocked islands goes on; from S2 the PLLs have locked. -/
def execWakeComplete (s : State) : Out :=
  if s.power.state != 5 then .next s
  else if s.power.leaving != 2 then .next s.finishWake.landAll.pumpAll
  else if !s.locked then .next s
  else
    let s := s.finishWake
    let s := if s.spRuns then s.spReturns else s
    .next s.mpReturns.landAll.pumpAll

/-- PLL_LOCK (R452): its islands are clocked again, and what waited for that goes on; MP takes the held writes (R381). -/
def execPllLock (pll : Nat) (s : State) : Out :=
  if !s.hasPll pll || !s.power.xtalOk then .next s
  else
    let s := { s with power := s.power.setLock pll true }.pumpAll
    .next (if s.spRuns then s.spReturns else s).mpReturns

end Sys2Proof.Machine
end

