-- ==== Sys2Proof/Machine/Flags.lean ====
section
/-! DEFINITION. The status flags the block shows outside its windows: ALERT (R509, R511) and unavailability (R404). -/

namespace Sys2Proof.Machine

/-- The ALERT byte (R511). -/
def State.alert (s : State) : Nat :=
  let b := s.boot
  (if b.xtalFailed || (!s.power.xtalOk && s.power.holds.contains 4) then 1 else 0) +
  (if (s.reg 0 Reg.escStatus).getLsbD 31 || b.faultDue || s.power.holds.contains 3 then 2 else 0) +
  (if b.tardy.isEmpty then 0 else 4) + (if s.side.awaitCxl then 8 else 0) + (if b.phase == .recovery then 16 else 0) +
  (if b.phase == .stopped && !b.cacheGood then 32 else 0)

/-- ALERT_N is asserted (R509). -/
def State.alertN (s : State) : Bool := s.alert != 0

/-- Whether the module is unavailable for a cause that counts as outage (R404): a reset by escalation or a module fault, a
lost clock, a thermal limit with the inlet inside its rating and the return from it, acceptance not open, or every enabled tenant
held by function 3 or by the reset that follows a Facet fault. -/
def State.unavailable (s : State) : Bool :=
  let p := s.power
  let thermal := (p.throttle || p.holds.contains 2 || p.trip) && decide (p.inlet ≤ 240)
  let held := !s.tenants.isEmpty && s.tenants.all (fun j => (s.fn j).recover)
  if s.boot.phase == .running then
    !p.holds.contains 3 && (thermal || held || p.holds.contains 4 || !s.locusOpen || (p.state == 0 && !s.ioClocked 0))
  else decide (6 ≤ s.boot.cause) && s.boot.moduleFaults ≤ 1

end Sys2Proof.Machine
end

