-- ==== Sys2Proof/Machine/Side.lean ====
section
/-! DEFINITION. The management block over I3C (R509 to R511) and the DOE mailbox of PF0 (R376, R495, R497). -/

namespace Sys2Proof.Machine

/-- The 16 bytes of the management block (R511). -/
def State.block16 (s : State) : List Byte :=
  let p := s.power
  leBytes 4 0xC960A100 ++ leBytes 1 (p.state + 8 * p.hold) ++ leBytes 1 s.alert ++ leBytes 2 (min 4095 (p.volts / 25)) ++
  leBytes 2 (min 4095 p.watts) ++ leBytes 2 (min 1023 p.inlet) ++ leBytes 2 (min 1023 p.junction) ++ leBytes 2 0

/-- First byte and length of the field an offset lies in (R511). -/
def blockField (o : Nat) : Nat × Nat := if o < 4 then (0, 4) else if o < 6 then (o, 1) else (o / 2 * 2, 2)

/-- I3C_OFFSET_WRITE (R511). -/
def execI3cOffsetWrite (offset : Byte) (s : State) : Out := .next { s with side := { s.side with offset := offset.toNat % 16 } }

/-- One byte of an I3C read: a field is latched whole when its first byte is read; ID is a constant. -/
def State.i3cByte (s : State) : State × Byte :=
  let o := s.side.offset
  let (first, n) := blockField o
  let now := s.block16
  let latch := if o = first then (List.range n).foldl (fun l i => aput l (first + i) (now.getD (first + i) 0)) s.side.latch else s.side.latch
  ({ s with side := { s.side with offset := (o + 1) % 16, latch := latch } }, agetD latch o (if o < 4 then now.getD o 0 else 0))

/-- `n` bytes of an I3C read. -/
def State.i3cBytes (s : State) : Nat → State × List Byte
  | 0 => (s, [])
  | n + 1 =>
    let (s, b) := s.i3cByte
    let (s, l) := State.i3cBytes s n
    (s, b :: l)

/-- I3C_READ (R511). -/
def execI3cRead (count : Nat) (s : State) : Out :=
  let r := s.i3cBytes count
  .next (r.1.answer 3 s.side.offset r.2)

/-- RSTDAA (R510). -/
def execRstdaa (s : State) : Out := .next { s with side := { s.side with dynAddr := none } }

/-- A dynamic address is taken by a target that has none. -/
def State.takeAddress (s : State) (a : Nat) : State :=
  if s.side.dynAddr.isSome || 128 ≤ a then s else { s with side := { s.side with dynAddr := some a } }

def execEntdaa (addr : Nat) (s : State) : Out := .next (s.takeAddress addr)
def execSetdasa (addr : Nat) (s : State) : Out := .next (s.takeAddress addr)

/-- The answer to a directed CCC, which a target without a dynamic address does not give. -/
def State.ccc (s : State) (code : Nat) (bytes : List Byte) : State := if s.side.dynAddr.isNone then s else s.answer 5 code bytes

/-- GETPID (R510), most significant byte first. -/
def execGetpid (s : State) : Out :=
  let pid := Config.mipiCode.toNat * 2 ^ 33 + 0xC960 * 2 ^ 16 + Config.serialLow.toNat
  .next (s.ccc 0x8D (leBytes 6 pid).reverse)

def execGetbcr (s : State) : Out := .next (s.ccc 0x8E [Config.i3cByte 0])
def execGetdcr (s : State) : Out := .next (s.ccc 0x8F [Config.i3cByte 1])

/-- GETSTATUS (R510): two bytes of which the manual gives no value. -/
def execGetstatus (s : State) : Out :=
  if s.side.dynAddr.isNone then .next s
  else
    let (s, c) := s.free
    .next (s.ccc 0x90 (leBytes 2 (Config.freeWord c).toNat))

/-- The blocks a GET_MEASUREMENTS request selects: 255 all, else one index (R497). -/
def Boot.measurements (b : Boot) (sel : Nat) : List Byte :=
  let idx := if sel = 255 then (List.range 10).map (· + 1) else [sel]
  idx.flatMap (fun k => match b.measurement k with
    | none => []
    | some (raw, l) => leBytes 1 k ++ leBytes 1 1 ++ leBytes 2 (l.length + 3) ++ leBytes 1 (if raw then 0x80 + k else k) ++ leBytes 2 l.length ++ l)

/-- DOE_REQUEST (R376, R495, R497): MP answers the objects of DOE discovery, CMA/SPDM, secured CMA/SPDM and CDAT; others are
discarded. With IDENTITY 2, CHALLENGE, GET_MEASUREMENTS with signature and KEY_EXCHANGE are answered with ERROR,
Unspecified; a secured object needs a session that KEY_EXCHANGE opened, so IDE cannot be keyed then (R376, R495). Object and SPDM layouts are the standards' (log entry 11). -/
def execDoeRequest (object : List Byte) (s : State) : Out :=
  let vendor := byteField object 0 2
  let type := byteField object 2 1
  let known := (vendor == 1 && decide (type ≤ 2)) || (vendor == 0x1E98 && type == 2)
  if !s.side.cxlUp || !s.serves 0 || s.boot.phase != .running || !known || (vendor == 1 && type == 2 && !s.side.session) then .next s
  else
    let code := byteField object 9 1
    let spdm := vendor == 1 && type == 1
    let signed := code == 0x83 || code == 0xE4 || (code == 0xE0 && byteField object 10 1 % 2 == 1)
    let head := object.take 8
    if spdm && signed && s.boot.identity == 2 then
      .next (s.answer 4 type (head ++ [byteField object 8 1, 0x7F, 0x05, 0].map (BitVec.ofNat 8)))
    else
      let body := if spdm && code == 0xE0 then s.boot.measurements (byteField object 11 1) else []
      let s := if spdm && code == 0xE4 then { s with side := { s.side with session := true } }
        else if spdm && code == 0xEC then { s with side := { s.side with session := false } } else s
      .next (s.answer 4 type (head ++ body ++ Config.doeBody (object ++ body)))

end Sys2Proof.Machine
end

