-- ==== Sys2Proof/Machine/Dispatch.lean ====
section
/-! DEFINITION. exec: one arm for each command, one direct call of its meaning. -/

namespace Sys2Proof.Machine

def exec (i : Instr) (s : State) : Host.Outcome State Fault Refusal :=
  match i with
  | .mov f slot => Sys2Proof.Machine.execMov f slot s
  | .movs f slot => Sys2Proof.Machine.execMovs f slot s
  | .iadd f slot => Sys2Proof.Machine.execIadd f slot s
  | .isub f slot => Sys2Proof.Machine.execIsub f slot s
  | .imul f slot => Sys2Proof.Machine.execImul f slot s
  | .imulh f slot => Sys2Proof.Machine.execImulh f slot s
  | .imad f slot => Sys2Proof.Machine.execImad f slot s
  | .imin f slot => Sys2Proof.Machine.execImin f slot s
  | .imax f slot => Sys2Proof.Machine.execImax f slot s
  | .iabs f slot => Sys2Proof.Machine.execIabs f slot s
  | .and f slot => Sys2Proof.Machine.execAnd f slot s
  | .or f slot => Sys2Proof.Machine.execOr f slot s
  | .xor f slot => Sys2Proof.Machine.execXor f slot s
  | .not f slot => Sys2Proof.Machine.execNot f slot s
  | .shl f slot => Sys2Proof.Machine.execShl f slot s
  | .shr f slot => Sys2Proof.Machine.execShr f slot s
  | .sar f slot => Sys2Proof.Machine.execSar f slot s
  | .popc f slot => Sys2Proof.Machine.execPopc f slot s
  | .clz f slot => Sys2Proof.Machine.execClz f slot s
  | .icmp f slot => Sys2Proof.Machine.execIcmp f slot s
  | .sel f slot => Sys2Proof.Machine.execSel f slot s
  | .iadd64 f slot => Sys2Proof.Machine.execIadd64 f slot s
  | .imad64 f slot => Sys2Proof.Machine.execImad64 f slot s
  | .fadd f slot => Sys2Proof.Machine.execFadd f slot s
  | .fmul f slot => Sys2Proof.Machine.execFmul f slot s
  | .ffma f slot => Sys2Proof.Machine.execFfma f slot s
  | .fmin f slot => Sys2Proof.Machine.execFmin f slot s
  | .fmax f slot => Sys2Proof.Machine.execFmax f slot s
  | .fcmp f slot => Sys2Proof.Machine.execFcmp f slot s
  | .fabs f slot => Sys2Proof.Machine.execFabs f slot s
  | .rcp f slot => Sys2Proof.Machine.execRcp f slot s
  | .rsq f slot => Sys2Proof.Machine.execRsq f slot s
  | .sqrt f slot => Sys2Proof.Machine.execSqrt f slot s
  | .exp2 f slot => Sys2Proof.Machine.execExp2 f slot s
  | .log2 f slot => Sys2Proof.Machine.execLog2 f slot s
  | .sin f slot => Sys2Proof.Machine.execSin f slot s
  | .cos f slot => Sys2Proof.Machine.execCos f slot s
  | .exp f slot => Sys2Proof.Machine.execExp f slot s
  | .act f slot => Sys2Proof.Machine.execAct f slot s
  | .actd f slot => Sys2Proof.Machine.execActd f slot s
  | .cvt f slot => Sys2Proof.Machine.execCvt f slot s
  | .i2i f slot => Sys2Proof.Machine.execI2i f slot s
  | .shfl f slot => Sys2Proof.Machine.execShfl f slot s
  | .shflP f slot => Sys2Proof.Machine.execShflP f slot s
  | .bswz f slot => Sys2Proof.Machine.execBswz f slot s
  | .pack f slot => Sys2Proof.Machine.execPack f slot s
  | .unpk f slot => Sys2Proof.Machine.execUnpk f slot s
  | .vote f slot => Sys2Proof.Machine.execVote f slot s
  | .ld f slot => Sys2Proof.Machine.execLd f slot s
  | .lds f slot => Sys2Proof.Machine.execLds f slot s
  | .st f slot => Sys2Proof.Machine.execSt f slot s
  | .hint f slot => Sys2Proof.Machine.execHint f slot s
  | .atom f slot => Sys2Proof.Machine.execAtom f slot s
  | .acq f slot => Sys2Proof.Machine.execAcq f slot s
  | .rel f slot => Sys2Proof.Machine.execRel f slot s
  | .fence f slot => Sys2Proof.Machine.execFence f slot s
  | .bra f slot => Sys2Proof.Machine.execBra f slot s
  | .exit f slot => Sys2Proof.Machine.execExit f slot s
  | .groupSlotRelease f slot => Sys2Proof.Machine.execGroupSlotRelease f slot s
  | .joinWait f slot => Sys2Proof.Machine.execJoinWait f slot s
  | .joinPass f slot => Sys2Proof.Machine.execJoinPass f slot s
  | .trap f slot => Sys2Proof.Machine.execTrap f slot s
  | .fretRetry f slot => Sys2Proof.Machine.execFretRetry f slot s
  | .fretSkip f slot => Sys2Proof.Machine.execFretSkip f slot s
  | .fretAbort f slot => Sys2Proof.Machine.execFretAbort f slot s
  | .nop f slot => Sys2Proof.Machine.execNop f slot s
  | .tmLd f slot => Sys2Proof.Machine.execTmLd f slot s
  | .tmSt f slot => Sys2Proof.Machine.execTmSt f slot s
  | .tmWait f slot => Sys2Proof.Machine.execTmWait f slot s
  | .tmLineRequest f => Sys2Proof.Machine.execTmLineRequest f s
  | .mmaH f slot => Sys2Proof.Machine.execMmaH f slot s
  | .mmaB f slot => Sys2Proof.Machine.execMmaB f slot s
  | .mmaQ f slot => Sys2Proof.Machine.execMmaQ f slot s
  | .mmaF f slot => Sys2Proof.Machine.execMmaF f slot s
  | .mmaSr f slot => Sys2Proof.Machine.execMmaSr f slot s
  | .mmaSw f slot => Sys2Proof.Machine.execMmaSw f slot s
  | .prismAccept f q => Sys2Proof.Machine.execPrismAccept f q s
  | .prismLastBeat f q => Sys2Proof.Machine.execPrismLastBeat f q s
  | .outputStageAccept f q => Sys2Proof.Machine.execOutputStageAccept f q s
  | .opcRequestAged f client bank write => Sys2Proof.Machine.execOpcRequestAged f client bank write s
  | .redg f slot => Sys2Proof.Machine.execRedg f slot s
  | .redb f slot => Sys2Proof.Machine.execRedb f slot s
  | .redR f slot => Sys2Proof.Machine.execRedR f slot s
  | .old f slot => Sys2Proof.Machine.execOld f slot s
  | .ost f slot => Sys2Proof.Machine.execOst f slot s
  | .vectorPortServe f => Sys2Proof.Machine.execVectorPortServe f s
  | .rduAccept f => Sys2Proof.Machine.execRduAccept f s
  | .blockDispatch launch => Sys2Proof.Machine.execBlockDispatch launch s
  | .progressStall f slot => Sys2Proof.Machine.execProgressStall f slot s
  | .lineDataReturn req => Sys2Proof.Machine.execLineDataReturn req s
  | .storeAck req => Sys2Proof.Machine.execStoreAck req s
  | .facetFault f => Sys2Proof.Machine.execFacetFault f s
  | .dbgHalt => Sys2Proof.Machine.execDbgHalt s
  | .haltTakesEffect f slot => Sys2Proof.Machine.execHaltTakesEffect f slot s
  | .dbgResume => Sys2Proof.Machine.execDbgResume s
  | .dbgStep => Sys2Proof.Machine.execDbgStep s
  | .dbgDataRead => Sys2Proof.Machine.execDbgDataRead s
  | .dbgDataWrite v => Sys2Proof.Machine.execDbgDataWrite v s
  | .dbgEnableWrite v => Sys2Proof.Machine.execDbgEnableWrite v s
  | .hullRequestAccept req tag way => Sys2Proof.Machine.execHullRequestAccept req tag way s
  | .hullRepresent req => Sys2Proof.Machine.execHullRepresent req s
  | .fillSectorArrival line sector => Sys2Proof.Machine.execFillSectorArrival line sector s
  | .agentRead addr len => Sys2Proof.Machine.execAgentRead addr len s
  | .agentWrite addr bytes => Sys2Proof.Machine.execAgentWrite addr bytes s
  | .pinCmdPin j => Sys2Proof.Machine.execPinCmdPin j s
  | .pinCmdUnpin j => Sys2Proof.Machine.execPinCmdUnpin j s
  | .pinCmdRun => Sys2Proof.Machine.execPinCmdRun s
  | .tgPeriodEnd j => Sys2Proof.Machine.execTgPeriodEnd j s
  | .hullQuotaWrite j v => Sys2Proof.Machine.execHullQuotaWrite j v s
  | .hullTgCfgWrite j v => Sys2Proof.Machine.execHullTgCfgWrite j v s
  | .sinkWrite k pc => Sys2Proof.Machine.execSinkWrite k pc s
  | .serviceWindowStart k pc writes => Sys2Proof.Machine.execServiceWindowStart k pc writes s
  | .demandRead k pc noise => Sys2Proof.Machine.execDemandRead k pc noise s
  | .scrubStep k pc noise => Sys2Proof.Machine.execScrubStep k pc noise s
  | .refresh k pc bank => Sys2Proof.Machine.execRefresh k pc bank s
  | .refreshRateChange k celsius => Sys2Proof.Machine.execRefreshRateChange k celsius s
  | .rowRemapStart k pc bank row => Sys2Proof.Machine.execRowRemapStart k pc bank row s
  | .remapCopyDone k pc => Sys2Proof.Machine.execRemapCopyDone k pc s
  | .nmaApply k pc => Sys2Proof.Machine.execNmaApply k pc s
  | .memVerifyWrite v => Sys2Proof.Machine.execMemVerifyWrite v s
  | .hbmInjectWrite v => Sys2Proof.Machine.execHbmInjectWrite v s
  | .portTraining p => Sys2Proof.Machine.execPortTraining p s
  | .trainingComplete p ok partner grant => Sys2Proof.Machine.execTrainingComplete p ok partner grant s
  | .dataFlit p bytes fec => Sys2Proof.Machine.execDataFlit p bytes fec s
  | .idleFlit p bytes fec => Sys2Proof.Machine.execIdleFlit p bytes fec s
  | .retryReq p bytes fec => Sys2Proof.Machine.execRetryReq p bytes fec s
  | .flitTransmit p => Sys2Proof.Machine.execFlitTransmit p s
  | .egressAccept n => Sys2Proof.Machine.execEgressAccept n s
  | .portDown p => Sys2Proof.Machine.execPortDown p s
  | .positionClaim p => Sys2Proof.Machine.execPositionClaim p s
  | .portUp p => Sys2Proof.Machine.execPortUp p s
  | .rdReq p => Sys2Proof.Machine.execRdReq p s
  | .wrReq p => Sys2Proof.Machine.execWrReq p s
  | .ingressWriteAccept p => Sys2Proof.Machine.execIngressWriteAccept p s
  | .nmaReq p => Sys2Proof.Machine.execNmaReq p s
  | .rdResp p => Sys2Proof.Machine.execRdResp p s
  | .ack p => Sys2Proof.Machine.execAck p s
  | .coll p => Sys2Proof.Machine.execColl p s
  | .ckpt p => Sys2Proof.Machine.execCkpt p s
  | .linkSilenceTimeout p => Sys2Proof.Machine.execLinkSilenceTimeout p s
  | .laneSignalLoss p lane => Sys2Proof.Machine.execLaneSignalLoss p lane s
  | .failoverDecision p => Sys2Proof.Machine.execFailoverDecision p s
  | .retrainAttempt p => Sys2Proof.Machine.execRetrainAttempt p s
  | .portCmdRetrainFull p => Sys2Proof.Machine.execPortCmdRetrainFull p s
  | .portCmdRetrainReduced p => Sys2Proof.Machine.execPortCmdRetrainReduced p s
  | .portCmdKeepOut p => Sys2Proof.Machine.execPortCmdKeepOut p s
  | .chordFnPosWrite j v => Sys2Proof.Machine.execChordFnPosWrite j v s
  | .collTimeout j g => Sys2Proof.Machine.execCollTimeout j g s
  | .remoteTimeout j tag => Sys2Proof.Machine.execRemoteTimeout j tag s
  | .windowWrite j addr size v => Sys2Proof.Machine.execWindowWrite j addr size v s
  | .cxlMemRead addr cache => Sys2Proof.Machine.execCxlMemRead addr cache s
  | .cxlMemWrite addr bytes mask poison => Sys2Proof.Machine.execCxlMemWrite addr bytes mask poison s
  | .birsp addr dirty => Sys2Proof.Machine.execBirsp addr dirty s
  | .frontEndWake j => Sys2Proof.Machine.execFrontEndWake j s
  | .launch j r => Sys2Proof.Machine.execLaunch j r s
  | .codeLoad j r => Sys2Proof.Machine.execCodeLoad j r s
  | .drain j r => Sys2Proof.Machine.execDrain j r s
  | .allreduce j r => Sys2Proof.Machine.execAllreduce j r s
  | .reduceScatter j r => Sys2Proof.Machine.execReduceScatter j r s
  | .allgather j r => Sys2Proof.Machine.execAllgather j r s
  | .alltoall j r => Sys2Proof.Machine.execAlltoall j r s
  | .broadcast j r => Sys2Proof.Machine.execBroadcast j r s
  | .send j r => Sys2Proof.Machine.execSend j r s
  | .recv j r => Sys2Proof.Machine.execRecv j r s
  | .lowrank j r => Sys2Proof.Machine.execLowrank j r s
  | .lowrankCont j r => Sys2Proof.Machine.execLowrankCont j r s
  | .remoteRd j r => Sys2Proof.Machine.execRemoteRd j r s
  | .remoteWr j r => Sys2Proof.Machine.execRemoteWr j r s
  | .remoteNma j r => Sys2Proof.Machine.execRemoteNma j r s
  | .mark j r => Sys2Proof.Machine.execMark j r s
  | .lower j r => Sys2Proof.Machine.execLower j r s
  | .launchComplete launch => Sys2Proof.Machine.execLaunchComplete launch s
  | .codeLoadComplete j r seq => Sys2Proof.Machine.execCodeLoadComplete j r seq s
  | .drainComplete j => Sys2Proof.Machine.execDrainComplete j s
  | .lowerComplete j r seq => Sys2Proof.Machine.execLowerComplete j r seq s
  | .locusCfgWrite j r v => Sys2Proof.Machine.execLocusCfgWrite j r v s
  | .hifSelectWrite j v => Sys2Proof.Machine.execHifSelectWrite j v s
  | .tenEnable j => Sys2Proof.Machine.execTenEnable j s
  | .tenDisable j => Sys2Proof.Machine.execTenDisable j s
  | .tenCtrlReset j => Sys2Proof.Machine.execTenCtrlReset j s
  | .tenSelfReset j => Sys2Proof.Machine.execTenSelfReset j s
  | .flrVf j => Sys2Proof.Machine.execFlrVf j s
  | .flrPf0 => Sys2Proof.Machine.execFlrPf0 s
  | .tenantResetComplete j => Sys2Proof.Machine.execTenantResetComplete j s
  | .srSeedHiWrite j v => Sys2Proof.Machine.execSrSeedHiWrite j v s
  | .drainAbortStore j => Sys2Proof.Machine.execDrainAbortStore j s
  | .pageProgramDone j pass => Sys2Proof.Machine.execPageProgramDone j pass s
  | .storeScrubPass => Sys2Proof.Machine.execStoreScrubPass s
  | .gnGenSelWrite v => Sys2Proof.Machine.execGnGenSelWrite v s
  | .gnRestore v => Sys2Proof.Machine.execGnRestore v s
  | .gnRestoreCancel => Sys2Proof.Machine.execGnRestoreCancel s
  | .restoreComplete => Sys2Proof.Machine.execRestoreComplete s
  | .decisionWaitExpire fn subject => Sys2Proof.Machine.execDecisionWaitExpire fn subject s
  | .decAnswerWrite v => Sys2Proof.Machine.execDecAnswerWrite v s
  | .tenantRecoveryReset j => Sys2Proof.Machine.execTenantRecoveryReset j s
  | .spareTakeWrite v => Sys2Proof.Machine.execSpareTakeWrite v s
  | .edgeUeRateExceeded => Sys2Proof.Machine.execEdgeUeRateExceeded s
  | .moduleFault => Sys2Proof.Machine.execModuleFault s
  | .lifePersist => Sys2Proof.Machine.execLifePersist s
  | .lifeSample => Sys2Proof.Machine.execLifeSample s
  | .lifeSelWrite v => Sys2Proof.Machine.execLifeSelWrite v s
  | .xtalStable => Sys2Proof.Machine.execXtalStable s
  | .xtalTimeout => Sys2Proof.Machine.execXtalTimeout s
  | .xtalLoss => Sys2Proof.Machine.execXtalLoss s
  | .pllLock pll => Sys2Proof.Machine.execPllLock pll s
  | .pllUnlock pll => Sys2Proof.Machine.execPllUnlock pll s
  | .originRelockTimeout die => Sys2Proof.Machine.execOriginRelockTimeout die s
  | .chordRefclkLoss => Sys2Proof.Machine.execChordRefclkLoss s
  | .refclkLoss => Sys2Proof.Machine.execRefclkLoss s
  | .pllRetune island n mv => Sys2Proof.Machine.execPllRetune island n mv s
  | .junctionThrottle junction die => Sys2Proof.Machine.execJunctionThrottle junction die s
  | .throttleRelease junction die => Sys2Proof.Machine.execThrottleRelease junction die s
  | .junctionTrip junction die => Sys2Proof.Machine.execJunctionTrip junction die s
  | .inletLimit inlet => Sys2Proof.Machine.execInletLimit inlet s
  | .thermalRelease junction die inlet => Sys2Proof.Machine.execThermalRelease junction die inlet s
  | .fastCurrentClamp ma => Sys2Proof.Machine.execFastCurrentClamp ma s
  | .clampRelease ma => Sys2Proof.Machine.execClampRelease ma s
  | .limiterPeriod meanW maxMa capW => Sys2Proof.Machine.execLimiterPeriod meanW maxMa capW s
  | .windowPeriod meanW => Sys2Proof.Machine.execWindowPeriod meanW s
  | .levelWindowEnd meanW => Sys2Proof.Machine.execLevelWindowEnd meanW s
  | .ppHeartbeat => Sys2Proof.Machine.execPpHeartbeat s
  | .ppHeartbeatTimeout => Sys2Proof.Machine.execPpHeartbeatTimeout s
  | .deratingStep inlet => Sys2Proof.Machine.execDeratingStep inlet s
  | .supplyWarning mv => Sys2Proof.Machine.execSupplyWarning mv s
  | .supplyRelease mv => Sys2Proof.Machine.execSupplyRelease mv s
  | .nRampStep => Sys2Proof.Machine.execNRampStep s
  | .supplyHold => Sys2Proof.Machine.execSupplyHold s
  | .supplyReset mv => Sys2Proof.Machine.execSupplyReset mv s
  | .pwrCmdP0 => Sys2Proof.Machine.execPwrCmdP0 s
  | .pwrCmdS1 => Sys2Proof.Machine.execPwrCmdS1 s
  | .pwrCmdS2 => Sys2Proof.Machine.execPwrCmdS2 s
  | .powerEntryComplete => Sys2Proof.Machine.execPowerEntryComplete s
  | .wakeSense => Sys2Proof.Machine.execWakeSense s
  | .inletWake inlet => Sys2Proof.Machine.execInletWake inlet s
  | .wakeComplete => Sys2Proof.Machine.execWakeComplete s
  | .gateCmdWrite v => Sys2Proof.Machine.execGateCmdWrite v s
  | .levelCfgWrite v => Sys2Proof.Machine.execLevelCfgWrite v s
  | .supplyFirst47v => Sys2Proof.Machine.execSupplyFirst47v s
  | .inrushLimitEnd => Sys2Proof.Machine.execInrushLimitEnd s
  | .modResetAssert => Sys2Proof.Machine.execModResetAssert s
  | .modResetRelease => Sys2Proof.Machine.execModResetRelease s
  | .hostPerstAssert => Sys2Proof.Machine.execHostPerstAssert s
  | .hostPerstRelease => Sys2Proof.Machine.execHostPerstRelease s
  | .warmEntryComplete => Sys2Proof.Machine.execWarmEntryComplete s
  | .startComplete x => Sys2Proof.Machine.execStartComplete x s
  | .procCrash proc kind => Sys2Proof.Machine.execProcCrash proc kind s
  | .procRestart proc => Sys2Proof.Machine.execProcRestart proc s
  | .fwStage slot => Sys2Proof.Machine.execFwStage slot s
  | .fwStageComplete => Sys2Proof.Machine.execFwStageComplete s
  | .fwActivate => Sys2Proof.Machine.execFwActivate s
  | .handoverPhaseDone => Sys2Proof.Machine.execHandoverPhaseDone s
  | .fwCommitSvn => Sys2Proof.Machine.execFwCommitSvn s
  | .fwRecoveryBegin slot => Sys2Proof.Machine.execFwRecoveryBegin slot s
  | .fwDataWrite v => Sys2Proof.Machine.execFwDataWrite v s
  | .fwRecoveryEnd => Sys2Proof.Machine.execFwRecoveryEnd s
  | .resetCtrlWarm => Sys2Proof.Machine.execResetCtrlWarm s
  | .resetCtrlCold => Sys2Proof.Machine.execResetCtrlCold s
  | .resetCtrlFacet die mm => Sys2Proof.Machine.execResetCtrlFacet die mm s
  | .resetCtrlPort p => Sys2Proof.Machine.execResetCtrlPort p s
  | .logSelWrite v => Sys2Proof.Machine.execLogSelWrite v s
  | .i3cOffsetWrite offset => Sys2Proof.Machine.execI3cOffsetWrite offset s
  | .i3cRead count => Sys2Proof.Machine.execI3cRead count s
  | .rstdaa => Sys2Proof.Machine.execRstdaa s
  | .entdaa addr => Sys2Proof.Machine.execEntdaa addr s
  | .setdasa addr => Sys2Proof.Machine.execSetdasa addr s
  | .getpid => Sys2Proof.Machine.execGetpid s
  | .getbcr => Sys2Proof.Machine.execGetbcr s
  | .getdcr => Sys2Proof.Machine.execGetdcr s
  | .getstatus => Sys2Proof.Machine.execGetstatus s
  | .unassignedOpcode f slot => Sys2Proof.Machine.execUnassignedOpcode f slot s
  | .fetchPastRange f slot => Sys2Proof.Machine.execFetchPastRange f slot s
  | .cxlLinkUp => Sys2Proof.Machine.execCxlLinkUp s
  | .doeRequest object => Sys2Proof.Machine.execDoeRequest object s
  | .windowBadSizeRead j addr size => Sys2Proof.Machine.execWindowBadSizeRead j addr size s
  | .procRestartTimeout proc => Sys2Proof.Machine.execProcRestartTimeout proc s
  | .blockEraseDone die plane block pass => Sys2Proof.Machine.execBlockEraseDone die plane block pass s
  | .pageReadDone die plane block page retries corrected bad => Sys2Proof.Machine.execPageReadDone die plane block page retries corrected bad s

end Sys2Proof.Machine
end

