-- ==== Sys2Proof/Machine/Tick.lean ====
section
/-! DEFINITION. One always-on island cycle (log entry 2): what the passing of time alone changes (R9, R73, R75, R404, R422). -/

namespace Sys2Proof.Machine

/-- Time passes for a Facet, in 64ths of a half cycle; what is no whole half cycle yet is carried on (R456). The progress counters
of its groups count the half cycles (R73, R75): they stand while a group of the block is halted by the debugger. -/
def Facet.tick (x : Facet) (parts : Nat) : Facet :=
  let n := (x.parts + parts) / 64
  let frozen (b : Nat) : Bool := x.groups.any (fun e => e.2.block == b && e.2.halt == .halted)
  { x with
    half := x.half + n, parts := (x.parts + parts) % 64
    groups := x.groups.map (fun (e : Nat × Group) =>
      (e.1, if e.2.done || frozen e.2.block then e.2 else { e.2 with progress := e.2.progress + n })) }

/-- Facets whose clock runs: a unit of 62.5 MHz is 5 half cycles in an always-on island cycle (R456). -/
def State.tickFacets (s : State) : State :=
  { s with facets := s.facets.map (fun (e : Nat × Facet) =>
      (e.1, if s.facetRuns e.1 then e.2.tick (5 * s.facetRate (e.1 / 52)) else e.2)) }

/-- One always-on island cycle. -/
def State.tick (s : State) : State :=
  let out := s.unavailable
  let s := { s with now := s.now + 1 }.life! 0x110 1
  let s := if out then (s.count 0 Reg.avail 31 0 1).life! 0x111 1 else s
  s.tickFacets

end Sys2Proof.Machine
end

