-- ==== Sys2Proof/Safety.lean ====
section
/-! DEFINITION. What counts as a safe state and a safe run of the block, and the terms the statements use: a group about to
issue an instruction, and what stays as it was. -/

namespace Sys2Proof.Machine

/-- A Facet's memories and tables are in canonical form: its code store, the OPC of each block, and the registers of each group
with the states of its lanes' random numbers. -/
def Facet.tablesWf (x : Facet) : Bool :=
  Memory.wf x.code && x.blocks.all (fun b => Memory.wf b.2.opc) &&
  x.groups.all (fun g => tableWf 32 g.2.v && tableWf 32 g.2.u && tableWf 32 g.2.lfsr)

/-- The memories and tables a state holds are in canonical form: the HBM cells, the Hull's lines, the lifetime counters with their
two copies in the system area, the store's erase and read counts, and those of every Facet. -/
def State.memoryWf (s : State) : Bool :=
  Memory.wf s.hbm.cells && Memory.wf s.hull.data && tableWf 64 s.life.live && tableWf 64 s.store.areaA.life && tableWf 64 s.store.areaB.life &&
  tableWf 16 s.store.erases && tableWf 32 s.store.reads && s.facets.all (fun e => e.2.tablesWf)

/-- A run of `n` steps from `s` that never stops ends in `t`. -/
def runsTo : Nat → State → State → Prop
  | 0, s, t => s = t
  | n + 1, s, t => ∃ u, step s = .next u ∧ runsTo n u t

/-- Group `g` in a slot is about to issue instruction `i` (R43, R97, R104): it is resident and waits for nothing, its Facet is
clocked, its offset holds `i` and lies in its range, its progress counter is below the limit (R74), no earlier instruction owes
registers `vs` and `us` or has still to read one of the vector registers `ds` it writes, and no deferred fault waits on
registers `dv` (R127). -/
structure Issuing (s : State) (f slot : Nat) (g : Group) (i : Ins) (vs us dv ds : List Nat) : Prop where
  resident : s.group? f slot = some g
  free : g.canIssue = true
  clocked : s.facetRuns f = true
  inside : s.inCode g g.pc = true
  fetched : s.fetchIns f g = some i
  second : i.fmt = 4 → s.inCode g (g.pc + 8) = true
  within : s.stallDue g = false
  paid : g.owes vs us = false
  taken : g.unread ds = false
  quiet : g.lanes i ≠ 0 → ∀ d ∈ g.deferred, d.vregs.any dv.contains = false

/-- The same where the fetch corrects no word of the code store (R325). -/
structure AtIssue (s : State) (f slot : Nat) (g : Group) (i : Ins) (vs us dv : List Nat) (ds : List Nat := []) : Prop
    extends Issuing s f slot g i vs us dv ds where
  intact : s.codeFixes f g i = 0

/-- At a FENCE, JOIN or EXIT (R127): with lanes that execute it, no deferred fault waits, and no load that may leave one is
outstanding. -/
def AtPoint (s : State) (g : Group) (i : Ins) : Prop :=
  g.lanes i ≠ 0 → g.deferred = [] ∧ (s.trapsOn g.vf = true → ∀ w ∈ g.writes, w.traps = false)

/-- Only the group of a slot differs, with the OPC of its block: memory, the window registers, the other groups and Facets
and everything else are as they were. -/
structure OnlyGroup (s t : State) (f slot : Nat) : Prop where
  rest : t = { s with facets := t.facets }
  facets : ∀ k, k ≠ f → t.facet k = s.facet k
  groups : ∀ k, k ≠ slot → t.group? f k = s.group? f k
  code : (t.facet f).code = (s.facet f).code
  blocks : ∀ b x, s.block? f b = some x → ∃ m, t.block? f b = some { x with opc := m }

/-- The registers of an ALU instruction: what must be paid (R104), what deferred faults wait on (R127). -/
def AluAtIssue (s : State) (f slot : Nat) (g : Group) (i : Ins) (h : Shape) : Prop :=
  let src := regSets (h.sources i)
  let dst := if h.dest = 0 then ([], []) else regSets [h.target i]
  AtIssue s f slot g i (src.1 ++ dst.1) (src.2 ++ dst.2) src.1 dst.1

/-- The next state of an ALU instruction that gives each of its lanes a value (R99, R102): the destination written in those
lanes, a place in the queue of the vector port where it has Ralelle operands and instructions wait there (R230), the group at
its next instruction, settled at its reconvergence point. -/
def aluResult (s : State) (f slot : Nat) (g : Group) (i : Ins) (h : Shape) (imm : Nat) (value : Lane → Nat) : State :=
  let r := writeAll s f g h i ((aluLanes g i (h.dest != 0 && i.ud)).map (fun l => (l, value (readLane s f g h i imm l))))
  (r.1.takePort f slot g i (h.sources i) (if h.dest = 0 then [] else [h.target i])).afterIssue f slot (r.2.next i)

/-- An instruction whose lane result is a function of 32-bit operands: its command, opcode, operands and rule. -/
structure WordRule where
  cmd : Nat → Nat → Instr
  op : Nat
  shape : Shape
  rule : Ins → Word → Word → Word → Word

/-- The number of ones of a word, bit by bit. -/
def countOnes (x : Word) : Nat := (List.range 32).countP (fun k => x.getLsbD k)

/-- The number of zeros above the highest one of a word. -/
def leadingZeros (x : Word) : Nat := ((List.range 32).find? (fun k => x.getLsbD (31 - k))).getD 32

/-- The one-result instructions of R107. TYPE 1 is S32. -/
def wordRules : List WordRule :=
  [⟨.mov, 0x00, { a := 1 }, fun _ a _ _ => a⟩,
   ⟨.iadd, 0x02, { a := 1, b := 1 }, fun _ a b _ => a + b⟩,
   ⟨.isub, 0x03, { a := 1, b := 1 }, fun _ a b _ => a - b⟩,
   ⟨.imul, 0x04, { a := 1, b := 1 }, fun _ a b _ => a * b⟩,
   ⟨.imulh, 0x05, { a := 1, b := 1 }, fun i a b _ =>
      if i.type = 1 then (a.signExtend 64 * b.signExtend 64).extractLsb' 32 32
      else (a.setWidth 64 * b.setWidth 64).extractLsb' 32 32⟩,
   ⟨.imad, 0x06, { a := 1, b := 1, c := 1 }, fun _ a b c => a * b + c⟩,
   ⟨.imin, 0x07, { a := 1, b := 1 }, fun i a b _ => if (if i.type = 1 then b.slt a else b.ult a) then b else a⟩,
   ⟨.imax, 0x08, { a := 1, b := 1 }, fun i a b _ => if (if i.type = 1 then a.slt b else a.ult b) then b else a⟩,
   ⟨.iabs, 0x09, { a := 1 }, fun _ a _ _ => if a.msb then -a else a⟩,
   ⟨.and, 0x0A, { a := 1, b := 1 }, fun _ a b _ => a &&& b⟩,
   ⟨.or, 0x0B, { a := 1, b := 1 }, fun _ a b _ => a ||| b⟩,
   ⟨.xor, 0x0C, { a := 1, b := 1 }, fun _ a b _ => a ^^^ b⟩,
   ⟨.not, 0x0D, { a := 1 }, fun _ a _ _ => ~~~a⟩,
   ⟨.shl, 0x0E, { a := 1, b := 1 }, fun _ a b _ => a <<< (b.toNat % 32)⟩,
   ⟨.shr, 0x0F, { a := 1, b := 1 }, fun _ a b _ => a >>> (b.toNat % 32)⟩,
   ⟨.sar, 0x10, { a := 1, b := 1 }, fun _ a b _ => a.sshiftRight (b.toNat % 32)⟩,
   ⟨.popc, 0x11, { a := 1 }, fun _ a _ _ => BitVec.ofNat 32 (countOnes a)⟩,
   ⟨.clz, 0x12, { a := 1 }, fun _ a _ _ => BitVec.ofNat 32 (leadingZeros a)⟩]

/-- An instruction whose lane result is a function of its lane's values: its command, opcode, operands, own encoding rule,
immediate and rule. -/
structure LaneRule where
  cmd : Nat → Nat → Instr
  op : Nat
  shape : Ins → Shape
  own : Ins → Bool
  imm : Ins → Nat
  rule : Ins → Lane → Nat

/-- The floating-point instructions of R108 with a register result: one rounding of the exact sum, product or fused
product; the larger, the smaller; the magnitude. -/
def floatRules : List LaneRule :=
  let two (i : Ins) : Shape := { a := fspan i, b := fspan i, dest := fspan i }
  let own (i : Ins) : Bool := floatType i && decide (i.mod ≤ 3)
  [⟨.fadd, 0x20, two, own, immFloat, fun i l => floatLane i (fun k a b _ => k.round i.mod false (sumVals i.mod [k.decode a, k.decode b])) l⟩,
   ⟨.fmul, 0x21, two, own, immFloat, fun i l => floatLane i (fun k a b _ => k.round i.mod false ((k.decode a).mul (k.decode b))) l⟩,
   ⟨.ffma, 0x22, fun i => { a := fspan i, b := fspan i, c := fspan i, dest := fspan i }, own, immFloat,
    fun i l => floatLane i (fun k a b c => k.round i.mod false (sumVals i.mod [(k.decode a).mul (k.decode b), k.decode c])) l⟩,
   ⟨.fmin, 0x23, two, own, immFloat, fun i l => floatLane i (fun k a b _ => k.minOf a b) l⟩,
   ⟨.fmax, 0x24, two, own, immFloat, fun i l => floatLane i (fun k a b _ => k.maxOf a b) l⟩,
   ⟨.fabs, 0x26, fun i => { a := fspan i, dest := fspan i }, own, immFloat, fun i l => floatLane i (fun k a _ _ => k.abs a) l⟩]

/-- The special functions of R110 and R111, each with the function that gives a lane's bits. -/
def specialRules : List LaneRule :=
  let one : Ins → Shape := fun _ => { a := 1 }
  let own (i : Ins) : Bool := ownSpecial i && !i.isI
  let zero : Ins → Nat := fun _ => 0
  [⟨.rcp, 0x40, one, own, zero, fun _ l => rcp32 l.a⟩,
   ⟨.rsq, 0x41, one, own, zero, fun _ l => special 0x410 negative true (fun x => Special.near 1 (Special.rsqrt x)) l.a⟩,
   ⟨.sqrt, 0x42, one, own, zero, fun _ l => sqrt32 l.a⟩,
   ⟨.exp2, 0x43, one, own, zero, fun _ l => special 0x430 (fun _ => false) false
      (fun x => Special.near 2 (Special.exp (Special.mul x Special.ln2))) l.a⟩,
   ⟨.log2, 0x44, one, own, zero, fun _ l =>
      if f32.decode l.a == .nan || negative (f32.decode l.a) then f32.nanBits
      else log2Value l.a (Config.sfun 0x440 (BitVec.ofNat 32 l.a))⟩,
   ⟨.sin, 0x45, one, own, zero, fun _ l => special 0x450 infinite false (fun x => Special.nearTrig x (Special.sin x)) l.a⟩,
   ⟨.cos, 0x46, one, own, zero, fun _ l => special 0x460 infinite false (fun x => Special.nearTrig x (Special.cos x)) l.a⟩,
   ⟨.exp, 0x47, one, own, zero, fun _ l => expValue l.a⟩,
   ⟨.act, 0x48, fun i => { a := 1, c := if i.mod = 3 then 1 else 0 },
    fun i => i.type == 2 && decide (i.mod ≤ 8) && i.ext3 == 0 && !i.isI && i.b == 0 && !i.ub &&
      (i.mod == 3 || (i.c == 0 && !i.uc)), zero, fun i l => actValue i.mod l.a l.c⟩,
   ⟨.actd, 0x49, fun i => { a := 1, b := 1, c := if i.mod = 3 then 1 else 0 },
    fun i => i.type == 2 && decide (i.mod ≤ 8) && i.ext3 % 4 == 0 && !i.isI && (i.mod == 3 || (i.c == 0 && !i.uc)) &&
      (decide (i.mod ≤ 6) || i.w0.getLsbD 2), zero,
    fun i l => bf16.round 0 false (f32.decode (f32.mul 0 (widenBf16 l.b).toNat (derivative i.mod l.a l.c (i.w0.getLsbD 2))))⟩]

/-- Byte `k` of a 32-bit value. -/
def byteOf (x k : Nat) : Nat := x / 256 ^ k % 256

/-- The moves and conversions of R112, R113 and R530 whose lanes are independent. -/
def moveRules : List LaneRule :=
  [⟨.i2i, 0x51, fun _ => { a := 1, formats := [0] },
    fun i => (intOf i.type).isSome && (intOf i.b).isSome && !i.ub && i.ext3 == 0 && decide (i.mod % 8 ≤ 3), fun _ => 0,
    fun i l => i2i i.b i.type (i.w0.getLsbD 43) (l.a % 2 ^ typeBits i.b)⟩,
   ⟨.bswz, 0x5A, fun _ => { a := 1, b := 1, dsrc := 1 },
    fun i => i.type == 0 && i.mod == 0 && i.ext3 == 0 && (!i.isI || decide (i.imm < 4096)), fun i => i.imm,
    fun _ l => leNat ((List.range 4).map (fun k => BitVec.ofNat 8 (
      match l.b / 8 ^ k % 8 with
      | 4 => 0
      | 5 => 255
      | 6 => byteOf l.d k
      | 7 => 255 - byteOf l.d k
      | n => byteOf l.a n)))⟩,
   ⟨.pack, 0x5B, fun _ => { a := 1, dsrc := 1 }, fun i => decide (i.mod < packFields i.type) && decide (i.ext3 ≤ 3), fun _ => 0,
    fun i l =>
      let w := typeBits i.type
      let v := match fmtOf i.type with
        | some k => k.round i.ext3 false (f32.decode l.a)
        | none => l.a % 2 ^ w
      l.d % 2 ^ (w * i.mod) + v * 2 ^ (w * i.mod) + l.d / 2 ^ (w * (i.mod + 1)) * 2 ^ (w * (i.mod + 1))⟩,
   ⟨.unpk, 0x5C, fun i => { a := 1, b := if i.type = 8 then 1 else 0 }, fun i => decide (i.mod < packFields i.type) && i.ext3 == 0,
    fun i => immInt i 32, fun i l =>
      let e := l.a / 2 ^ (typeBits i.type * i.mod) % 2 ^ typeBits i.type
      if i.type = 8 then f32.round 0 false ((e2m1.decode e).mul (e8m0Val l.b))
      else match intOf i.type with
        | some (w, sg) => (intVal w sg e % 2 ^ 32).toNat
        | none => f32.round 0 false (typeVal i.type e)⟩]

/-- A memory instruction of R115 or R119: its command, opcode, shape and encoding rule. -/
structure MemRule where
  cmd : Nat → Nat → Instr
  op : Nat
  shape : Ins → MemShape
  own : Ins → Bool

/-- LD, LDS, ST, HINT and ATOM. -/
def memRules : List MemRule :=
  [⟨.ld, 0x60, memShape .load true false false, ownMem⟩, ⟨.lds, 0x61, memShape .load true false true, ownMem⟩,
   ⟨.st, 0x62, memShape .store false true false, ownMem⟩,
   ⟨.hint, 0x63, memShape .hint false false false, fun i => ownMem i && i.d == 0⟩,
   ⟨.atom, 0x70, atomShape, ownAtom⟩]

/-- The registers of a memory instruction at issue. -/
def MemAtIssue (s : State) (f slot : Nat) (g : Group) (i : Ins) (h : MemShape) : Prop :=
  let src := regSets (addrOp i :: (h.data.toList ++ h.cmp.toList))
  let dst := regSets h.dest.toList
  AtIssue s f slot g i (src.1 ++ dst.1) (src.2 ++ dst.2) src.1 dst.1

/-- The addresses of the lanes that execute a memory instruction. -/
def laneAddrs (s : State) (f : Nat) (g : Group) (i : Ins) (off : Int) : List (Nat × Nat) :=
  (bitsOf (g.lanes i)).map (fun l => (l, laneAddr s f g i off l))

/-- What a Facet's window, memory and engines keep while an instruction only forms line requests. -/
structure OnlyRequests (s t : State) (f slot : Nat) (new : List LineReq) : Prop where
  rest : t = { s with facets := t.facets, reqs := t.reqs, nextId := t.nextId }
  reqs : t.reqs = s.reqs ++ new
  facets : ∀ k, k ≠ f → t.facet k = s.facet k
  groups : ∀ k, k ≠ slot → t.group? f k = s.group? f k

/-- The MMA opcodes of R181 with their commands. -/
def mmaForms : List (Nat × (Nat → Nat → Instr)) := [(0xA0, .mmaH), (0xA1, .mmaB), (0xA2, .mmaQ), (0xA3, .mmaF)]

/-- The statistics of each row of a finished tile (R205), from the pair of statistics registers S and S + 1. -/
def tileStats (g : Group) (o : MmaOp) (tile : List Word) : List (Word × Word × Nat × Word × List Word) :=
  let d := mmaDims o.op o.shape
  let read (k l : Nat) : Word := if o.ins.b + k = 255 then 0 else tget g.v (32 * (o.ins.b + k) + l)
  (List.range d.1).map (fun i =>
    statRow ((List.range d.2.1).map (fun j => tile.getD (d.2.1 * i + j) 0)) o.pbase (read 0 i) (read 0 (16 + i))
      ((read 1 i).toNat % 2 ^ 24))

/-- Entry `b` at the head of a ring is one of `opcode` that its row may take up (R387, R388, R526): the front end runs and has
judged it, its round is at the ring, unless the entry is a LOWER, which MP takes up, the entry is still there and passes the checks
made at once, and conditions 2 to 5 of R388 hold. -/
structure AtHead (s : State) (j r : Nat) (b : List Byte) (opcode : Nat) : Prop where
  judged : (s.ring j r).judged = true
  registered : s.registered j r = true
  runs : s.frontEndRuns j = true
  turn : opcode ≠ 8 → s.inTurn j r = true
  present : s.headEntry j r = some b
  passes : s.atOnce j b = none
  ready : s.entryReady j r b = true
  opcode : byteField b 2 1 = opcode
  fresh : s.entry? j r (byteField b 0 2) = none

/-- The completion record that a ring's next record for an entry is (R393, R394): at the write index, with the ring's phase. -/
def State.recordFor (s : State) (e : Entry) (x : Rec) : HostRecord where
  fn := e.fn
  addr := (s.reg e.fn (Reg.locusCqHi e.ring)).toNat * 2 ^ 32 + s.regF e.fn (Reg.locusCqLo e.ring) 31 6 * 64 + 64 * (s.ring e.fn e.ring).cqIndex
  bytes := recordBytes e x (s.ring e.fn e.ring).phase (e.dropped && 2 ≤ s.hifMinor e.fn)

/-- The head entry of a ring left it (R387): NEXT_SEQ has advanced. -/
def HeadTaken (s t : State) (j r : Nat) : Prop := (t.ring j r).nextSeq = ((s.ring j r).nextSeq + 1) % 65536

/-- Refused (R526, R392): its record is written, nothing is accepted and no memory changes. -/
structure Refused (s t : State) (j r : Nat) (b : List Byte) (status : Nat) : Prop where
  record : t.out.records = s.recordFor (entryOf j r b) (entryRec b status) :: s.out.records
  taken : HeadTaken s t j r
  entries : t.entries = s.entries
  launches : t.launches = s.launches
  loads : t.loads = s.loads
  drains : t.drains = s.drains
  colls : t.colls = s.colls
  remotes : t.remotes = s.remotes

/-- An accepted entry completed (R393): its record is written and it is outstanding no longer. -/
structure Completed (s t : State) (e : Entry) (x : Rec) : Prop where
  record : t.out.records = s.recordFor e x :: s.out.records
  ended : t.entry? e.fn e.ring e.seq = none

/-- MP answers the window of a function over CXL.io (R378, R381). -/
def State.windowOpen (s : State) (j : Nat) : Prop := s.side.cxlUp = true ∧ s.serves j = true

/-- Registers of which a write has no effect beside the register (R16), with their RW and RW1C bits: of PF0's window, of a
VF's. -/
def plainRegs : List (Bool × Nat × Word × Word) :=
  [(true, Reg.frustumCfg, 0xC000FFFF, 0), (true, Reg.chordCfg, 0x80000000, 0), (true, Reg.modes, 0x0F0000FF, 0),
   (true, Reg.modeFailover, 0xFFFFFFFF, 0), (true, Reg.dbgTarget, 0x1F00FF3F, 0), (true, Reg.dbgAddr, 0xFFFFFFFF, 0),
   (true, Reg.dbgStatus, 0, 0x400), (true, Reg.fwStageAddr, 0xFFFFFFFF, 0), (true, Reg.fwStageLen, 0xFFFFFFFF, 0),
   (true, Reg.wakeCfg, 0xC3FF0000, 0), (true, Reg.winStatus, 0, 0x80000000), (false, Reg.execWdt, 0xFFFFFFFF, 0),
   (false, Reg.execStallLast, 0, 0x80000000), (false, Reg.execFaultEntry, 0x8003FFF8, 0), (false, Reg.execOptions, 1, 0),
   (false, Reg.wsetCtrl, 0xC0FFFFFF, 0), (false, Reg.hullOptions, 1, 0), (false, Reg.collTimeout, 0xFFFFFFFF, 0),
   (false, Reg.pwrReq, 0x7F7F, 0)]

/-- Only window registers differ, and only those named. -/
structure OnlyRegs (s t : State) (which : Nat → Nat → Prop) : Prop where
  rest : t = { s with fns := t.fns }
  regs : ∀ j a, ¬ which j a → t.reg j a = s.reg j a
  fields : ∀ j, t.fn j = { s.fn j with regs := (t.fn j).regs }

/-- A tenant reset of `j` has begun (R397): its work is gone, its Facets hold no group, BUSY reads 1, and the work of the other
functions goes on. -/
structure ResetBegun (s t : State) (j : Nat) (disable : Bool) : Prop where
  busy : t.regF 0 (Reg.tenStatus j) 31 31 = 1
  runs : (t.fn j).resetting = true ∧ ((t.fn j).disableAfter = true ↔ disable = true ∨ (s.fn j).disableAfter = true)
  launches : t.launches = s.launches.filter (fun l => l.fn != j)
  loads : t.loads = s.loads.filter (fun l => l.fn != j)
  drains : t.drains = s.drains.filter (fun d => d.fn != j)
  colls : t.colls = s.colls.filter (fun c => c.fn != j)
  remotes : t.remotes = s.remotes.filter (fun r => r.fn != j)
  entries : t.entries = s.entries.filter (fun e => e.fn != j)
  groups : ∀ e ∈ s.logical j, (t.facet e.2).groups = [] ∧ (t.facet e.2).blocks = []
  others : ∀ f, (∀ e ∈ s.logical j, e.2 ≠ f) → t.facet f = s.facet f

end Sys2Proof.Machine
end

