-- ==== Sys2Proof/Certificates/Slice0/Obligations.lean ====
section
/-! DEFINITION. The statements for the provers. -/

open Sys2Proof Sys2Proof.Machine

/-- A step takes the command at the front of the queue and runs exactly it, with the queue's rest. -/
def Obligations.StepRunsFrontCommand : Prop :=
  ∀ (c : Instr) (rest : List Instr) (s : State),
    step { s with pending := c :: rest } = exec c { s with pending := rest }

/-- R107: the integer instructions. Where such an instruction is about to issue in a legal form whose Ralelle operands need
not wait, each of its lanes takes the result of the table of R107, modulo 2^32, or 2^64 for the pairs; nothing outside the
group and its block's OPC changes. ICMP with a nonzero D[7:3] or UMASK D, SEL with a nonzero C[7:3], UMASK C or UMASK D, and
IMAD, IMAD64 and SEL in format I raise ILLEGAL_INSTR (R98, R102), and so does a TYPE other than U32 and S32 (R107). SEL with TYPE
F64 and LANE into a uniform register are in MoveResults. FAULT_LANES of an encoding fault, every lane of the group, is the model's
reading (log entry 21). -/
def Obligations.IntegerResults : Prop :=
  (∀ e ∈ wordRules, ∀ (s : State) (f slot : Nat) (g : Machine.Group) (i : Ins),
    AluAtIssue s f slot g i e.shape → i.op = e.op → i.fmt ≤ 1 →
    aluChecks s g e.shape i (ownInt i) = none → rlxHeld s f slot i = false →
    ∃ t, exec (e.cmd f slot) s = .next t ∧ OnlyGroup s t f slot ∧
      t = aluResult s f slot g i e.shape (immInt i (32 * e.shape.b))
        (fun l => (e.rule i (BitVec.ofNat 32 l.a) (BitVec.ofNat 32 l.b) (BitVec.ofNat 32 l.c)).toNat)) ∧
  (∀ (s : State) (f slot : Nat) (g : Machine.Group) (i : Ins), rlxHeld s f slot i = false →
    (AluAtIssue s f slot g i { a := 2, b := 2, dest := 2 } → i.op = 0x15 → i.fmt ≤ 1 →
      aluChecks s g { a := 2, b := 2, dest := 2 } i (ownInt i) = none →
      exec (.iadd64 f slot) s = .next (aluResult s f slot g i { a := 2, b := 2, dest := 2 } (immInt i 64)
        (fun l => (BitVec.ofNat 64 l.a + BitVec.ofNat 64 l.b).toNat))) ∧
    (AluAtIssue s f slot g i { a := 1, b := 1, c := 2, dest := 2 } → i.op = 0x16 → i.fmt ≤ 1 →
      aluChecks s g { a := 1, b := 1, c := 2, dest := 2 } i (ownInt i) = none →
      exec (.imad64 f slot) s = .next (aluResult s f slot g i { a := 1, b := 1, c := 2, dest := 2 } (immInt i 32)
        (fun l =>
          let wide (x : Nat) : BitVec 64 := if i.type = 1 then (BitVec.ofNat 32 x).signExtend 64 else (BitVec.ofNat 32 x).setWidth 64
          (wide l.a * wide l.b + BitVec.ofNat 64 l.c).toNat))) ∧
    (AluAtIssue s f slot g i { a := 1, b := 1, dest := 0 } → i.op = 0x13 → i.fmt ≤ 1 →
      aluChecks s g { a := 1, b := 1, dest := 0 } i (decide (i.type ≤ 1) && decide (i.mod ≤ 5) && i.ext3 == 0) = none →
      exec (.icmp f slot) s = .next (aluResult s f slot g i { a := 1, b := 1, dest := 0 } (immInt i 32)
        (fun l =>
          let a := BitVec.ofNat 32 l.a
          let b := BitVec.ofNat 32 l.b
          let less (x y : Word) : Bool := if i.type = 1 then x.slt y else x.ult y
          if (match i.mod with
            | 0 => a == b
            | 1 => a != b
            | 2 => less a b
            | 3 => !less b a
            | 4 => less b a
            | _ => !less a b) then 1 else 0))) ∧
    (AluAtIssue s f slot g i { a := 1, b := 1 } → i.op = 0x14 → i.fmt ≤ 1 → i.type ≠ 3 →
      aluChecks s g { a := 1, b := 1 } i
        (decide (i.type ≤ 13) && i.mod == 0 && i.ext3 == 0 && !i.isI && decide (i.c < 8) && !i.uc && !i.ud) = none →
      exec (.sel f slot) s = .next (aluResult s f slot g i { a := 1, b := 1 } (immInt i 32)
        (fun l => if (tget g.p i.c).getLsbD l.lane then l.a else l.b))) ∧
    (AluAtIssue s f slot g i {} → i.op = 0x01 → i.fmt ≤ 1 → i.ud = false ∨ i.a ≠ 0 →
      aluChecks s g {} i (ownInt i && (specialValue s f slot g i.a 0).isSome && !i.ua) = none →
      exec (.movs f slot) s = .next (aluResult s f slot g i {} 0 (fun l => (specialValue s f slot g i.a l.lane).getD 0)))) ∧
  (∀ (s : State) (f slot : Nat) (g : Machine.Group) (i : Ins), i.fmt ≤ 1 → let illegal := s.raise f slot g 4 g.pc g.live 0 0 0 0
    (AluAtIssue s f slot g i { a := 1, b := 1, dest := 0 } → i.op = 0x13 → 8 ≤ i.d ∨ i.ud = true → exec (.icmp f slot) s = .next illegal) ∧
    (AluAtIssue s f slot g i { a := 1, b := 1 } → i.op = 0x14 → 8 ≤ i.c ∨ i.uc = true ∨ i.ud = true ∨ i.fmt = 1 →
      exec (.sel f slot) s = .next illegal) ∧
    (AluAtIssue s f slot g i { a := 1, b := 1, c := 1 } → i.op = 0x06 → i.fmt = 1 → exec (.imad f slot) s = .next illegal) ∧
    (AluAtIssue s f slot g i { a := 1, b := 1, c := 2, dest := 2 } → i.op = 0x16 → i.fmt = 1 → exec (.imad64 f slot) s = .next illegal) ∧
    (∀ e ∈ wordRules, AluAtIssue s f slot g i e.shape → i.op = e.op → 2 ≤ i.type → exec (e.cmd f slot) s = .next illegal))

/-- R108: FADD, FMUL and FFMA round the exact result once; FMIN, FMAX and FABS as tabulated, each lane by its TYPE.
R108, R154: what rounding a magnitude of `m` units of 2^-n to whole units does in each mode: to nearest with ties to
even, toward zero, toward plus and toward minus infinity. The sign of a mode 3 sum of +0 addends is the model's choice (log entry
110). -/
def Obligations.FloatResultsAndRounding : Prop :=
  ((∀ e ∈ floatRules, ∀ (s : State) (f slot : Nat) (g : Machine.Group) (i : Ins),
    AluAtIssue s f slot g i (e.shape i) → i.op = e.op → i.fmt ≤ 1 →
    aluChecks s g (e.shape i) i (e.own i) = none → rlxHeld s f slot i = false →
    ∃ t, exec (e.cmd f slot) s = .next t ∧ OnlyGroup s t f slot ∧
      t = aluResult s f slot g i (e.shape i) (e.imm i) (e.rule i)) ∧
  (∀ (s : State) (f slot : Nat) (g : Machine.Group) (i : Ins),
    AluAtIssue s f slot g i { a := fspan i, b := fspan i, dest := 0 } → i.op = 0x25 → i.fmt ≤ 1 →
    aluChecks s g { a := fspan i, b := fspan i, dest := 0 } i (floatType i && decide (i.mod ≤ 7)) = none →
    rlxHeld s f slot i = false →
    exec (.fcmp f slot) s = .next (aluResult s f slot g i { a := fspan i, b := fspan i, dest := 0 } (immFloat i)
      (fun l => floatLane i (fun k a b _ => if k.compare i.mod a b then 1 else 0) l % 65536)))) ∧
  (∀ (neg : Bool) (m n : Nat), 0 < n →
    let q (mode : Nat) : Nat := roundQuot mode neg m 0 n false
    (2 * (q 0 * 2 ^ n) ≤ 2 * m + 2 ^ n ∧ 2 * m ≤ 2 * (q 0 * 2 ^ n) + 2 ^ n ∧
      (2 * m = 2 * (q 0 * 2 ^ n) + 2 ^ n ∨ 2 * (q 0 * 2 ^ n) = 2 * m + 2 ^ n → q 0 % 2 = 0)) ∧
    q 1 = m / 2 ^ n ∧
    q 2 = (if neg then m / 2 ^ n else ceilDiv m (2 ^ n)) ∧
    q 3 = (if neg then ceilDiv m (2 ^ n) else m / 2 ^ n))

/-- R110, R111: a special function in a legal form gives each of its lanes the bits of its function, and touches nothing but its
group. R146, R152, R529: the special functions at arguments without a finite result: a NaN gives the canonical NaN, an invalid
operation too, RCP of a zero the infinity of its sign, and ACT its limits at the infinities. The result inside the error bound
is a free choice (log entry 10). -/
def Obligations.SpecialFunctionResults : Prop :=
  (∀ e ∈ specialRules, ∀ (s : State) (f slot : Nat) (g : Machine.Group) (i : Ins),
    AluAtIssue s f slot g i (e.shape i) → i.op = e.op → i.fmt ≤ 1 →
    aluChecks s g (e.shape i) i (e.own i) = none → rlxHeld s f slot i = false →
    ∃ t, exec (e.cmd f slot) s = .next t ∧ OnlyGroup s t f slot ∧
      t = aluResult s f slot g i (e.shape i) (e.imm i) (e.rule i)) ∧
  ((∀ e ∈ specialRules, e.cmd ≠ .actd → ∀ (i : Ins) (l : Lane), i.mod ≤ 8 → f32.decode l.a = .nan → e.rule i l = 0x7FC00000) ∧
  (∀ x, negative (f32.decode x) = true → sqrt32 x = 0x7FC00000 ∧
    special 0x410 negative true (fun x => Special.near 1 (Special.rsqrt x)) x = 0x7FC00000) ∧
  rcp32 0 = 0x7F800000 ∧ rcp32 0x80000000 = 0xFF800000 ∧ rcp32 0x7F800000 = 0 ∧ rcp32 0xFF800000 = 0x80000000 ∧
  (∀ c, actValue 0 0x7F800000 c = 0x3F800000 ∧ actValue 1 0x7F800000 c = 0x3F800000 ∧
    (∀ m, 2 ≤ m → m ≤ 8 → actValue m 0x7F800000 c = 0x7F800000) ∧
    (∀ m ∈ [0, 2, 5, 6], actValue m 0xFF800000 c = 0) ∧ (∀ m ∈ [1, 4], actValue m 0xFF800000 c = 0xBF800000) ∧
    (∀ m ∈ [7, 8], actValue m 0xFF800000 c = 0x80000000) ∧ actValue 3 0xFF800000 c = f32.mul 0 c 0xFF800000))

/-- R112, R113, R530: conversion between integer types, byte permutes, packing and unpacking give each lane the tabulated value.
PACK replaces one field of D and keeps the others. An integer outside the range of its destination gives a free value where it
does not saturate (log entry 13). Two forms of R107 by the model's choice: SEL with TYPE F64 takes one register (log entry 109),
and MOVS of LANE to a uniform register the lowest active lane's number (log entry 108). -/
def Obligations.MoveResults : Prop :=
  (∀ e ∈ moveRules, ∀ (s : State) (f slot : Nat) (g : Machine.Group) (i : Ins),
    AluAtIssue s f slot g i (e.shape i) → i.op = e.op → (e.shape i).formats.contains i.fmt = true →
    aluChecks s g (e.shape i) i (e.own i) = none → rlxHeld s f slot i = false →
    ∃ t, exec (e.cmd f slot) s = .next t ∧ OnlyGroup s t f slot ∧
      t = aluResult s f slot g i (e.shape i) (e.imm i) (e.rule i)) ∧
  ∀ (s : State) (f slot : Nat) (g : Machine.Group) (i : Ins), rlxHeld s f slot i = false →
    (AluAtIssue s f slot g i { a := 1, b := 1 } → i.op = 0x14 → i.fmt = 0 → i.type = 3 → i.mod = 0 → i.ext3 = 0 →
      i.c < 8 → i.uc = false → i.ud = false → aluChecks s g { a := 1, b := 1 } i true = none →
      exec (.sel f slot) s = .next (aluResult s f slot g i { a := 1, b := 1 } (immInt i 32)
        (fun l => if (tget g.p i.c).getLsbD l.lane then l.a else l.b))) ∧
    (AluAtIssue s f slot g i {} → i.op = 0x01 → i.fmt ≤ 1 → i.ud = true → i.a = 0 → i.ua = false →
      aluChecks s g {} i (ownInt i) = none →
      exec (.movs f slot) s = .next (aluResult s f slot g i {} 0 (fun l => l.lane)))

/-- R112, R155 to R160: CVT writes each of its lanes the source value rounded to the destination's type: by the rounding mode, or in
mode 4 with the lane's next draw, which advances the state of each active lane whose guard is true and of no other. Between
integer types a value inside the destination's range converts exactly, and with SAT one outside takes the nearer end; without SAT
it gives a free value (log entry 13). -/
def Obligations.ConversionResult : Prop :=
  (∀ (s : State) (f slot : Nat) (g : Machine.Group) (i : Ins),
    AluAtIssue s f slot g i (cvtShape i) → i.op = 0x50 → i.fmt = 0 →
    aluChecks s g (cvtShape i) i (decide (i.type ≤ 13) && decide (i.b ≤ 13) && !i.ub && i.ext3 == 0 && decide (i.mod % 8 ≤ 4) &&
      (i.mod % 8 != 4 || (decide (4 ≤ i.type) && decide (i.type ≤ 7)))) = none →
    rlxHeld s f slot i = false → tableWf 32 g.lfsr = true →
    let draw (l : Nat) : Word := if i.mod % 8 = 4 ∧ l ∈ bitsOf (g.lanes i) then nextDraw (tget g.lfsr l) else tget g.lfsr l
    let r := aluResult s f slot g i (cvtShape i) 0 (fun l =>
      cvtValue i.b i.type (i.mod % 8) (i.w0.getLsbD 43) (draw l.lane).toNat l.a)
    ∃ t x h, exec (.cvt f slot) s = .next t ∧ OnlyGroup s t f slot ∧ r.group? f slot = some x ∧
      t.group? f slot = some h ∧ h = { x with lfsr := h.lfsr } ∧ (∀ b, t.block? f b = r.block? f b) ∧
      ∀ l < 32, tget h.lfsr l = draw l) ∧
  (∀ (src dst mode r x : Nat) (sat : Bool), let y := x % 2 ^ typeBits src
    (∀ k, fmtOf dst = some k → cvtValue src dst mode sat r x =
      if mode = 4 then k.stochastic sat r (typeVal src y) else k.round mode sat (typeVal src y)) ∧
    (∀ k sg, intOf dst = some (k, sg) →
      let v : Int := (typeVal src y).toInt mode
      let low : Int := if sg then -2 ^ (k - 1) else 0
      let high : Int := if sg then 2 ^ (k - 1) - 1 else 2 ^ k - 1
      (intOf src = none →
        ((∀ neg, typeVal src y ≠ .inf neg) →
          cvtValue src dst mode sat r x = ((if v < low then low else if high < v then high else v) % 2 ^ k).toNat) ∧
        ∀ neg, typeVal src y = .inf neg → cvtValue src dst mode sat r x = ((if neg then low else high) % 2 ^ k).toNat) ∧
      (∀ w tg, intOf src = some (w, tg) → let n := intVal w tg y
        (low ≤ n → n ≤ high → cvtValue src dst mode sat r x = (n % 2 ^ k).toNat) ∧
        (sat = true → n < low → cvtValue src dst mode sat r x = (low % 2 ^ k).toNat) ∧
        (sat = true → high < n → cvtValue src dst mode sat r x = (high % 2 ^ k).toNat))))

/-- R113, R80 to R82, R530: SHFL exchanges lanes of a whole converged group, is skipped where its guard is false in every
lane, and faults with code 7 where lanes are missing or the guard is mixed; SHFL.P takes active lanes only; VOTE writes one
uniform register, in no lane none. -/
def Obligations.ShuffleAndVote : Prop :=
  ∀ (s : State) (f slot : Nat) (g : Machine.Group) (i : Ins), i.fmt ≤ 1 →
    (AluAtIssue s f slot g i { a := 1, b := 1 } → i.op = 0x58 → aluChecks s g { a := 1, b := 1 } i (ownShuffle i) = none →
      (g.uniformGuard i = some false → exec (.shfl f slot) s = .next (s.afterIssue f slot (g.next i))) ∧
      (g.uniformGuard i ≠ some false → g.fullConverged = true → g.lanes i = BitVec.allOnes 32 → rlxHeld s f slot i = false →
        exec (.shfl f slot) s = .next (aluResult s f slot g i { a := 1, b := 1 } (immInt i 32) (fun l =>
          match shuffleSource i.mod l.lane l.b with
          | some k => (readLane s f g { a := 1, b := 1 } i (immInt i 32) k).a
          | none => l.a))) ∧
      (g.uniformGuard i = none ∨ (g.uniformGuard i = some true ∧ g.fullConverged = false) →
        exec (.shfl f slot) s = .next (s.raise f slot g 7 g.pc g.live 0 0 0 0))) ∧
    (AluAtIssue s f slot g i { a := 1, b := 1 } → i.op = 0x59 → aluChecks s g { a := 1, b := 1 } i (ownShuffle i) = none →
      rlxHeld s f slot i = false →
      exec (.shflP f slot) s = .next (aluResult s f slot g i { a := 1, b := 1 } (immInt i 32) (fun l =>
        match shuffleSource i.mod l.lane l.b with
        | some k => if g.live.getLsbD k then (readLane s f g { a := 1, b := 1 } i (immInt i 32) k).a else l.a
        | none => l.a))) ∧
    (AtIssue s f slot g i [] [i.d] [] → i.op = 0x5D →
      (i.type == 0 && decide (i.mod ≤ 2) && i.ext == 0x80 && decide (i.a < 8) && i.b == 0 && i.c == 0 && decide (i.d < 64)) = true →
      (g.lanes i = 0 → exec (.vote f slot) s = .next (s.afterIssue f slot (g.next i))) ∧
      (g.lanes i ≠ 0 → exec (.vote f slot) s = .next (s.afterIssue f slot ({ g with u := tset g.u i.d (
        let v := tget g.p i.a &&& g.lanes i
        match i.mod with
        | 0 => if v = g.lanes i then 1 else 0
        | 1 => if v = 0 then 0 else 1
        | _ => v) }.next i))))

/-- R51, R101 to R103, R241: what one lane of a register operand reads after it was written, in every operand form: a vector
register, v255 (discarded, reads as zero), a uniform register, a Ralelle register in the block's OPC. -/
def Obligations.RegisterForms : Prop :=
  ∀ (s : State) (f : Nat) (g : Machine.Group) (r : Reg?) (k lane : Nat) (x : Word),
    tableWf 32 g.v = true → tableWf 32 g.u = true → lane < 32 →
    let p := writeReg s f g r k lane x
    (r.uniform = false → r.rlx = false → r.n + k ≠ 255 → readReg p.1 f p.2 r k lane = x ∧
      ∀ n l, l < 32 → (n ≠ r.n + k ∨ l ≠ lane) → tget p.2.v (32 * n + l) = tget g.v (32 * n + l)) ∧
    (r.uniform = false → r.rlx = false → r.n + k = 255 → readReg p.1 f p.2 r k lane = 0 ∧ p = (s, g)) ∧
    (r.uniform = true → readReg p.1 f p.2 r k lane = x ∧ p.2.v = g.v ∧ p.1 = s) ∧
    (r.uniform = false → r.rlx = true → p.2 = g ∧
      ∀ b, s.block? f g.block = some b → Memory.wf b.opc = true →
        b.opc.bad (ralelleAt s g (r.n + k) lane / 16) = false → readReg p.1 f p.2 r k lane = x)

/-- R59, R60, R114, R115, R119: LD, LDS, ST, HINT and ATOM of which no check fails form one line request for each distinct line,
in ascending order of the lowest lane that touches it, and go on; a load's or atomic's destination is owed until its data
returns. They write no register and no memory, and with no lane they only go on. R120, R59: ACQ and REL whose checks pass ask the
Hull for each line and make the group wait until every line has answered; no register and no memory changes yet. That requests
form in the instruction's own step is the model's choice (log entry 104), and so is that HINT makes the address checks of the
others (log entry 112). -/
def Obligations.MemoryInstructionsFormRequests : Prop :=
  (∀ e ∈ memRules, ∀ (s : State) (f slot : Nat) (g : Machine.Group) (i : Ins),
    MemAtIssue s f slot g i (e.shape i) → i.op = e.op → i.fmt = 2 → (e.shape i).checks s g i (e.own i) = none →
    (g.lanes i = 0 → exec (e.cmd f slot) s = .next (s.afterIssue f slot (g.next i))) ∧
    (g.lanes i ≠ 0 → addrCheck s g.vf (e.shape i).width (laneAddrs s f g i (e.shape i).off) = none →
      rlxHeld s f slot i = false →
      s.slotsFor f (linesOf ((e.shape i).accs s f g (laneAddrs s f g i (e.shape i).off))).length = true →
      let accs := (e.shape i).accs s f g (laneAddrs s f g i (e.shape i).off)
      ∃ t new h, exec (e.cmd f slot) s = .next t ∧ OnlyRequests s t f slot new ∧
        new.map (·.line) = linesOf accs ∧
        (∀ r ∈ new, r.f = f ∧ r.slot = slot ∧ r.launch = g.launch ∧ r.kind = (e.shape i).kind ∧ r.stage = .formed ∧
          r.lanes = accs.filter (fun a => a.addr / 2048 == r.line)) ∧
        t.group? f slot = some h ∧ h.v = g.v ∧ h.u = g.u ∧ h.p = g.p ∧
        h.writes = (match (e.shape i).dest with
          | none => g.writes
          | some r => { token := s.nextId, vregs := r.vregs, uregs := [], traps := true, lanes := g.lanes i } :: g.writes))) ∧
  (∀ e ∈ memRules, e.op = 0x63 → ∀ (s : State) (f slot : Nat) (g : Machine.Group) (i : Ins) (c : Nat × Word × Nat),
    MemAtIssue s f slot g i (e.shape i) → i.op = e.op → i.fmt = 2 → (e.shape i).checks s g i (e.own i) = none → g.lanes i ≠ 0 →
    addrCheck s g.vf (e.shape i).width (laneAddrs s f g i (e.shape i).off) = some c →
    exec (.hint f slot) s = .next (s.raise f slot g c.1 g.pc c.2.1 c.2.2 0 0 0)) ∧
  ∀ (acquire : Bool) (s : State) (f slot : Nat) (g : Machine.Group) (i : Ins),
    let h : MemShape := { kind := if acquire then .acq else .rel, width := 4, off := 0 }
    let own := ownLock i && (if acquire then decide (i.d < 8) else i.d == 0 && i.imm == 0)
    AtIssue s f slot g i (regSets [addrOp i]).1 (regSets [addrOp i]).2 (regSets [addrOp i]).1 →
    i.op = (if acquire then 0x71 else 0x72) → i.fmt = 2 → h.checks s g i own = none → g.lanes i ≠ 0 →
    addrCheck s g.vf 4 (laneAddrs s f g i 0) = none →
    s.slotsFor f (linesOf (h.accs s f g (laneAddrs s f g i 0))).length = true →
    ∃ t new k x, exec (if acquire then .acq f slot else .rel f slot) s = .next t ∧ OnlyRequests s t f slot new ∧
      new.map (·.line) = linesOf (h.accs s f g (laneAddrs s f g i 0)) ∧ t.group? f slot = some x ∧
      x.wait = .lock ∧ x.lock = some k ∧ k.acquire = acquire ∧ k.lanes = g.lanes i ∧ k.left = new.length ∧
      (∀ a ∈ k.accs, a.data = BitVec.ofNat 128 (ownerTag (s.logicalOf g.vf f) slot a.lane)) ∧
      x.v = g.v ∧ x.u = g.u ∧ x.p = g.p

/-- R115, R116, R125: every fault check of LD, LDS, ST, HINT and ATOM comes before their first request. One of an encoding raises its
fault; of the addresses of LD, LDS, ST and ATOM (of HINT's, MemoryInstructionsFormRequests), one of an executing lane that is not
a multiple of the width faults with code 12, else one that is not mapped, or has a bit of [63:48] set, with code 13. A faulting
memory instruction forms no request and changes no memory. FAULT_LANES of an encoding fault, every lane of the group, is the
model's reading (log entry 21). -/
def Obligations.MemoryFaults : Prop :=
  ∀ e ∈ memRules, ∀ (s : State) (f slot : Nat) (g : Machine.Group) (i : Ins),
    MemAtIssue s f slot g i (e.shape i) → i.op = e.op → i.fmt = 2 →
    let silent (t : State) : Prop := t.reqs.map (·.id) = s.reqs.map (·.id) ∧ t.hbm = s.hbm ∧ t.hull = s.hull
    (∀ c, (e.shape i).checks s g i (e.own i) = some c →
      exec (e.cmd f slot) s = .next (s.raise f slot g c g.pc g.live 0 0 0 0) ∧ silent (s.raise f slot g c g.pc g.live 0 0 0 0)) ∧
    (e.op ≠ 0x63 → (e.shape i).checks s g i (e.own i) = none → g.lanes i ≠ 0 →
      let addrs := laneAddrs s f g i (e.shape i).off
      let mis := addrs.filter (fun a => a.2 % (e.shape i).width != 0)
      let out := addrs.filter (fun a => decide (2 ^ 48 ≤ a.2) || (s.translate g.vf a.2).isNone)
      (∀ a l, mis = a :: l → ∃ t, exec (e.cmd f slot) s = .next t ∧ silent t ∧
        t = s.raise f slot g 12 g.pc (maskOf (fun k => mis.any (·.1 == k))) a.2 0 0 0) ∧
      (∀ a l, mis = [] → out = a :: l → ∃ t, exec (e.cmd f slot) s = .next t ∧ silent t ∧
        t = s.raise f slot g 13 g.pc (maskOf (fun k => out.any (·.1 == k))) a.2 0 0 0))

/-- R116: a memory instruction that faults, which is recorded as a fault of its tenant, forms no request and changes no memory:
all fault checks on an instruction complete before its first line request forms. -/
def Obligations.FaultingMemoryFormsNothing : Prop :=
  ∀ cmd ∈ [Instr.ld, .lds, .st, .hint, .atom, .acq, .rel, .tmLd, .tmSt], ∀ (f slot : Nat) (s t : State),
    exec (cmd f slot) s = .next t → (∃ j, (t.fn j).faultNo ≠ (s.fn j).faultNo) →
    t.reqs = s.reqs ∧ (∀ k, (t.facet k).transfers.map (·.id) ⊆ (s.facet k).transfers.map (·.id)) ∧
    t.hbm = s.hbm ∧ t.hull = s.hull

/-- R118, R122: FENCE goes on once no store, atomic or lock request of the group is unacknowledged and is held until then; NOP
goes on; a nonzero field of either, or one of TRAP that is not IMM16, faults with code 4. R122, R126: TRAP faults with code 15 and its IMM16 in FAULT_INFO where a
lane executes it, and else goes on. An opcode or format the table does not list faults with code 4 (R106); execution outside the
range faults with code 6 (R121). That a held FENCE issues later is the model's reading (log entry 17); which fields of an
unlisted form fault, log entry 24. R325: a fetch that corrects words of the code store counts them, shown on NOP. -/
def Obligations.FenceNopTrapAndIllegal : Prop :=
  (∀ (s : State) (f slot : Nat) (g : Machine.Group) (i : Ins), AtIssue s f slot g i [] [] [] → i.fmt = 0 →
    (i.op = 0x73 → AtPoint s g i → field i.w0 47 0 = 0 →
      ((g.lanes i = 0 ∨ s.storesOut f slot g.launch = false) → exec (.fence f slot) s = .next (s.afterIssue f slot (g.next i))) ∧
      (g.lanes i ≠ 0 → s.storesOut f slot g.launch = true → exec (.fence f slot) s = .next s)) ∧
    (i.op = 0x73 → AtPoint s g i → field i.w0 47 0 ≠ 0 → exec (.fence f slot) s = .next (s.raise f slot g 4 g.pc g.live 0 0 0 0)) ∧
    (i.op = 0x86 → field i.w0 47 0 = 0 → exec (.nop f slot) s = .next (s.afterIssue f slot (g.next i))) ∧
    (i.op = 0x86 → field i.w0 47 0 ≠ 0 → exec (.nop f slot) s = .next (s.raise f slot g 4 g.pc g.live 0 0 0 0))) ∧
  (∀ (s : State) (f slot : Nat) (g : Machine.Group) (i : Ins), Issuing s f slot g i [] [] [] [] → i.fmt = 0 → i.op = 0x86 →
    field i.w0 47 0 = 0 → 0 < s.codeFixes f g i →
    exec (.nop f slot) s = .next ((s.count 0 Reg.pathErr 31 16 (s.codeFixes f g i)).afterIssue f slot (g.next i))) ∧
  (∀ (s : State) (f slot : Nat) (g : Machine.Group) (i : Ins),
    (AtIssue s f slot g i [] [] [] → i.op = 0x84 → i.fmt = 1 → field i.w0 47 24 = 0 → i.ext = 0 →
      (g.lanes i = 0 → exec (.trap f slot) s = .next (s.afterIssue f slot (g.next i))) ∧
      (g.lanes i ≠ 0 → exec (.trap f slot) s =
        .next (s.raise f slot g 15 g.pc (g.lanes i) 0 (BitVec.ofNat 32 (65536 * i.imm)) 0 0))) ∧
    (AtIssue s f slot g i [] [] [] → i.op = 0x84 → i.fmt = 1 → field i.w0 47 24 ≠ 0 ∨ i.ext ≠ 0 →
      exec (.trap f slot) s = .next (s.raise f slot g 4 g.pc g.live 0 0 0 0)) ∧
    (AtIssue s f slot g i [] [] [] → assigned i = false →
      exec (.unassignedOpcode f slot) s = .next (s.raise f slot g 4 g.pc g.live 0 0 0 0)) ∧
    (s.group? f slot = some g → g.canIssue = true → s.facetRuns f = true → s.inCode g g.pc = false →
      exec (.fetchPastRange f slot) s = .next (s.raise f slot g 6 g.pc g.live 0 0 0 0)))

/-- R64, R65, R121: BRA with targets in range. No lane takes it: the group goes on. All lanes take it: the group is at the
target. Some do: the others run on, and the takers wait on the stack for the reconvergence offset; a full stack faults with
code 9. A target out of range faults with code 6. -/
def Obligations.BranchResults : Prop :=
  ∀ (s : State) (f slot : Nat) (g : Machine.Group) (i : Ins), AtIssue s f slot g i [] [] [] → i.op = 0x80 → i.fmt = 3 →
    field i.w0 47 40 = 0 → i.ext = 0 →
    let target := codeOffset g (field i.w0 39 24)
    let meet := codeOffset g (field i.w0 23 8)
    let inside (x : Int) : Prop := 0 ≤ x ∧ s.inCode g x.toNat = true
    (inside target → (i.guarded = true → inside meet) →
      (g.lanes i = 0 → exec (.bra f slot) s = .next (s.afterIssue f slot (g.next i))) ∧
      (g.lanes i ≠ 0 → g.lanes i = g.live → exec (.bra f slot) s = .next (s.afterIssue f slot { g with pc := target.toNat })) ∧
      (g.lanes i ≠ 0 → g.lanes i ≠ g.live → g.depth < 32 → exec (.bra f slot) s = .next (s.afterIssue f slot { g with
        stack := { join := false, parked := false, rcv := meet.toNat, target := target.toNat, mask := g.lanes i, eventsAt := g.events } :: g.stack
        active := g.live &&& ~~~ g.lanes i, pc := g.pc + 8 })) ∧
      (g.lanes i ≠ 0 → g.lanes i ≠ g.live → 32 ≤ g.depth →
        exec (.bra f slot) s = .next (s.raise f slot g 9 g.pc (g.lanes i) 0 0 0 0))) ∧
    (¬ inside target ∨ (i.guarded = true ∧ ¬ inside meet) →
      exec (.bra f slot) s = .next (s.raise f slot g 6 g.pc g.live 0 0 0 0))

/-- R122, R78: EXIT removes its lanes from the group for good; a group left without lanes is done. -/
def Obligations.ExitRemovesLanes : Prop :=
  ∀ (s : State) (f slot : Nat) (g : Machine.Group) (i : Ins), AtIssue s f slot g i [] [] [] → AtPoint s g i → i.op = 0x81 →
    i.fmt = 0 → field i.w0 47 0 = 0 → s.block? f g.block = none ∨ (∃ b, s.block? f g.block = some b ∧ b.barriers = []) →
    ∃ t h, exec (.exit f slot) s = .next t ∧ OnlyGroup s t f slot ∧ t.group? f slot = some h ∧
      h.exited = g.exited ||| g.lanes i ∧ (g.stack = [] → g.lanes i = g.live → h.done = true) ∧
      h.v = g.v ∧ h.u = g.u ∧ h.p = g.p

/-- R128 to R132: taking a fault. With the tenant's debug on the group halts at the faulting instruction with FAULTED set, whether
a handler is configured or not. Otherwise, with a handler configured the group enters it: FAULT state saved, every lane that was
executing active, the offset ENTRY. With none the block is aborted: its groups stop, and the faulting one leaves its slot at
once where nothing of it is outstanding. Inside a handler the abort has code 0xFF. EXEC_FAULT_LAST and EXEC_FAULT_PC record the
fault. FAULT_LANES of a fault of the whole instruction and the record of a fault inside a handler are the model's reading (log
entries 19 and 21); that debug comes before EN = 0, and a fault inside a handler before debug, its choice (log entry 105). -/
def Obligations.FaultEntry : Prop :=
  ∀ (s : State) (f slot : Nat) (g : Machine.Group) (code pc : Nat) (lanes : Word) (addr : Nat) (info : Word) (cause bar : Nat),
    s.group? f slot = some g → code < 256 → ((s.facet f).groups.map (·.1)).Pairwise (· < ·) →
    let t := s.raise f slot g code pc lanes addr info cause bar
    let last := t.reg g.vf Reg.execFaultLast
    let saved (h : Handler) : Prop := h.code = code ∧ h.pc = pc ∧ h.mask = g.live ∧ h.lanes = lanes ∧ h.addr = addr ∧ h.info = info ∧
      h.depth = g.stack.length
    let armed := (s.reg g.vf Reg.execFaultEntry).getLsbD 31
    last.getLsbD 31 = true ∧ field last 29 22 = code ∧ field last 13 8 = slot % 64 ∧
    t.reg g.vf Reg.execFaultPc = BitVec.ofNat 32 (pc % 2 ^ 18) ∧
    (g.handler = none → s.debugOn g.vf = true →
      last.getLsbD 30 = false ∧ ∃ h x, t.group? f slot = some x ∧ x.faulted = some h ∧ saved h ∧ x.halt = .halted ∧
        x.handler = none ∧ x.active = g.active ∧ x.pc = g.pc ∧ x.stack = g.stack ∧ x.wait = g.wait ∧
        x.v = g.v ∧ x.u = g.u ∧ x.p = g.p) ∧
    (g.handler = none → s.debugOn g.vf = false → armed = true →
      last.getLsbD 30 = false ∧ ∃ h x, t.group? f slot = some x ∧ x.handler = some h ∧ saved h ∧
        x.active = g.live ∧ x.pc = 8 * s.regF g.vf Reg.execFaultEntry 17 3 ∧ x.stack = g.stack ∧ x.wait = .none ∧
        x.v = g.v ∧ x.u = g.u ∧ x.p = g.p) ∧
    (g.handler.isSome = true ∨ (s.debugOn g.vf = false ∧ armed = false) →
      last.getLsbD 30 = true ∧ (s.slotIdle f slot g = true → t.group? f slot = none) ∧
      (s.slotIdle f slot g = false → ∃ x, t.group? f slot = some x ∧ x.done = true ∧ x.halt = .running) ∧
      ∀ l ∈ s.launches, l.id = g.launch → ∃ m ∈ t.launches, m.id = l.id ∧
        (l.fault = none → m.fault = some (if g.handler.isSome then 0xFF else code, s.logicalOf g.vf f, slot, pc)) ∧
        (l.fault.isSome = true → m.fault = l.fault))

/-- R76 to R82, R118, R122: JOIN.WAIT and JOIN.PASS of a converged group that owes no store record its arrival, at a fresh barrier
or in a use that has begun; the group waits at the barrier, or goes on. A uniform false guard skips them. A mixed guard or a
missing lane faults with code 7; a participant mask that leaves the group out or differs from the use's, a second arrival, or a
use of another kind with code 8. A use in which every participant has arrived or exited releases: the barrier is free and
the groups that waited go on, with a progress event; any other use stays. -/
def Obligations.JoinArrivals : Prop :=
  (∀ (waits : Bool) (s : State) (f slot : Nat) (g : Machine.Group) (i : Ins) (b : Block),
    AtIssue s f slot g i [] [i.a] [] → AtPoint s g i → i.op = (if waits then 0x82 else 0x83) → i.fmt = 1 →
    (field i.w0 47 32 == 0 && i.ext == 0x40 && decide (i.imm < 16) && decide (i.a < 64)) = true →
    s.block? f g.block = some b →
    let cmd : Instr := if waits then .joinWait f slot else .joinPass f slot
    let mask := participants (tget g.u i.a).toNat b.g
    let use := aget? b.barriers i.imm
    let released (t : State) : State := t.releaseBarriers f g.block
    (g.uniformGuard i = some false → exec cmd s = .next (released (s.afterIssue f slot (g.next i)))) ∧
    (g.uniformGuard i ≠ some false → g.uniformGuard i = none ∨ g.joinConverged = false →
      exec cmd s = .next (released (s.raise f slot g 7 g.pc g.live 0 0 0 0))) ∧
    (g.uniformGuard i = some true → g.joinConverged = true →
      (s.joinHeld f slot g = true → exec cmd s = .next (released s)) ∧
      (s.joinHeld f slot g = false →
        let wrong := mask.testBit g.gidx = false ∨ ∃ u, use = some u ∧ (u.mask ≠ mask ∨ g.gidx ∈ u.arrived ∨ u.redb ≠ none)
        let arrival : Barrier := match use with
          | none => { mask := mask, arrived := [g.gidx], redb := none, entries := [(g.gidx, [], [])] }
          | some u => { u with arrived := u.arrived ++ [g.gidx], entries := u.entries ++ [(g.gidx, [], [])] }
        (wrong → exec cmd s = .next (released (s.raise f slot g 8 g.pc g.live 0 0 0 0))) ∧
        (¬ wrong → exec cmd s = .next (released
          ((s.updBlock f g.block (fun _ => { b with barriers := aput b.barriers i.imm arrival })).afterIssue f slot
            (if waits then { g with wait := .barrier i.imm } else g.next i))))))) ∧
  ∀ (s : State) (f blk n : Nat) (b : Block) (u : Barrier), s.block? f blk = some b → b.barriers = [(n, u)] → u.redb = none →
    ((s.facet f).groups.map (·.1)).Nodup →
    let full := ∀ k < 32, u.mask.testBit k = true → k ∈ u.arrived ∨ ∀ e ∈ s.blockGroups f blk, e.2.gidx = k → e.2.done = true
    let t := s.releaseBarriers f blk
    (¬ full → t = s) ∧
    (full → t.block? f blk = some { b with barriers := [] } ∧ t.hbm = s.hbm ∧ t.hull = s.hull ∧ t.fns = s.fns ∧
      ∀ slot g, s.group? f slot = some g → g.block = blk →
        (g.gidx ∉ u.arrived → t.group? f slot = some g) ∧
        ∀ i, g.gidx ∈ u.arrived → g.wait = .barrier n → s.fetchIns f g = some i →
          t.group? f slot = some (({ g with wait := .none }.progressed).next i).settle)

/-- R134, R135: FRET with the stack as at handler entry. RETRY returns to the faulting instruction, or takes up the wait that the
fault left at its barrier, past it once released; SKIP returns past it; both with the mask the group faulted with. ABORT ends the
block with the handled fault. Another stack depth aborts with code 0xFF. Outside a handler FRET faults with code 4, and so does
mode 3, a mode above it or a nonzero unused field (R106), inside one too; in no lane it goes on. The record of an ABORT is the model's reading (log entry 20). -/
def Obligations.HandlerReturns : Prop :=
  (∀ (s : State) (f slot : Nat) (g : Machine.Group) (i : Ins), AtIssue s f slot g i [] [] [] → i.op = 0x85 → i.fmt = 1 →
    let illegal := s.raise f slot g 4 g.pc g.live 0 0 0 0
    (i.imm % 4 = 3 → exec (.unassignedOpcode f slot) s = .next illegal) ∧
    (field i.w0 47 24 ≠ 0 ∨ i.ext ≠ 0 ∨ 4 ≤ i.imm →
      (i.imm % 4 = 0 → exec (.fretRetry f slot) s = .next illegal) ∧ (i.imm % 4 = 1 → exec (.fretSkip f slot) s = .next illegal) ∧
      (i.imm % 4 = 2 → exec (.fretAbort f slot) s = .next illegal))) ∧
  ∀ (s : State) (f slot : Nat) (g : Machine.Group) (i : Ins), AtIssue s f slot g i [] [] [] → i.op = 0x85 → i.fmt = 1 →
    field i.w0 47 24 = 0 → i.ext = 0 → i.imm < 3 →
    let cmd : Instr := if i.imm = 0 then .fretRetry f slot else if i.imm = 1 then .fretSkip f slot else .fretAbort f slot
    (g.handler = none → exec cmd s = .next (s.raise f slot g 4 g.pc g.live 0 0 0 0)) ∧
    (∀ h, g.handler = some h →
      let back (pc : Nat) : Machine.Group :=
        { g with handler := none, active := h.mask, pc := pc, stack := g.stack.drop (g.stack.length - h.depth) }
      (g.lanes i = 0 → exec cmd s = .next (s.afterIssue f slot (g.next i))) ∧
      (g.lanes i ≠ 0 → i.imm = 0 → g.handlerDepth h = 0 →
        (h.info.getLsbD 1 = false → exec (.fretRetry f slot) s = .next (s.afterIssue f slot (back h.pc))) ∧
        (∀ n, h.info.getLsbD 1 = true → g.awaiting = some n →
          exec (.fretRetry f slot) s = .next (s.afterIssue f slot { back h.pc with wait := .barrier n, awaiting := none })) ∧
        (h.info.getLsbD 1 = true → g.awaiting = none →
          exec (.fretRetry f slot) s = .next (s.afterIssue f slot (back (h.pc + 8))))) ∧
      (g.lanes i ≠ 0 → i.imm = 1 → g.handlerDepth h = 0 →
        exec (.fretSkip f slot) s = .next (s.afterIssue f slot { back (h.pc + s.sizeAt f h.pc) with awaiting := none })) ∧
      (g.lanes i ≠ 0 → i.imm ≤ 1 → g.handlerDepth h ≠ 0 →
        exec cmd s = .next ((s.markAborted g.vf h.no).abortBlock f slot g 0xFF g.pc)) ∧
      (g.lanes i ≠ 0 → i.imm = 2 →
        exec (.fretAbort f slot) s = .next ((s.markAborted g.vf h.no).abortBlock f slot g h.code h.pc)))

/-- R74, R128: the watchdog. Once a group's counter has reached THRESH × 1,024 Facet cycles it takes the fault code 1 at its
instruction, or at the barrier at which it waits, and the tenant's stall is counted; before that, and with THRESH 0, nothing
happens. A group in its own lock instruction stalls once that has been answered (log entry 23). R122, R217: a group without lanes
keeps its slot while one of its line requests is outstanding or a unit of its Facet works for it (log entry 106), and then leaves
it; its block ends with its last group.
R51 to R53: the next block of a launch goes to the lowest-numbered logical Facet on which it fits; where none has room, or every block of the
launch has been dispatched, nothing happens. R49: a Facet that faults at run time is out of service and in the retired-Facet
record, holds no group and no block, and every launch with a running block on it is marked lost. Which slot and quadrant a group
takes, and what an earlier launch keeps back, is the model's reading (log entries 68 and 69). -/
def Obligations.WatchdogDispatchAndFacetFault : Prop :=
  (∀ (s : State) (f slot : Nat) (g : Machine.Group), s.group? f slot = some g →
    let thresh := (s.reg g.vf Reg.execWdt).toNat
    let counted (t : State) : Prop := t.regF g.vf Reg.execCounts 15 0 = min 65535 (s.regF g.vf Reg.execCounts 15 0 + 1)
    (thresh = 0 ∨ g.progress < 2048 * thresh → exec (.progressStall f slot) s = .next s) ∧
    (0 < thresh → 2048 * thresh ≤ g.progress → g.done = false → s.facetRuns f = true →
      (g.wait = .none → g.halt = .running ∨ g.halt = .stepping → ∃ t, exec (.progressStall f slot) s = .next t ∧
        t = s.raise f slot g 1 g.pc g.live 0 0 0 0 ∧ counted t) ∧
      (∀ n, g.wait = .barrier n → g.halt = .running ∨ g.halt = .stepping ∨ g.halt = .stepped →
        ∃ t, exec (.progressStall f slot) s = .next t ∧
          t = s.raise f slot { g with wait := .none, awaiting := some n } 1 g.pc g.live 0 2 1 n ∧ counted t) ∧
      (g.wait = .lock → exec (.progressStall f slot) s = .next s))) ∧
  (∀ (s : State) (f slot : Nat) (g : Machine.Group), s.group? f slot = some g →
    (g.done = false ∨ s.slotIdle f slot g = false → exec (.groupSlotRelease f slot) s = .next s) ∧
    (g.done = true → s.requestsOut f slot g.launch = false → (s.facet f).unitsIdle slot = true →
      ∃ t, exec (.groupSlotRelease f slot) s = .next t ∧ t.group? f slot = none ∧
        (∀ k, k ≠ slot → t.group? f k = s.group? f k) ∧ t.hbm = s.hbm ∧ t.hull = s.hull ∧ t.fns = s.fns ∧
        ∀ b l, s.block? f g.block = some b → b.ended = false → s.launch? b.launch = some l →
          (∀ e ∈ (s.facet f).groups, e.2.block = g.block → e.1 = slot) →
          ∃ m, t.launch? b.launch = some m ∧ m.live = l.live - 1)) ∧
  (∀ (s : State) (n : Nat) (l : Launch), s.launch? n = some l →
    (l.nblocks ≤ l.next ∨ (s.withReserved l).placeFor l = none → exec (.blockDispatch n) s = .next s) ∧
    (∀ f, l.next < l.nblocks → (s.withReserved l).placeFor l = some f →
      (∃ q, (q, f) ∈ s.logical l.fn ∧ (s.withReserved l).fitsOn f l = true ∧
        ∀ e ∈ s.logical l.fn, e.1 < q → (s.withReserved l).fitsOn e.2 l = false) ∧
      ∃ t m k b, exec (.blockDispatch n) s = .next t ∧ t.launch? n = some m ∧ m.next = l.next + 1 ∧ m.live = l.live + 1 ∧
        t.block? f k = some b ∧ b.launch = l.id ∧ b.index = l.next ∧ b.g = l.g ∧
        t.hbm = s.hbm ∧ t.hull = s.hull ∧ ∀ k, k ≠ f → t.facet k = s.facet k)) ∧
  (∀ (s : State) (f : Nat), f < 208 → f ∉ s.defects → (s.facet f).failed = false →
    ∃ t, exec (.facetFault f) s = .next t ∧ (t.facet f).failed = true ∧ (t.facet f).groups = [] ∧ (t.facet f).blocks = [] ∧
      f ∈ t.retired ∧ (∀ k, k ≠ f → t.facet k = s.facet k) ∧ t.hbm = s.hbm ∧ t.hull = s.hull ∧
      ∀ b x, (b, x) ∈ (s.facet f).blocks → x.ended = false → ∀ l ∈ t.launches, l.id = x.launch → l.lost = true)

/-- R123, R124, R235, R236: TM.LD and TM.ST with well-formed descriptors, a tile inside the allocation and a valid region in
one mapped region queue a transfer that has its lines still to request, and go on; TM.WAIT goes on once no transfer of the
group with a named tag runs, and is held until then.
A malformed or mismatched descriptor faults with code 10, a tile outside the allocation with 11, a valid region that is not in one
mapped region with 13. R236, R62: the oldest transfer with lines left forms the request for its lowest line, once the stores it
follows have been acknowledged and a slot is free; the request asks for every sector the valid region touches, and that of a
TM.ST carries the line's elements as the OPC holds them (R237). FAULT_LANES of those faults, every lane, is the model's reading
(log entry 21). -/
def Obligations.TileMoverQueuesAndRequests : Prop :=
  (∀ (s : State) (f slot : Nat) (g : Machine.Group) (i : Ins),
    (∀ store : Bool, AtIssue s f slot g i (tmSources i).1 (tmSources i).2 (tmSources i).1 →
      i.op = (if store then 0x91 else 0x90) → i.fmt = 4 → field i.w0 47 0 = 0 → field i.w1 47 0 = 0 → field i.w1 50 49 ≠ 3 →
      g.onceTrue i = true →
      let d := MemDesc.of ((List.range 8).map (fun k => tget g.u (8 * field i.w1 63 61 + k)))
      let q := Desc.of (g.desc (field i.w1 60 57))
      let cmd : Instr := if store then .tmSt f slot else .tmLd f slot
      let fault (code addr : Nat) : State := s.raise f slot g code g.pc g.live addr 0 0 0
      (tileDesc store d q = true → exec cmd s = .next (fault 10 0)) ∧
      (tileDesc store d q = false → q.fits (s.granules f g.block) = false → exec cmd s = .next (fault 11 0)) ∧
      (tileDesc store d q = false → q.fits (s.granules f g.block) = true →
        2 ^ 48 ≤ d.addr ∨ (d.isEmpty = false ∧ s.inOneRegion g.vf d.range.1 d.range.2 = false) →
        exec cmd s = .next (fault 13 d.addr)) ∧
      (tileDesc store d q = false → q.fits (s.granules f g.block) = true → d.addr < 2 ^ 48 →
      (d.isEmpty = true ∨ s.inOneRegion g.vf d.range.1 d.range.2 = true) → (s.facet f).transfers.length < 16 →
      ∃ t x h, exec (if store then .tmSt f slot else .tmLd f slot) s = .next t ∧
        (t.facet f).transfers = (s.facet f).transfers ++ [x] ∧ x.id = s.nextId ∧ x.slot = slot ∧ x.store = store ∧
        x.tag = field i.w1 56 55 ∧ x.lines = d.lines ∧ x.out = 0 ∧ t.reqs = s.reqs ∧ t.hbm = s.hbm ∧ t.hull = s.hull ∧
        t.group? f slot = some h ∧ h.v = g.v ∧ h.u = g.u ∧ h.p = g.p ∧ ∀ b, t.block? f b = s.block? f b)) ∧
    (AtIssue s f slot g i [] [] [] → i.op = 0x92 → i.fmt = 1 → field i.w0 47 24 = 0 → field i.w0 23 12 = 0 → i.ext = 0 →
      let busy := (s.facet f).transfers.any (fun t => t.slot == slot && t.launch == g.launch && i.imm.testBit t.tag)
      (g.onceTrue i = false ∨ busy = false → exec (.tmWait f slot) s = .next (s.afterIssue f slot (g.next i))) ∧
      (g.onceTrue i = true → busy = true → exec (.tmWait f slot) s = .next s))) ∧
  (∀ (s : State) (f : Nat) (t : Transfer) (rest : List Transfer) (line : Nat) (more : List Nat),
    (s.facet f).transfers = t :: rest → t.lines = line :: more → s.facetRuns f = true →
    (∀ a ∈ t.after, ∀ r ∈ s.reqs, r.id ≠ a) →
    (s.slotsUsed f).1 - (s.slotsUsed f).2 < 224 → (s.slotsUsed f).1 < 256 →
    ∃ u r, exec (.tmLineRequest f) s = .next u ∧ u.reqs = s.reqs ++ [r] ∧ r.id = s.nextId ∧ r.f = f ∧
      r.kind = (if t.store then .tmStore else .tmLoad) ∧ r.line = (s.translate t.vf (2048 * line)).getD 0 / 2048 ∧
      r.sectors = (MemDesc.of t.mem).sectors line ∧ r.token = t.id ∧ u.hbm = s.hbm ∧ u.hull = s.hull ∧
      (t.store = true → r.bytes = (t.storeLine (s.opc f t.block) line).1 ∧ r.pois = (t.storeLine (s.opc f t.block) line).2) ∧
      ∃ x ys, (u.facet f).transfers = x :: ys ∧ x.lines = more ∧ x.out = t.out + 1) ∧
  ∀ (t : Transfer) (m : Ram) (line : Nat) (e : Nat × Nat) (v : Nat),
    let d := MemDesc.of t.mem
    let q := Desc.of t.opc
    let off := d.bit e.1 e.2 / 8 % 2048
    e.1 < d.vrows → e.2 < d.vcols → d.bit e.1 e.2 / 8 / 2048 = line → m.bitsAt (q.bit e.1 e.2) d.bits = some v →
    (1 ≤ d.esize → ∀ k < d.bits / 8, (off + k, BitVec.ofNat 8 (v / 256 ^ k)) ∈ (t.storeLine m line).1) ∧
    (∀ w, d.esize = 0 → e.2 % 2 = 0 → m.bitsAt (q.bit e.1 (e.2 + 1)) d.bits = some w →
      (off, BitVec.ofNat 8 (v + 16 * w)) ∈ (t.storeLine m line).1)

/-- R183 to R187, R212: an MMA of which no check fails, of a converged group, joins the queue of its quadrant's Prism and goes
on; its accumulator registers are owed until it retires, also by an MMA that will take them from the latch (R197), and register E
of an MMA.Q stays to be read (R188). A missing lane or a mixed guard faults with code 7 (R82); a uniform false guard skips it. A
malformed descriptor faults with code 10, an element outside the extents or the allocation with 11 (R212). R207, R211: MMA.SR reads the output-scale register with its overflow bit; MMA.SW sets the shift where
asked and clears the bit where asked. Both wait for the group's earlier MMAs. That at most four MMAs wait at a Prism is the
model's choice (log entry 26). -/
def Obligations.MmaIssuesAndScaleRegister : Prop :=
  (∀ e ∈ mmaForms, ∀ (s : State) (f slot : Nat) (g : Machine.Group) (i : Ins),
    AtIssue s f slot g i (((mmaSources i).1 ++ (mmaDests i).1).filter (fun r => !(mmaChained f slot s g i).contains r))
      ((mmaSources i).2 ++ (mmaDests i).2) (mmaSources i).1 (mmaDests i).1 →
    i.op = e.1 → i.fmt = 4 → mmaLegal i = true →
    (i.accRegs ++ i.extraRegs).all (fun r => r == 255 || decide (r ≤ s.topReg g)) = true →
    (g.uniformGuard i = some false → exec (e.2 f slot) s = .next (s.afterIssue f slot (g.next i))) ∧
    (g.uniformGuard i = none ∨ (g.uniformGuard i = some true ∧ g.fullConverged = false) →
      exec (e.2 f slot) s = .next (s.raise f slot g 7 g.pc g.live 0 0 0 0)) ∧
    (g.uniformGuard i = some true → g.fullConverged = true →
      let a := Desc.of (g.desc i.ad)
      let b := Desc.of (g.desc i.bd)
      let sound := a.malformed (some (mmaBits i).1) = false ∧ b.malformed (some (mmaBits i).2) = false
      let inside := (a.holds (mmaCorners i).1.1 (mmaCorners i).1.2 && b.holds (mmaCorners i).2.1 (mmaCorners i).2.2 &&
        a.fits (s.granules f g.block) && b.fits (s.granules f g.block)) = true
      (¬ sound → exec (e.2 f slot) s = .next (s.raise f slot g 10 g.pc g.live 0 0 0 0)) ∧
      (sound → ¬ inside → exec (e.2 f slot) s = .next (s.raise f slot g 11 g.pc g.live 0 0 0 0)) ∧
      (sound → inside → ((s.facet f).prism (slot / 16)).queue.length < 4 →
      ∃ t o w h, exec (e.2 f slot) s = .next t ∧ OnlyGroup s { t with nextId := s.nextId } f slot ∧
        ((t.facet f).prism (slot / 16)).queue = ((s.facet f).prism (slot / 16)).queue ++ [o] ∧
        o.slot = slot ∧ o.w0 = i.w0 ∧ o.w1 = i.w1 ∧ o.token = s.nextId ∧
        t.group? f slot = some h ∧ h.writes = w :: g.writes ∧ w.token = s.nextId ∧ (∀ r ∈ i.accRegs, r ∈ w.vregs) ∧
        w.reads = (if i.op = 0xA2 then [i.a] else []) ∧ h.v = g.v))) ∧
  (∀ (s : State) (f slot : Nat) (g : Machine.Group) (i : Ins), i.fmt = 4 → s.mmaOut f slot = false → g.onceTrue i = true →
    (AtIssue s f slot g i [] [i.d] [] → i.op = 0xBE →
      (field i.w0 47 40 == 0 && field i.w0 31 8 == 0 && i.ext == 0x80 && i.w1 == 0 && decide (i.d < 64)) = true →
      exec (.mmaSr f slot) s = .next (s.afterIssue f slot { g.next i with
        u := tset g.u i.d (BitVec.ofNat 32 (g.shift + (if g.ovf then 256 else 0))) })) ∧
    (AtIssue s f slot g i [] [] [] → i.op = 0xBF → field i.w0 47 0 = 0 → field i.w1 63 9 = 0 → field i.w1 7 6 = 0 →
      (i.w1.getLsbD 5 = true → field i.w1 4 0 % 8 = 0 ∧ field i.w1 4 0 ≤ 24) →
      exec (.mmaSw f slot) s = .next (s.afterIssue f slot { g.next i with
        shift := if i.w1.getLsbD 5 then field i.w1 4 0 else g.shift, ovf := g.ovf && !i.w1.getLsbD 8 })))

/-- R188, R190, R195, R197: a Prism accepts its oldest queued MMA. Register E of an MMA.Q and the accumulator are read once, here:
zeros with ZA, nothing where the tile comes from the latch of the MMA before it, else the group's registers, of which an
uncorrectable word reads as +0 and is counted (R213). From here on E may be written again. The moment of each operand read is the
model's reading (log entry 25). -/
def Obligations.PrismAccepts : Prop :=
  ∀ (s : State) (f q : Nat) (o : MmaOp) (rest : List MmaOp) (g : Machine.Group), ((s.facet f).prism q).queue = o :: rest →
    s.facetRuns f = true → s.group? f o.slot = some g → g.vf ≠ 0 →
    let chained := o.za = false ∧ ∃ l, ((s.facet f).prism q).flight.getLast? = some l ∧ chainsTo l o.slot o.ins = true
    let acc : Option (List Word) := if o.za then some ((tileIndex o.op o.shape).map (fun _ => 0)) else some (g.readTile o)
    let taken : MmaOp := { o with scales := g.scales o, early := o.operands (s.opc f o.block) }
    let lost := (g.tileBad o).length
    ∃ t x, exec (.prismAccept f q) s = .next t ∧ ((t.facet f).prism q).queue = rest ∧
      ((t.facet f).prism q).flight = ((s.facet f).prism q).flight ++ [x] ∧
      (chained → x = { taken with acc := none }) ∧ (¬ chained → x = { taken with acc := acc }) ∧
      t.hbm = s.hbm ∧ t.hull = s.hull ∧ (∀ k, k ≠ o.slot → t.group? f k = s.group? f k) ∧
      t.group? f o.slot = some { g with
        writes := g.writes.map (fun w => if w.token = o.token then { w with reads := [] } else w) } ∧
      (chained ∨ o.za = true ∨ lost = 0 → t.fns = s.fns) ∧
      (¬ chained → o.za = false → 0 < lost →
        t.reg g.vf Reg.poisonDropped = addCount (s.reg g.vf Reg.poisonDropped) 31 0 lost)

/-- R208, R209, R178: the last beat of an MMA whose operand words are sound and were not written while it ran, its accumulator its
own or the latch's. Without overflow, or under the last shift, the tile is written (or handed to the output stage with STAT) and
the instruction leaves the Prism; with overflow below the last shift the shift rises by 8, the retry is counted, and the MMA runs
again from its rescaled accumulator. R214: where an operand was written meanwhile, each element is the old or the new one. The
moment of each operand read is the model's reading (log entry 25). -/
def Obligations.PrismLastBeat : Prop :=
  (∀ (s : State) (f q : Nat) (o : MmaOp) (rest : List MmaOp) (g : Machine.Group) (c : List Word),
    ((s.facet f).prism q).flight = o :: rest → s.group? f o.slot = some g → s.facetRuns f = true → g.vf ≠ 0 →
    o.acc = some c ∨ (o.acc = none ∧ ∃ l, ((s.facet f).prism q).latch = some l ∧ l.tile = c) →
    o.early = o.operands (s.opc f o.block) → (∀ w ∈ o.words, (s.opc f o.block).bad w = false) →
    let r := o.pass (o.operand (s.opc f o.block) true) (o.operand (s.opc f o.block) false) c g.shift
    ∃ t h, exec (.prismLastBeat f q) s = .next t ∧ t.group? f o.slot = some h ∧ t.hbm = s.hbm ∧ t.hull = s.hull ∧
      (r.2 = true → g.shift ≠ 24 → h.shift = g.shift + 8 ∧ h.v = g.v ∧
        t.reg g.vf (Reg.rescaleCount (s.logicalOf g.vf f)) = addCount (s.reg g.vf (Reg.rescaleCount (s.logicalOf g.vf f))) 31 0 1 ∧
        ∃ x, ((t.facet f).prism q).flight = x :: rest ∧ x.acc = some (o.rescaled c)) ∧
      (r.2 = false ∨ g.shift = 24 → ((t.facet f).prism q).flight = rest ∧ h.ovf = (g.ovf || r.2) ∧
        (o.stat = 0 → h.v = (g.writeTile o r.1).v ∧ h.writes = g.writes.filter (fun w => w.token != o.token)) ∧
        (o.stat ≠ 0 → h.v = g.v ∧ ((t.facet f).prism q).out = ((s.facet f).prism q).out ++ [(o, r.1)]))) ∧
  ∀ (width : Nat) (choice : Word) (old new : List (List Nat)) (r k : Nat) (a b x y : _),
    old[r]? = some a → new[r]? = some b → a[k]? = some x → b[k]? = some y →
    ∃ l, (mixBeats width choice old new)[r]? = some l ∧ l[k]? = some (if choice.getLsbD (k / width) then x else y)

/-- R204 to R206: the output stage takes the oldest finished tile and writes it, exponentiated with STAT 2, and the pair S,
S + 1: maximum, sum, position and correction of each row; the instruction retires. Writes to v255 are discarded. -/
def Obligations.OutputStage : Prop :=
  ∀ (s : State) (f q : Nat) (o : MmaOp) (tile : List Word) (rest : List (MmaOp × List Word)) (g : Machine.Group),
    ((s.facet f).prism q).out = (o, tile) :: rest → s.group? f o.slot = some g → s.facetRuns f = true →
    (mmaDims o.op o.shape).1 ≤ 16 → tableWf 32 g.v = true →
    let rows := tileStats g o tile
    let w := (g.writeTile o (if o.stat = 2 then rows.flatMap (fun r => r.2.2.2.2) else tile)).v
    ∃ t h, exec (.outputStageAccept f q) s = .next t ∧ t.group? f o.slot = some h ∧
      ((t.facet f).prism q).out = rest ∧ h.writes = g.writes.filter (fun w => w.token != o.token) ∧
      t.hbm = s.hbm ∧ t.hull = s.hull ∧ t.fns = s.fns ∧
      (∀ i r, rows[i]? = some r →
        (o.ins.b ≠ 255 → tget h.v (32 * o.ins.b + i) = r.1 ∧ tget h.v (32 * o.ins.b + 16 + i) = r.2.1) ∧
        (o.ins.b + 1 ≠ 255 → tget h.v (32 * (o.ins.b + 1) + i) = BitVec.ofNat 32 r.2.2.1 ∧
          tget h.v (32 * (o.ins.b + 1) + 16 + i) = r.2.2.2.1)) ∧
      (∀ n l, l < 32 → n ≠ o.ins.b → n ≠ o.ins.b + 1 → tget h.v (32 * n + l) = tget w (32 * n + l))

/-- R244 to R248: REDG of a converged group and RED.R over a tile inside its descriptor join the RDU's queue with the values
they reduce, and go on with their destination owed; REDB records its values at its barrier, takes an entry of the queue and waits,
or goes on with its destination owed when it is the last to arrive. An uncorrectable register word reads as +0 (R251). -/
def Obligations.ReductionsQueue : Prop :=
  ∀ (s : State) (f slot : Nat) (g : Machine.Group) (i : Ins), ownRed i = true → (s.facet f).rdu.length < 8 →
    (AtIssue s f slot g i ((redSources i).1 ++ (regSets [redDest i]).1) ((redSources i).2 ++ (regSets [redDest i]).2) (redSources i).1
        (regSets [redDest i]).1 →
      i.fmt = 0 → g.uniformGuard i = some true → g.fullConverged = true → i.uc = false → (i.idx = true ∨ i.b = 0) →
      (redDest i :: redSrc i.a :: (if i.idx then [redSrc i.b] else [])).all (Reg?.inRange · (s.topReg g)) = true →
      let values := (List.range 32).map (fun l => g.readLane? i.a l)
      (i.op = 0xC0 → i.c = 0 → ∃ t op h, exec (.redg f slot) s = .next t ∧ (t.facet f).rdu = (s.facet f).rdu ++ [op] ∧
        op.scope = 0 ∧ op.mod = i.mod ∧ op.type = i.type ∧ op.values = values ∧
        (i.idx = false → op.indices = (List.range 32).map (BitVec.ofNat 32)) ∧ t.group? f slot = some h ∧ h.v = g.v ∧
        h.owes (redDest i).vregs (redDest i).uregs = !((redDest i).vregs.isEmpty && (redDest i).uregs.isEmpty)) ∧
      (i.op = 0xC1 → i.c < 16 → s.joinHeld f slot g = false → ∀ b, s.block? f g.block = some b → b.barriers = [] → g.gidx < b.g →
        (∃ e ∈ s.blockGroups f g.block, e.1 ≠ slot ∧ e.2.gidx ≠ g.gidx ∧ e.2.gidx < min b.g 32 ∧ e.2.done = false) →
        ∃ t h b', exec (.redb f slot) s = .next t ∧ t.group? f slot = some h ∧ h.wait = .barrier i.c ∧ h.v = g.v ∧
          t.block? f g.block = some b' ∧ ∃ x, aget? b'.barriers i.c = some x ∧ x.arrived = [g.gidx] ∧
            x.redb = some (i.mod, i.type, if i.idx then 1 else 0) ∧ x.entries.map (fun e => (e.1, e.2.1)) = [(g.gidx, values)] ∧
            ∃ op, (t.facet f).rdu = (s.facet f).rdu ++ [op] ∧ op.scope = 3) ∧
      (i.op = 0xC1 → i.c < 16 → s.joinHeld f slot g = false → ∀ b, s.block? f g.block = some b → b.barriers = [] → g.gidx < b.g →
        b.g ≤ 32 → (s.facet f).redb = [] → (∀ e ∈ s.blockGroups f g.block, e.1 = slot ∨ e.2.done = true) →
        ∃ t h op x, exec (.redb f slot) s = .next t ∧ t.group? f slot = some h ∧ h.wait = .none ∧ h.v = g.v ∧ h.u = g.u ∧
          (g.stack = [] → h.pc = g.pc + 8) ∧
          h.owes (redDest i).vregs (redDest i).uregs = !((redDest i).vregs.isEmpty && (redDest i).uregs.isEmpty) ∧
          (t.facet f).rdu = (s.facet f).rdu ++ [op] ∧ op.scope = 3 ∧ (t.facet f).redb = [x] ∧ x.use = op.use ∧ x.mod = i.mod ∧
          x.type = i.type ∧ x.groups.map (fun e => (e.1, e.2.1)) = [(g.gidx, values)])) ∧
    (AtIssue s f slot g i ((redRSources i).1 ++ (regSets [redDest i]).1) ((redRSources i).2 ++ (regSets [redDest i]).2) (redRSources i).1
        (regSets [redDest i]).1 →
      i.op = 0xC2 → i.fmt = 4 → i.a = 0 → i.b = 0 → i.idx = false → (if i.uc then i.c < 64 else i.c = 0) →
      field i.w1 19 0 = 0 → 1 ≤ i.len → i.len ≤ 8192 → (redDest i).inRange (s.topReg g) = true → g.lanes i ≠ 0 →
      let lanes : Word := if i.ud then BitVec.ofNat 32 (2 ^ lowLane (g.lanes i)) else g.lanes i
      let q := Desc.of (g.desc i.od)
      q.malformed (some (if i.type = 5 then 16 else 32)) = false → q.fits (s.granules f g.block) = true →
      (∀ l < 32, lanes.getLsbD l = true → q.holds (i.rowoff + l) (i.coloff + i.len - 1) = true) →
      ∃ t op h, exec (.redR f slot) s = .next t ∧ (t.facet f).rdu = (s.facet f).rdu ++ [op] ∧ op.scope = 2 ∧
        op.lanes = lanes ∧ op.base = (if i.uc then tget g.u i.c else 0) ∧ op.row0 = i.rowoff ∧ op.col0 = i.coloff ∧ op.len = i.len ∧ t.group? f slot = some h ∧ h.v = g.v)

/-- R228 to R230: OLD and OST whose elements lie inside their descriptor and its allocation join the queue of the vector port
with the row and column of every lane, and go on; an element outside the extents faults with code 11 in its lanes. -/
def Obligations.VectorPortQueues : Prop :=
  ∀ (store : Bool) (s : State) (f slot : Nat) (g : Machine.Group) (i : Ins),
    let dst := if store then ([], []) else regSets [({ uniform := false, rlx := false, n := i.d, span := i.cnt } : Reg?)]
    AtIssue s f slot g i ((vectorSources store i).1 ++ dst.1) ((vectorSources store i).2 ++ dst.2) (vectorSources store i).1 dst.1 →
    i.op = (if store then 0xC9 else 0xC8) → i.fmt = 4 →
    (i.type == 0 && i.mod == 0 && i.c == 0 && !i.ud && field i.w0 4 0 == 0 && decide (field i.w1 33 32 ≤ 2) &&
      field i.w1 31 0 == 0 && (operand i i.ua i.a 1).legal && (operand i i.ub i.b 1).legal) = true →
    ((operand i i.ua i.a 1).inRange (s.topReg g) && (operand i i.ub i.b 1).inRange (s.topReg g) &&
      Reg?.inRange { uniform := false, rlx := false, n := i.d, span := i.cnt } (s.topReg g)) = true →
    g.lanes i ≠ 0 →
    let q := Desc.of (g.desc i.od)
    (q.esize == 4 && (i.cnt == 1 || i.d % 2 == 1)) = false → q.malformed none = false →
    let row (l : Nat) : Nat := readOp s f g (operand i i.ua i.a 1) l + i.rowoff
    let col (l : Nat) : Nat := readOp s f g (operand i i.ub i.b 1) l + i.coloff
    let bad := maskOf (fun l => (g.lanes i).getLsbD l && !(q.holds (row l) (col l + elemsOf i.cnt q.bits - 1)))
    let cmd : Instr := if store then .ost f slot else .old f slot
    (bad ≠ 0 → exec cmd s = .next (s.raise f slot g 11 g.pc bad 0 0 0 0)) ∧
    (bad = 0 → q.fits (s.granules f g.block) = true → (s.facet f).port.length < 8 →
      ∃ t o h, exec cmd s = .next t ∧ (t.facet f).port = (s.facet f).port ++ [o] ∧ o.slot = slot ∧ o.store = store ∧
        o.lanes = g.lanes i ∧ o.desc = g.desc i.od ∧ o.rows = (List.range 32).map row ∧ o.cols = (List.range 32).map col ∧
        o.reg = i.d ∧ o.regs = i.cnt ∧ t.group? f slot = some h ∧ h.v = g.v ∧ t.hbm = s.hbm ∧ t.hull = s.hull ∧
        ∀ b, t.block? f b = s.block? f b)

/-- R221, R229, R230, R246, R248, R249: the vector port serves its oldest instruction and the RDU reduces its oldest. An entry of an
instruction with Ralelle operands, whose access was made at issue, only leaves the queue (log entry 107). An OST writes
its elements into its block's OPC; an OLD its lanes' registers; a REDG, a RED.R and the last arrival of a REDB their result to
the destination, one value in every lane of a vector register or one row's value in each, with the index in the register after
it. Writes to v255 are discarded. A request that keeps losing its bank is recorded as aged.
R173, R174, R246: what the RDU's sum and its extremes give on integers: the sum modulo 2^32, and the largest or smallest
entry with the lowest index among those equal to it. -/
def Obligations.PortAndReductionServe : Prop :=
  (∀ (s : State) (f : Nat), s.facetRuns f = true →
    (∀ o rest, (s.facet f).port = o :: rest → o.ralelle = true → s.portWaits f o = false →
      ∃ t, exec (.vectorPortServe f) s = .next t ∧ (t.facet f).port = rest ∧ (t.facet f).groups = (s.facet f).groups ∧
        (t.facet f).blocks = (s.facet f).blocks ∧ t.hbm = s.hbm ∧ t.hull = s.hull ∧ t.fns = s.fns) ∧
    (∀ o rest b, (s.facet f).port = o :: rest → o.ralelle = false → o.store = true → s.portWaits f o = false →
      s.block? f o.block = some b →
      ∃ t, exec (.vectorPortServe f) s = .next t ∧ (t.facet f).port = rest ∧
        t.block? f o.block = some { b with opc := b.opc.putBits o.storeBits } ∧ t.hbm = s.hbm ∧ t.hull = s.hull ∧ t.fns = s.fns ∧
        (t.facet f).groups = (s.facet f).groups) ∧
    (∀ o rest g, (s.facet f).port = o :: rest → o.ralelle = false → o.store = false → s.portWaits f o = false →
      s.group? f o.slot = some g →
      tableWf 32 g.v = true →
      let sound := ∀ l < 32, o.lanes.getLsbD l = true → (o.loadLane (s.opc f o.block) l).2 = []
      sound ∨ (s.reg g.vf Reg.execOptions).getLsbD 0 = false →
      ∃ t h, exec (.vectorPortServe f) s = .next t ∧ (t.facet f).port = rest ∧ t.group? f o.slot = some h ∧
        (∀ l < 32, o.lanes.getLsbD l = true → ∀ k < o.regs, o.reg + k ≠ 255 →
          tget h.v (32 * (o.reg + k) + l) = BitVec.ofNat 32 ((o.loadLane (s.opc f o.block) l).1 >>> (32 * k))) ∧
        (∀ n l, l < 32 → n < o.reg ∨ o.reg + o.regs ≤ n ∨ n = 255 ∨ o.lanes.getLsbD l = false →
          tget h.v (32 * n + l) = tget g.v (32 * n + l)) ∧
        h.u = g.u ∧ h.p = g.p ∧ h.writes = g.writes.filter (fun w => w.token != o.token) ∧ t.hbm = s.hbm ∧ t.hull = s.hull ∧
        (sound → (∀ w ∈ o.words, (s.opc f o.block).mark w = 0) → t.fns = s.fns)) ∧
    (∀ o rest d g, (s.facet f).rdu = o :: rest → s.group? f d.slot = some g → tableWf 32 g.v = true → tableWf 32 g.u = true →
      let wrote (h : Machine.Group) (lanes : Word) (value : Nat → Word × Word) (indexed : Bool) : Prop :=
        (d.uniform = true → h.v = g.v ∧ tget h.u d.reg = (value (lowLane lanes)).1 ∧
          (indexed = true → tget h.u (d.reg + 1) = (value (lowLane lanes)).2)) ∧
        (d.uniform = false → h.u = g.u ∧ ∀ l < 32,
          (lanes.getLsbD l = true → d.reg ≠ 255 → tget h.v (32 * d.reg + l) = (value l).1) ∧
          (lanes.getLsbD l = true → indexed = true → d.reg + 1 ≠ 255 → tget h.v (32 * (d.reg + 1) + l) = (value l).2) ∧
          ∀ n, (n ≠ d.reg ∧ (indexed = false ∨ n ≠ d.reg + 1)) ∨ n = 255 ∨ lanes.getLsbD l = false →
            tget h.v (32 * n + l) = tget g.v (32 * n + l)) ∧
        h.p = g.p ∧ h.writes = g.writes.filter (fun w => w.token != d.token)
      (o.scope = 0 → o.outs = [d] →
        let x := reduce o.mod o.type ((o.values.zip o.indices).map (fun e => some (redEntry o.type e.1, e.2)))
        ∃ t h, exec (.rduAccept f) s = .next t ∧ (t.facet f).rdu = rest ∧ t.group? f d.slot = some h ∧
          wrote h (BitVec.allOnes 32) (fun _ => x) (decide (3 ≤ o.mod)) ∧ t.hbm = s.hbm ∧ t.hull = s.hull ∧ t.fns = s.fns) ∧
      (o.scope = 2 → o.outs = [d] → o.lanes ≠ 0 → (∀ p ∈ (s.facet f).port, o.order < p.token) →
        (∀ l < 32, o.lanes.getLsbD l = true → ∀ w ∈ o.rowWords l, (s.opc f o.block).mark w = 0) →
        ∃ t h, exec (.rduAccept f) s = .next t ∧ (t.facet f).rdu = rest ∧ t.group? f d.slot = some h ∧
          wrote h o.lanes (fun l => reduce o.mod o.type (o.row (s.opc f o.block) l).1) (decide (3 ≤ o.mod)) ∧
          t.hbm = s.hbm ∧ t.hull = s.hull ∧ t.fns = s.fns) ∧
      ∀ x, o.scope = 3 → (s.facet f).redb = [x] → x.use = o.use → (∀ a ∈ rest, a.scope = 3 → a.use ≠ o.use) → x.outs = [d] →
        ∃ t h, exec (.rduAccept f) s = .next t ∧ (t.facet f).rdu = rest ∧ (t.facet f).redb = [] ∧ t.group? f d.slot = some h ∧
          wrote h (BitVec.allOnes 32) (fun _ => x.redbValue) (decide (3 ≤ x.mod)) ∧ t.hbm = s.hbm ∧ t.hull = s.hull ∧ t.fns = s.fns) ∧
    (∀ client bank write, bank < 32 → client ≤ 5 → (write = true → 4 ≤ client) → (s.facet f).asks client bank write = true →
      s.facetRuns f = true →
      (client, bank, write) ∉ (s.facet f).aged →
      ∃ t, exec (.opcRequestAged f client bank write) s = .next t ∧
        (t.facet f).aged = (s.facet f).aged ++ [(client, bank, write)] ∧ (t.facet f).groups = (s.facet f).groups)) ∧
  (∀ (type : Nat) (l : List (Word × Word)), type ≤ 1 → l ≠ [] →
    let value (w : Word) : Int := if type = 1 then w.toInt else w.toNat
    (reduce 0 type (l.map some)).1 = l.foldl (fun a e => a + e.1) 0 ∧
    ∀ mod, 1 ≤ mod → mod ≤ 4 →
      let r := reduce mod type (l.map some)
      (∃ e ∈ l, e = r) ∧
      (∀ e ∈ l, if mod = 1 ∨ mod = 3 then value e.1 ≤ value r.1 else value r.1 ≤ value e.1) ∧
      (∀ e ∈ l, e.1 = r.1 → r.2.toNat ≤ e.2.toNat))

/-- R59, R115, R116: what a group executes stays on its Facet. No instruction, fault or watchdog of a group changes memory,
the Hull, a port, a clock, the power state or the firmware's state, and none changes a group of another Facet: memory changes only
through the requests the Hull serves. The store changes only where a Facet leaves service, which its system area records (R49). -/
def Obligations.InstructionsStayOnTheirFacet : Prop :=
  ∀ cmd ∈ [
      Instr.mov, .movs, .iadd, .isub, .imul, .imulh, .imad, .imin, .imax, .iabs, .and, .or, .xor, .not, .shl, .shr, .sar,
      .popc, .clz, .icmp, .sel, .iadd64, .imad64, .fadd, .fmul, .ffma, .fmin, .fmax, .fcmp, .fabs, .rcp, .rsq, .sqrt,
      .exp2, .log2, .sin, .cos, .exp, .act, .actd, .cvt, .i2i, .shfl, .shflP, .bswz, .pack, .unpk, .vote, .ld, .lds, .st,
      .hint, .atom, .acq, .rel, .fence, .bra, .exit, .joinWait, .joinPass, .trap, .fretRetry, .fretSkip, .fretAbort, .nop,
      .tmLd, .tmSt, .tmWait, .mmaH, .mmaB, .mmaQ, .mmaF, .mmaSr, .mmaSw, .redg, .redb, .redR, .old, .ost,
      .unassignedOpcode, .fetchPastRange, .progressStall],
    ∀ (s t : State) (f slot : Nat), exec (cmd f slot) s = .next t →
      t.hbm = s.hbm ∧ t.hull = s.hull ∧ t.ports = s.ports ∧ t.egress = s.egress ∧ (t.retired = s.retired → t.store = s.store) ∧ t.power = s.power ∧
        t.boot = s.boot ∧ t.side = s.side ∧ t.pending = s.pending ∧ ∀ k, k ≠ f → t.facet k = s.facet k

/-- R62, R67, R69, R73, R104, R115, R118, R236, R524: what comes back to a group. The data of a served load are written to its
lanes' registers, and once its last line is back its pending write ends; the acknowledgement of a store's last line is a progress
event. The last line of an ACQ or REL that all its lanes' words allowed ends it: ACQ leaves in its predicate the lanes that
acquired, and where no lane parks the group goes on. A line of a TM.LD or TM.ST takes one off its transfer's outstanding
requests. The request's slot is free again; no other register changes. R237, R239: the line of a TM.LD is kept until the granules
it completes are written: a valid element with the memory's bits, one outside the valid region with zeros. -/
def Obligations.LineReturns : Prop :=
  (∀ (s : State) (n : Nat) (r : LineReq), s.req? n = some r → r.stage = .served → s.markGate r = none →
    let freed (t : State) : Prop := t.reqs = s.reqs.filter (fun q => q.id != n)
    (∀ g, s.reqGroup r = some g →
      (r.kind = .load → tableWf 32 g.v = true → r.width ≤ 4 → r.reread = false →
        (∀ a ∈ r.lanes, a.lane < 32 ∧ a.reg < 255) → (r.lanes.map (·.lane)).Nodup →
        r.result.map (·.1) = r.lanes.map (·.lane) → (∀ x ∈ r.result, x.2.2 = false) →
        ∀ w, g.writes.find? (fun w => w.token == r.token) = some w → w.poison = [] → w.reread = [] → w.modified = false →
        ∃ t h, exec (.lineDataReturn n) s = .next t ∧ freed t ∧ t.group? r.f r.slot = some h ∧
          (∀ p ∈ r.lanes.zip r.result, tget h.v (32 * p.1.reg + p.1.lane) =
            BitVec.ofNat 32 (extendLoad r.width r.signed p.2.2.1.toNat)) ∧
          (∀ k, (∀ a ∈ r.lanes, k ≠ 32 * a.reg + a.lane) → tget h.v k = tget g.v k) ∧ h.u = g.u ∧ h.p = g.p ∧ h.pc = g.pc ∧
          (t.tokenOut r.token = false → h.writes = g.writes.filter (fun x => x.token != r.token)) ∧
          t.hbm = s.hbm ∧ t.hull = s.hull ∧ t.fns = s.fns) ∧
      (r.kind = .store → ∃ t h, exec (.storeAck n) s = .next t ∧ freed t ∧
        t.group? r.f r.slot = some h ∧ h.v = g.v ∧ h.u = g.u ∧ h.p = g.p ∧ h.pc = g.pc ∧
        (t.tokenOut r.token = false → h.progress = 0 ∧ h.events = g.events + 1) ∧ (t.tokenOut r.token = true → h = g) ∧
        ((s.reg r.vf Reg.deltaCtrl).getLsbD 31 = false → t.hull = s.hull ∧ t.hbm = s.hbm ∧ t.fns = s.fns)) ∧
      (∀ k, r.kind = (if k.acquire then .acq else .rel) → g.lock = some k → g.done = false → k.left = 1 → k.stop = 0 →
        k.pois = [] → (∀ x ∈ r.result, x.2.2 = false ∧ x.2.1.toNat < 4) →
        let lanes (v : Nat) : Word := maskOf (fun l => r.result.any (fun x => x.1 == l && x.2.1.toNat == v))
        let got := k.got ||| lanes 1
        let parked := if k.acquire then k.sibling ||| lanes 2 else 0
        ∃ t h, exec (.lineDataReturn n) s = .next t ∧ freed t ∧ t.group? r.f r.slot = some h ∧
          h.v = g.v ∧ h.u = g.u ∧ h.wait = .none ∧ h.lock = none ∧
          (k.acquire = true → parked = 0 → h.p = tset g.p k.dest ((tget g.p k.dest &&& ~~~k.lanes) ||| got)) ∧
          (k.acquire = false → h.p = g.p ∧ h.progress = 0 ∧ h.events = g.events + 1) ∧
          (parked = 0 → g.stack = [] → h.pc = g.pc + 8 ∧ h.active = g.active))) ∧
    (r.kind = .hint → exec (.storeAck n) s = .next { s with reqs := s.reqs.filter (fun q => q.id != n) }) ∧
    (r.kind = .tmLoad ∨ r.kind = .tmStore → ∃ t, exec (if r.kind = .tmLoad then .lineDataReturn n else .storeAck n) s = .next t ∧
      freed t ∧ (∀ k, k ≠ r.f → t.facet k = s.facet k) ∧ (t.facet r.f).groups = (s.facet r.f).groups ∧
      (∀ x ∈ (s.facet r.f).transfers, x.id = r.token → x.lines ≠ [] →
        ∃ y ∈ (t.facet r.f).transfers, y.id = x.id ∧ y.out = x.out - 1 ∧ y.lines = x.lines) ∧
      (r.kind = .tmLoad → t.hbm = s.hbm ∧ t.hull = s.hull ∧ t.fns = s.fns ∧
        ∀ x ∈ (s.facet r.f).transfers, x.id = r.token → x.store = false → ((s.facet r.f).transfers.map (·.id)).Nodup →
          let ta := ((r.lanes.head?).map (·.taddr)).getD 0
          let y : Transfer := { x with
            out := x.out - 1, got := ta / 2048 :: x.got
            back := r.result.foldl (fun m w => if w.2.2 then m.poison (ta / 16 + w.1) else m.setWord (ta / 16 + w.1) w.2.1 0) x.back }
          ∀ b, s.block? r.f x.block = some b → b.ended = false →
            t.block? r.f x.block = some { b with
              opc := (y.granules.filter (fun n => !x.written.contains n && y.ready n)).foldl y.writeGranule b.opc }))) ∧
  ∀ (x : Transfer) (m : Ram) (n : Nat) (e : Nat × Nat),
    let d := MemDesc.of x.mem
    let q := Desc.of x.opc
    let place (e : Nat × Nat) : Nat := q.bit e.1 e.2
    let read (e : Nat × Nat) : Option Nat := x.back.bitsAt (d.bit e.1 e.2) d.bits
    Memory.wf m = true → e ∈ x.granule n → q.esize = d.esize → d.esize ≤ 4 → d.bits ∣ place e → m.bad (place e / 128) = false →
    (∀ a ∈ x.granule n, a ≠ e → place a + d.bits ≤ place e ∨ place e + d.bits ≤ place a) →
    (∀ a ∈ x.granule n, place a / 128 = place e / 128 → d.bits ∣ place a ∧ (d.valid a = true → read a ≠ none)) →
    (x.writeGranule m n).bitsAt (place e) d.bits = (if d.valid e then read e else some 0)

/-- R61, R270 to R274: a request for a resident line whose sectors are valid, with no other request of the line accepted, is
served at once, at its first presentation or after HULL_BUSY. A load takes the line's bytes and changes none. A store puts its
bytes in, later lanes over earlier ones, and marks its sectors valid and dirty; every other byte of memory stays. An ATOM makes
its lanes' steps one after the other, an ACQ and a REL theirs in ascending lane order, a REL none where a lane is no owner. R279,
R284: a request that misses waits for the requests of its victim's line, is answered HULL_BUSY without a victim, a free tracker or
room in the sink, and else claims the victim's way, whose dirty sectors go to the sink unless the line is dead, and starts its
fill. R66, R67, R69, R119: the step of one lane: what it stores and returns. R284: the order of victims. The mode of FADD is the
model's choice (log entry 111). -/
def Obligations.ResidentLineServes : Prop :=
  (∀ (s : State) (n way : Nat) (r : LineReq) (cmd : Instr), s.req? n = some r → (s.reqs.map (·.id)).Nodup →
    (cmd = .hullRequestAccept n 0 way ∧ r.stage = .formed) ∨ (cmd = .hullRepresent n ∧ r.stage = .busy) →
    s.hullClocked r.line = true → s.behind r = false → s.hcLine r.line = false → r.bypass = false →
    (∀ q ∈ s.reqs, q.line = r.line → q.stage ≠ .accepted ∧ q.late = false) →
    let served (t : State) (res : List (Nat × BitVec 128 × Bool)) : Prop :=
      t.req? n = some { r with stage := .served, result := res } ∧ t.hbm = s.hbm ∧ t.facets = s.facets ∧
      t.fns = (s.noteOverlap r.vf (LineReq.marks { r with result := res })).fns ∧ ∀ k, k ≠ n → t.req? k = s.req? k
    (∀ w, s.lineWay r.line = some w → r.needs &&& ~~~ w.valid = 0 →
      let steps := r.lanes.foldl (fun (p : State × List (Nat × BitVec 128 × Bool)) a =>
        ((p.1.atomLane r a).1, p.2 ++ [(p.1.atomLane r a).2])) (s, [])
      let ordered := (r.lanes.map (·.lane)).Pairwise (· < ·) ∧ ∀ a ∈ r.lanes, a.lane < 32
      (r.kind = .load → ∃ t, exec cmd s = .next t ∧ t.hull.data = s.hull.data ∧
        served t (r.lanes.map (fun a => (a.lane, BitVec.ofNat 128 (s.lineRead a.addr r.width).1, (s.lineRead a.addr r.width).2)))) ∧
      (r.kind = .tmLoad → ∃ t res, exec cmd s = .next t ∧ t.hull.data = s.hull.data ∧ served t res ∧
        ∀ k d p, (k, d, p) ∈ res ↔ k < 128 ∧ r.sectors.getLsbD (k / 8) = true ∧ p = s.hull.data.bad (128 * r.line + k) ∧
          d = (s.hull.data.decode (128 * r.line + k)).getD 0) ∧
      (r.kind = .store ∨ r.kind = .tmStore → r.pois = [] → Memory.wf s.hull.data = true → (∀ b ∈ r.bytes, b.1 < 2048) →
        (∀ b ∈ r.bytes, s.hull.data.mark ((2048 * r.line + b.1) / 16) = 0) →
        ∃ t x, exec cmd s = .next t ∧ served t [] ∧
          (∀ a, t.hull.data.byte a =
            match r.bytes.reverse.find? (fun b => 2048 * r.line + b.1 == a) with
            | some b => b.2
            | none => s.hull.data.byte a) ∧
          t.lineWay r.line = some x ∧ x.valid = w.valid ||| r.sectors ∧ (r.dead = false → x.dirty = w.dirty ||| r.sectors)) ∧
      (r.kind = .hint → ∃ t, exec cmd s = .next t ∧ t.hull.data = s.hull.data ∧ served t []) ∧
      (r.kind = .atomic → ∃ t x, exec cmd s = .next t ∧ served t steps.2 ∧ t.hull.data = steps.1.hull.data ∧
        t.lineWay r.line = some x ∧ x.valid = w.valid ||| r.wrote steps.2 ∧ (r.dead = false → x.dirty = w.dirty ||| r.wrote steps.2)) ∧
      (r.kind = .acq → ordered → ∃ t x, exec cmd s = .next t ∧ served t steps.2 ∧ t.hull.data = steps.1.hull.data ∧
        t.lineWay r.line = some x ∧ x.dirty = w.dirty ||| r.wrote steps.2) ∧
      (r.kind = .rel → ordered →
        let wrong := ∃ x ∈ steps.2, x.2.2 = false ∧ x.2.1 = 0
        (¬ wrong → ∃ t x, exec cmd s = .next t ∧ served t steps.2 ∧ t.hull.data = steps.1.hull.data ∧
          t.lineWay r.line = some x ∧ x.dirty = w.dirty ||| r.wrote steps.2) ∧
        (wrong → ∃ t, exec cmd s = .next t ∧ t.hull.data = s.hull.data ∧
          served t (steps.2.map (fun x => if x.2.2 then x else (x.1, x.2.1 + 4, false)))))) ∧
    (s.lineWay r.line = none → r.kind ≠ .hint → s.bypasses r = false → r.cls < 3 → r.sectors ≠ 0 →
      let k := setOf r.line
      let chosen := victim (s.waysFor k r) r.vf (s.quota r.vf) false
      let busy (t : State) : Prop := t.req? n = some { r with stage := .busy } ∧ t.hull = { s.hull with busy := t.hull.busy } ∧
        t.hbm = s.hbm ∧ t.facets = s.facets ∧ t.fns = s.fns ∧ ∀ k, k ≠ n → t.req? k = s.req? k
      (chosen = none → ∃ t, exec cmd s = .next t ∧ busy t) ∧
      (∀ i v, chosen = some i → (s.set k)[i]? = some v →
        (s.victimWaits k i = true → exec cmd s = .next s) ∧
        (s.victimWaits k i = false → s.victimRoom k i = false ∨ s.trackerFree r.line n = false →
          ∃ t, exec cmd s = .next t ∧ busy t) ∧
        (s.victimWaits k i = false → s.victimRoom k i = true → s.trackerFree r.line n = true →
          ∃ t x q, exec cmd s = .next t ∧ t.lineWay r.line = some x ∧ t.req? n = some q ∧ x.tenant = r.vf ∧ x.tag = tagOf r.line ∧
            x.dead = (r.dead && r.needs == 0 && r.hinted) ∧ t.facets = s.facets ∧
            (v.valid = 0 ∨ v.dead = true → t.hbm = s.hbm) ∧
            (v.valid ≠ 0 → v.dead = false → t.hbm = (s.writeBackSectors (lineOf k v.tag) v.dirty).hbm) ∧
            (r.needs ≠ 0 → q.stage = .accepted ∧ x.valid = 0 ∧ x.dirty = 0 ∧ x.filling = true ∧ x.use = r.use ∧
              t.hull.fills = s.hull.fills ++ [{ line := r.line, sectors := if r.isRead then 0xFFFF else r.needs }]) ∧
            (r.isRead = false → r.needs = 0 → q.stage = .served ∧ x.valid = r.sectors ∧ x.filling = false ∧
              t.hull.fills = s.hull.fills))))) ∧
  (∀ (s : State) (r : LineReq) (a : LaneAcc), Memory.wf s.hull.data = true → r.width = 4 ∨ r.width = 8 → a.addr % r.width = 0 →
    let m := 2 ^ (8 * r.width)
    let old := s.hull.data.nat a.addr r.width
    let x := a.data.toNat % m
    let y := a.cmp.toNat % m
    let p := s.atomLane r a
    let stored (v : Nat) : Prop := p.1.hull.data.nat a.addr r.width = v ∧
      ∀ b, b < a.addr ∨ a.addr + r.width ≤ b → p.1.hull.data.byte b = s.hull.data.byte b
    let value (v : Nat) : Int := if r.type = 1 then signedN (8 * r.width) v else v
    (s.hull.data.bad (a.addr / 16) = true → p = (s, (a.lane, 0, true))) ∧
    (s.hull.data.mark (a.addr / 16) = 0 →
      (r.kind = .acq →
        (old = 0 → stored x ∧ p.2 = (a.lane, 1, false)) ∧
        (old ≠ 0 → p.1 = s ∧ p.2 = (a.lane, if old / 2 ^ 17 = x / 2 ^ 17 then 2 else 0, false))) ∧
      (r.kind = .rel →
        (old = x → stored 0 ∧ p.2 = (a.lane, 1, false)) ∧ (old ≠ x → p.1 = s ∧ p.2 = (a.lane, 0, false))) ∧
      (r.kind = .atomic → r.op ≤ 8 → p.2 = (a.lane, BitVec.ofNat 128 old, false) ∧ stored (
        match r.op with
        | 0 => (old + x) % m
        | 1 => if value x < value old then x else old
        | 2 => if value old < value x then x else old
        | 3 => old &&& x
        | 4 => old ||| x
        | 5 => old ^^^ x
        | 6 => x
        | 7 => if old = y then x else old
        | _ => f32.add 0 old x)))) ∧
  ∀ (l : List Way) (t quota : Nat),
    let own := l.countP (fun w => w.tenant == t && (w.valid != 0 || w.filling))
    let cand (w : Way) : Prop := w.off = false ∧ w.cls ≠ 3 ∧ w.filling = false ∧ (quota ≤ own → w.tenant = t)
    let rank (w : Way) : Nat := if w.dead then 1 else if w.cls = 1 ∧ w.use = 0 then 2 else if w.use = 0 then 3 else 4
    (victim l t quota false = none ↔ ∀ w ∈ l, ¬ cand w) ∧
    ∀ i, victim l t quota false = some i → ∃ v, l[i]? = some v ∧ cand v ∧
      ∀ k w, l[k]? = some w → cand w →
        (w.valid = 0 → v.valid = 0 ∧ i ≤ k) ∧
        (v.valid ≠ 0 → rank v < rank w ∨ (rank v = rank w ∧ w.age ≤ v.age))

/-- R271, R276: the arrival of a sector's data makes the sector valid and changes nothing that any read of memory returns. The
moment at which a fill takes its data is the model's reading (log entry 27). -/
def Obligations.FillArrivalIsInvisible : Prop :=
  ∀ (s : State) (line sector : Nat) (f : Fill), s.memoryWf = true →
    s.hull.fills.find? (fun f => f.line == line && f.read && f.sectors.getLsbD sector) = some f → f.bypass = none →
    s.hullClocked line = true → (∀ n ∈ (s.pc (engineOf (16 * line))).nma, n.addr / 128 ≠ 16 * line + sector) →
    s.headOf line = none → (∀ q ∈ s.reqs, q.line = line → q.late = false) →
    ∃ t, exec (.fillSectorArrival line sector) s = .next t ∧ (∀ k, t.coherent k = s.coherent k) ∧ t.hbm = s.hbm ∧
      t.reqs = s.reqs ∧ t.facets = s.facets ∧ t.fns = s.fns ∧
      ∀ w, s.lineWay line = some w → ∃ x, t.lineWay line = some x ∧ x.valid.getLsbD sector = true ∧ x.dirty = w.dirty

/-- R275: agents see one memory with the Facets. An agent's write within a sector changes exactly its bytes, wherever the line
is; its read within a sector returns the coherent bytes and changes none. Both once nothing holds the access back (R274, R306,
R307, R385): no copy of the host's, no accepted request of the line, a full sink, a read's window, or a gated slice. -/
def Obligations.AgentsAreCoherent : Prop :=
  ∀ (s : State) (a : Nat), s.memoryWf = true →
    (∀ l w, sectorWrites a l false = [w] → s.agentGate a l.length true = none → ∃ t, exec (.agentWrite a l) s = .next t ∧
      (∀ k, t.coherent k = if k = w.sector then (s.coherent k).merge w.mask w.data else s.coherent k) ∧
      t.facets = s.facets ∧ t.fns = s.fns) ∧
    (∀ n, 0 < n → a % 128 + n ≤ 128 → s.agentGate a n false = none → (∀ d ∈ s.drains, ∀ x, s.drainNext d = some x → x.1 ≠ a) →
      (s.pc (engineOf (a / 128))).failedPins = [] →
      (∀ w, s.lineWay (a / 2048) = some w → w.dirty &&& ~~~ w.valid = 0) →
      ∃ t, exec (.agentRead a n) s = .next t ∧
        t.out.answers = (2, a, ((s.coherent (a / 128)).bytes.drop (a % 128)).take n) :: s.out.answers ∧
        ∀ k, t.coherent k = s.coherent k)

/-- R286 to R289: pin and unpin commands queue while BUSY is 0 and are discarded with OVERRUN set while it is 1. The oldest
runs: outside one region or without lines its status is 2; an unpin leaves no line of the range pinned by the tenant; a pin of
resident lines that fits pins them all; else the status and FAILED_SET say why. A pin in its loop allocates the next line that is
not resident, with its fill, and waits where that line's way, sink or tracker is not free. R285, R291, R292: a quota from 1 to 16
that leaves the tenant's pins room is stored, another is refused with REFUSED set; the thrash guard engages at the end of WINDOW
low periods in a row; clearing its EN releases it at once. How far one command takes the loop is the model's reading (log entry
94). -/
def Obligations.PinsQuotaAndThrashGuard : Prop :=
  ((∀ (s : State) (j : Nat) (pin : Bool), 1 ≤ j → j ≤ 16 → s.side.cxlUp = true → s.serves j = true →
    let cmd : Instr := if pin then .pinCmdPin j else .pinCmdUnpin j
    ((s.reg j Reg.hullPinStatus).getLsbD 31 = true → exec cmd s = .next (s.setRegF j Reg.hullPinStatus 30 30 1)) ∧
    ((s.reg j Reg.hullPinStatus).getLsbD 31 = false → ∃ t c, exec cmd s = .next t ∧ t.hull.pins = s.hull.pins ++ [c] ∧
      c.vf = j ∧ c.pin = pin ∧ c.addr = s.regF j Reg.hullPinAddrHi 15 0 * 2 ^ 32 + s.regF j Reg.hullPinAddrLo 31 11 * 2048 ∧
      c.lines = s.regF j Reg.hullPinLen 16 0 ∧ (t.reg j Reg.hullPinStatus).getLsbD 31 = true ∧ t.hull.sets = s.hull.sets)) ∧
  (∀ (s : State) (c : PinCmd) (rest : List PinCmd), s.hull.pins = c :: rest → c.running = false →
    let fits := 0 < c.lines ∧ c.lines ≤ 65536 ∧ s.inOneRegion c.vf c.addr (2048 * c.lines) = true
    (¬ fits → ∃ t, exec .pinCmdRun s = .next t ∧ t.hull.pins = rest ∧ t.hull.sets = s.hull.sets ∧
      t.regF c.vf Reg.hullPinStatus 31 31 = 0 ∧ t.regF c.vf Reg.hullPinStatus 7 0 = 2) ∧
    ∀ d, fits → s.translate c.vf c.addr = some d →
      (c.pin = false → ∃ t, exec .pinCmdRun s = .next t ∧ t.hull.pins = rest ∧ t.hull.data = s.hull.data ∧
        t.regF c.vf Reg.hullPinStatus 31 31 = 0 ∧ t.regF c.vf Reg.hullPinStatus 7 0 = 1 ∧
        ((∀ k < c.lines, ∀ w, s.lineWay (d / 2048 + k) = some w → w.valid ≠ 0) →
          ∀ k < c.lines, ∀ w, t.lineWay (d / 2048 + k) = some w → ¬ (w.cls = 3 ∧ w.pinner = c.vf))) ∧
      (c.pin = true → (∀ k < c.lines, s.hullClocked (d / 2048 + k) = true ∧ s.lineWaits (d / 2048 + k) = false ∧
          ∃ w, s.lineWay (d / 2048 + k) = some w ∧ w.filling = false) →
        let tight (e : Nat × Nat × Nat) : Bool := decide (s.quota c.vf - 1 < pinnedBy (s.set e.1) c.vf + e.2.2)
        let full (e : Nat × Nat × Nat) : Bool := decide (12 - disabledWays (s.set e.1) < pinnedAll (s.set e.1) + e.2.2)
        ∃ t, exec .pinCmdRun s = .next t ∧ t.hull.pins = rest ∧ t.regF c.vf Reg.hullPinStatus 31 31 = 0 ∧
          (∀ e, (s.pinSets (d / 2048) c.lines).find? tight = some e →
            t.regF c.vf Reg.hullPinStatus 7 0 = 3 ∧ t.regF c.vf Reg.hullPinStatus 22 8 = e.1 ∧ t.hull.sets = s.hull.sets) ∧
          (∀ e, (s.pinSets (d / 2048) c.lines).find? tight = none → (s.pinSets (d / 2048) c.lines).find? full = some e →
            t.regF c.vf Reg.hullPinStatus 7 0 = 4 ∧ t.regF c.vf Reg.hullPinStatus 22 8 = e.1 ∧ t.hull.sets = s.hull.sets) ∧
          ((s.pinSets (d / 2048) c.lines).find? tight = none → (s.pinSets (d / 2048) c.lines).find? full = none →
            t.regF c.vf Reg.hullPinStatus 7 0 = 1 ∧ t.hull.data = s.hull.data ∧
            ∀ k < c.lines, ∀ w, s.lineWay (d / 2048 + k) = some w →
              t.lineWay (d / 2048 + k) = some (if w.cls = 3 then w else { w with cls := 3, use := 15, dead := false, pinner := c.vf }))))) ∧
  (∀ (s : State) (c : PinCmd) (rest : List PinCmd) (d : Nat), s.hull.pins = c :: rest → c.running = true →
    s.translate c.vf c.addr = some d → 0 < c.left → c.left ≤ c.lines →
    let line := d / 2048 + (c.lines - c.left)
    let k := setOf line
    s.lineWay line = none →
      (victim (s.set k) c.vf (s.quota c.vf) true = none → exec .pinCmdRun s = .next s) ∧
      ∀ i, victim (s.set k) c.vf (s.quota c.vf) true = some i →
        let free := s.victimRoom k i = true ∧ s.victimWaits k i = false ∧ s.hullClocked line = true ∧ s.pinTracker line = true
        (¬ free → exec .pinCmdRun s = .next s) ∧
        (free → ∃ t w n, exec .pinCmdRun s = .next t ∧ n < c.left ∧ t.hull.pins = { c with left := n } :: rest ∧
          t.lineWay line = some w ∧ w.cls = 3 ∧ w.pinner = c.vf ∧ w.tenant = c.vf ∧ w.valid = 0 ∧ w.filling = true ∧
          (∃ f ∈ t.hull.fills, f.line = line ∧ f.sectors = 0xFFFF ∧ f.bypass = none) ∧ t.reg c.vf Reg.hullPinStatus = s.reg c.vf Reg.hullPinStatus)) ∧
  (∀ (s : State) (j : Nat) (v : Word), 1 ≤ j → j ≤ 16 →
    (s.side.cxlUp = true → s.serves 0 = true →
      (1 ≤ field v 4 0 → field v 4 0 ≤ 16 → s.maxPins j < field v 4 0 →
        ∃ t, exec (.hullQuotaWrite j v) s = .next t ∧ t.quota j = field v 4 0 ∧ t.hull = s.hull ∧ t.hbm = s.hbm) ∧
      (field v 4 0 < 1 ∨ 16 < field v 4 0 ∨ field v 4 0 ≤ s.maxPins j →
        ∃ t, exec (.hullQuotaWrite j v) s = .next t ∧ t.quota j = s.quota j ∧ (t.reg 0 (Reg.hullQuota j)).getLsbD 31 = true) ∧
      ∃ t, exec (.hullTgCfgWrite j v) s = .next t ∧ t.reg 0 (Reg.hullTgCfg j) = v &&& 0x80FFFFFF ∧
        (v.getLsbD 31 = true → t.hull = s.hull) ∧
        (v.getLsbD 31 = false → (t.guard j).engaged = false ∧ (t.reg j Reg.hullTgStatus).getLsbD 31 = false)) ∧
    ∃ t, exec (.tgPeriodEnd j) s = .next t ∧ (t.guard j).hits = 0 ∧ (t.guard j).requests = 0 ∧
      (t.guard j).cfg = s.reg 0 (Reg.hullTgCfg j) ∧
      let g := s.guard j
      (g.cfg.getLsbD 31 = true → 256 ≤ g.requests → g.engaged = false → g.hits * 256 < field g.cfg 23 16 * g.requests →
        ((t.guard j).engaged = true ↔ max 1 (field g.cfg 7 0) ≤ g.run + 1) ∧ (t.guard j).run = g.run + 1) ∧
      (g.cfg.getLsbD 31 = true → 256 ≤ g.requests → g.engaged = true →
        min 256 (field g.cfg 23 16 + field g.cfg 15 8) * g.requests ≤ g.hits * 256 → (t.guard j).engaged = false))

/-- R304 to R308: the first waiting write that has an entry of its sector or finds one free enters its engine's sink, coalesced
with that entry; a service window puts the oldest entry into the cells, and none begins where no work waits; a demand read reads
the sectors of the oldest tracker. None of them changes what a read returns. When a service window may start is the model's
reading (log entry 37). -/
def Obligations.SinkAndCells : Prop :=
  ∀ (s : State) (k pc : Nat), let e := 64 * k + pc
    let p := s.pc e
    (p.sink.map (·.sector)).Nodup →
    (∀ i w, p.inbound.findIdx? (fun w => p.entries.any (·.sector == w.sector) || decide (p.used < 256)) = some i →
      p.inbound[i]? = some w → s.engineUp e = true →
      ∃ t, exec (.sinkWrite k pc) s = .next t ∧ t.pc e = ({ p with inbound := p.inbound.eraseIdx i } : PseudoChannel).commit w ∧
        t.hbm.cells = s.hbm.cells ∧ t.hull = s.hull ∧
        (p.nma = [] → (t.pc e).sink = coalesce p.sink w ∧
          ∀ x, engineOf x = e → (s.hbm.cells.sector x).pois = 0 → (∀ v ∈ p.sink ++ p.inbound, v.data.pois = 0) →
            t.hbmSector x = s.hbmSector x)) ∧
    (∀ w rest, p.sink = w :: rest → p.copy = none → s.demand e = none → s.engineUp e = true → engineOf w.sector = e →
      p.failedPins = [] → (s.reg 0 Reg.hbmInject).getLsbD 31 = false →
      ∃ t, exec (.serviceWindowStart k pc 1) s = .next t ∧ (t.pc e).sink = rest ∧ (t.pc e).service = true ∧
        (t.pc e).served = 0 ∧ t.hull = s.hull ∧
        t.hbm.cells = s.hbm.cells.putSector w.sector ((s.hbm.cells.sector w.sector).merge w.mask w.data) ∧
        (s.memoryWf = true → t.hbmSector w.sector = s.hbmSector w.sector)) ∧
    (p.sink = [] → p.nma = [] → p.agentAt = none → p.copy = none → (s.reg 0 Reg.frustumCfg).getLsbD 31 = false →
      exec (.serviceWindowStart k pc 1) s = .next s) ∧
    (∀ f, s.demand e = some f → s.engineUp e = true → s.memoryWf = true →
      ∃ t, exec (.demandRead k pc []) s = .next t ∧
        t.hull.fills = s.hull.fills.map (fun x => if x = f then { x with read := true } else x) ∧
        t.hull.data = s.hull.data ∧ (t.pc e).served = p.served + 1 ∧ t.hbm.cells = s.hbm.cells ∧
        (p.failedPins = [] → ∀ x, t.hbmSector x = s.hbmSector x))

/-- R309, R312 to R315: patrol scrub leaves every word of its sector a codeword or the canonical poisoned word, and every byte
that reads as data as it was; refresh counts; the refresh rate doubles from 85 °C and returns at 80 °C; a row due for remap is
copied to a spare of its bank that no entry uses, by a scrub step of each of its sectors, and its entry then takes effect; with
no spare left or a full table EXHAUSTED is set. When scrub and copies may run, which spare is next, and that a row is remapped
once, is the model's reading (log entries 32 and 33). -/
def Obligations.ScrubRefreshRemap : Prop :=
  ∀ (s : State) (k pc : Nat), k < 12 → pc < 64 → let e := 64 * k + pc
    let clean (t : State) (x : Nat) : Prop := ∀ i < 8, t.hbm.cells.mark (8 * x + i) = 0 ∨
      (t.hbm.cells.mark (8 * x + i) = poisonMark ∧ t.hbm.cells.word (8 * x + i) = 0)
    ((s.reg 0 Reg.frustumCfg).getLsbD 31 = true → s.inService e = true → s.memoryWf = true →
      let x := sectorAt k pc (s.pc e).scrub
      (s.pc e).hasEntry x = false → (s.pc e).heldByCopy x = false → (s.pc (engineOf x)).failedPins = [] →
      ∃ t, exec (.scrubStep k pc []) s = .next t ∧ (∀ y, t.hbm.cells.sector y = s.hbm.cells.sector y) ∧ clean t x ∧
        (t.pc e).scrub = (if (s.pc e).scrub + 1 = 10485760 then 0 else (s.pc e).scrub + 1) ∧ t.hull = s.hull) ∧
    ((s.reg 0 Reg.frustumCfg).getLsbD 31 = false → exec (.scrubStep k pc []) s = .next s) ∧
    (s.engineUp e = true → ∀ bank, ∃ t, exec (.refresh k pc bank) s = .next t ∧ (t.pc e).refreshes = (s.pc e).refreshes + 1 ∧
      t.hbm.cells = s.hbm.cells ∧ t.hull = s.hull) ∧
    (∀ c, ∃ t, exec (.refreshRateChange k c) s = .next t ∧ t.regF 0 (Reg.hbmScrub k) 31 31 =
      (if 85 ≤ c then 1 else if c ≤ 80 then 0 else s.regF 0 (Reg.hbmScrub k) 31 31)) ∧
    (∀ bank row, s.remapDue e bank row = true →
      let used := ((s.remapsOf k).filter (fun x => x.1 == pc && x.2.1 == bank)).map (·.2.2.2)
      ∃ t, exec (.rowRemapStart k pc bank row) s = .next t ∧ t.hbm.cells = s.hbm.cells ∧
        ((∃ n < 128, n ∉ used) → (s.remapsOf k).length < 4096 →
          ∃ n < 128, n ∉ used ∧ (∀ j < n, j ∈ used) ∧ (t.pc e).copy = some { bank, row, spare := n }) ∧
        ((∀ n < 128, n ∈ used) ∨ 4096 ≤ (s.remapsOf k).length → (t.pc e).copy = none ∧ t.regF 0 (Reg.hbmRemap k) 31 31 = 1)) ∧
    (∀ c, (s.pc e).copy = some c → s.inService e = true →
      ∃ t, exec (.remapCopyDone k pc) s = .next t ∧ (t.pc e).copy = none ∧
        t.remapsOf k = s.remapsOf k ++ [(pc, c.bank, c.row, c.spare)] ∧ t.hull = s.hull ∧
        (s.memoryWf = true → (∀ j, (s.pc j).failedPins = []) → (∀ y, t.hbm.cells.sector y = s.hbm.cells.sector y) ∧
          ∀ i < 16, clean t (sectorAt k pc (655360 * c.bank + 16 * c.row + i))) ∧
        (s.spRuns = true → ∀ a ∈ [(s.store.areaA, t.store.areaA), (s.store.areaB, t.store.areaB)],
          a.2.remaps = a.1.remaps ++ [(k, pc, c.bank, c.row, c.spare)]) ∧
        (s.spRuns = false → t.hbm.waiting = s.hbm.waiting ++ [(k, pc, c.bank, c.row, c.spare)]))

/-- R317 to R319: an accumulate is one indivisible update of its granule: each enabled element takes the sum, the larger or the
smaller of the old and the sent value, each other element stays, and so does a word that is poisoned in the request or in the
cells, which counts as dropped; an unordered one is counted. A sum of FP32 or BF16 rounds as R176 says, and MAX and MIN ignore a
NaN beside a number (R174). When an accumulate may run is the model's reading (log entries 32 and 38). -/
def Obligations.AccumulateApplies : Prop :=
  (∀ (s : State) (k pc : Nat) (n : Nma) (rest : List Nma), let e := 64 * k + pc
    (s.pc e).nma = n :: rest → s.inService e = true → n.ahead = 0 → (s.pc e).copy = none → engineOf (n.addr / 128) = e →
    (s.pc e).sink.any (fun w => w.sector == n.addr / 128) = false → n.after = none → n.reply = none → (s.pc e).failedPins = [] →
    ∃ t, exec (.nmaApply k pc) s = .next t ∧ (t.pc e).nma = rest ∧ t.egress = s.egress ∧ t.hull = s.hull ∧
      t.hbm.cells = s.hbm.cells.putSector (n.addr / 128) (nmaSector n (s.hbm.cells.sector (n.addr / 128))).1 ∧
      (n.ordered = false → t.regF n.vf Reg.memState 15 0 = min 65535 (s.regF n.vf Reg.memState 15 0 + 1))) ∧
  ∀ (n : Nma) (old : Sector), n.op ≤ 2 → let new := (nmaSector n old).1
    new.pois = old.pois ∧ (nmaSector n old).2 = (List.range 8).countP (fun w => (n.data.pois ||| old.pois).getLsbD w) ∧
    (∀ w < 8, (n.data.pois ||| old.pois).getLsbD w = true → new.data.extractLsb' (128 * w) 128 = old.data.extractLsb' (128 * w) 128) ∧
    (∀ i < 32, n.type ≠ 5 → (n.data.pois ||| old.pois).getLsbD (i / 4) = false →
      let a := old.data.extractLsb' (32 * i) 32
      let b := n.data.data.extractLsb' (32 * i) 32
      let x := new.data.extractLsb' (32 * i) 32
      (n.mask.getLsbD i = false → x = a) ∧
      (n.mask.getLsbD i = true → n.type = 1 →
        x = (match n.op with | 0 => a + b | 1 => if a.slt b then b else a | _ => if b.slt a then b else a)) ∧
      (n.mask.getLsbD i = true → n.type = 2 →
        (n.op = 0 → x = addF32 a b) ∧
        (n.op ≠ 0 → f32.decode b.toNat = .nan → x = if f32.decode a.toNat = .nan then BitVec.ofNat 32 f32.nanBits else a) ∧
        (n.op ≠ 0 → f32.decode a.toNat = .nan → f32.decode b.toNat ≠ .nan → x = b) ∧
        (n.op ≠ 0 → f32.decode a.toNat ≠ .nan → f32.decode b.toNat ≠ .nan →
          x = BitVec.ofNat 32 (if n.op = 1 then f32.maxOf a.toNat b.toNat else f32.minOf a.toNat b.toNat)))) ∧
    (∀ i < 64, n.type = 5 → (n.data.pois ||| old.pois).getLsbD (i / 8) = false →
      let a := old.data.extractLsb' (16 * i) 16
      let b := n.data.data.extractLsb' (16 * i) 16
      let x := new.data.extractLsb' (16 * i) 16
      (n.mask.getLsbD i = false → x = a) ∧
      (n.mask.getLsbD i = true → n.op = 0 → x.toNat = toBf16 (addF32 (widenBf16 a.toNat) (widenBf16 b.toNat))) ∧
      (n.mask.getLsbD i = true → n.op ≠ 0 → x.toNat = toBf16 (extreme (n.op == 1) [widenBf16 a.toNat, widenBf16 b.toNat]).1))

/-- R329, R333 to R336, R341, R350, R375: a message of one segment that a port sends as the next DATA flit arrives at the other end
as it was, and the flit is acknowledged from then on; where the sender can hold no credit for it nothing arrives and a protocol
error is counted (log entry 114). A flit that fails its check, by its CRC or a codeword that was not decoded, delivers nothing and
asks for a replay; so does one that comes out of order, if the port does not discard already. One that comes before a due replay
was asked for is discarded. Each codeword is counted once, at the flit it begins in. The bit order of the CRC and the filling of a
short segment are the model's (log entries 40 and 53), as are when a replay is asked for again (log entry 115) and how a command
names a codeword's errors (log entry 120). -/
def Obligations.DataFlitsArrive : Prop :=
  ∀ (s : State) (p fec : Nat), s.portRuns p = true → let y := s.port p
    let sound := (s.decodeFlit p fec).2
    (∀ (m : Msg) (seq : Nat), sound = true → ¬ (y.discarding = true ∧ y.retryDue = true) → y.rxNext = seq → seq < 4096 → m.kind < 8 → m.words.length ≤ 12 →
      m.dst < 2 ^ 20 → m.src < 2 ^ 20 → m.vc < 12 → kindVc m.kind m.vc = true →
      (m.kind = 0 → 1 ≤ field m.hdr 127 120 ∧ field m.hdr 127 120 ≤ 3) →
      kindWords m.kind m.hdr m.words.length = true → m.hdr.toNat &&& hdrMask m.kind = m.hdr.toNat →
      (∀ c ∈ m.words, verdict (codeMark c) = .clean) → (∀ z ∈ y.part, ¬ (z.src = m.src ∧ z.vc = m.vc)) →
      ∃ t, exec (.dataFlit p (flitBytes (flitHeader 1 m.vc seq none []) (segmentBytes m 0 m.resent)) fec) s = .next t ∧
        (t.port p).rxNext = (seq + 1) % 4096 ∧ (t.port p).ackSeq = some seq ∧
        t.hbm = s.hbm ∧ t.hull = s.hull ∧ t.facets = s.facets ∧
        (y.place m.vc ≠ none → ∃ x, (t.port p).rx = y.rx ++ [x] ∧ x.flits = 1 ∧ x.checked = false ∧
          x.msg = { m with fn := 0, resent := m.resent && y.version != 0x10, stripe := stripeOf m.kind m.hdr
                           moved := false, pin := none }) ∧
        (y.place m.vc = none → (t.port p).rx = y.rx ∧
          t.regF 0 Reg.chordErr 23 16 = min 255 (s.regF 0 Reg.chordErr 23 16 + 1))) ∧
    (∀ (bytes : List Byte), let late := flitGood bytes sound = true ∧ fieldN (byteField bytes 0 10) 79 76 = 1 ∧
        (fieldN (byteField bytes 0 10) 71 60 ≠ y.rxNext ∨ (y.discarding = true ∧ y.retryDue = true))
      flitGood bytes sound = false ∨ late →
      ∃ t, exec (.dataFlit p bytes fec) s = .next t ∧ (t.port p).rx = y.rx ∧ (t.port p).part = y.part ∧
        (t.port p).rxNext = y.rxNext ∧ (t.port p).discarding = true ∧
        (flitGood bytes sound = false ∨ y.discarding = false → (t.port p).retryDue = true) ∧
        (late → y.discarding = true → y.seen = none → (t.port p).retryDue = y.retryDue)) ∧
    ∀ bytes : List Byte, let new := [fec % 545, fec / 545 % 545]
      let n (k : Nat) : Nat := if y.pairStarts then new.countP (fun w => fecOutcome w == k) else 0
      ∃ t, exec (.dataFlit p bytes fec) s = .next t ∧
        t.regF 0 (Reg.portFec p) 31 0 = min (2 ^ 32 - 1) (s.regF 0 (Reg.portFec p) 31 0 + n 1) ∧
        t.regF 0 (Reg.portLink p) 31 16 = min 65535 (s.regF 0 (Reg.portLink p) 31 16 + n 2) ∧
        t.regF 0 (Reg.portLink p) 15 0 = min 65535 (s.regF 0 (Reg.portLink p) 15 0 + if flitGood bytes sound then 0 else 1)

/-- R334, R342, R344, R345, R350: an IDLE flit's header is heard; a RETRY_REQ makes every unacknowledged flit due again, and
during a replay faults the port; a port sends the flit that is due, a replayed one with the credit returns it carried, after
which collectives that waited for it go on; a message enters the port its function may use, and one of a closed virtual channel
goes no further. What becomes of a message that no port can carry is the model's reading (log entry 44); the bit order of a flit's
CRC and what fills an IDLE or RETRY_REQ flit and a short segment are the model's too (log entries 40 and 53). -/
def Obligations.LinkTraffic : Prop :=
  ∀ (s : State) (p fec : Nat), s.portRuns p = true → let x := s.port p
    (∀ vc n, (s.decodeFlit p fec).2 = true → vc < 16 → 0 < n → n ≤ 255 →
      ∃ t, exec (.idleFlit p (flitBytes (flitHeader 0 0 0 none [(vc, false, n)]) idlePayload) fec) s = .next t ∧
        agetD (t.port p).credits vc 0 = agetD x.credits vc 0 + n ∧ (t.port p).rx = x.rx ∧ (t.port p).rxNext = x.rxNext ∧
        t.hbm = s.hbm ∧ t.hull = s.hull) ∧
    ((s.decodeFlit p fec).2 = true → ∃ t, exec (.retryReq p (flitBytes (flitHeader 2 0 0 none []) idlePayload) fec) s = .next t ∧
      (x.replay = [] → (x.replayTimes.filter (fun t => decide (s.now < t + 250))).length < 8 →
        (t.port p).replay.Perm (x.tx.flatMap (·.unacked)) ∧ (t.port p).state = x.state) ∧
      (x.replay ≠ [] → (t.port p).state = .failed ∧ (t.port p).tx = [])) ∧
    (∃ u : State, exec (.flitTransmit p) s = .next u.pumpAll ∧
      (s.power.state ≠ 0 ∨ (x.retryDue = false ∧ x.replay = [] ∧ x.tx = []) →
        u.out.flits = (p, flitBytes (flitHeader 0 0 0 x.ackSeq x.returns.1) idlePayload) :: s.out.flits) ∧
      (s.power.state = 0 → x.retryDue = true → (u.port p).retryDue = false ∧
        u.out.flits = (p, flitBytes (flitHeader 2 0 0 x.ackSeq x.returns.1) idlePayload) :: s.out.flits) ∧
      (∀ q rest y, s.power.state = 0 → x.retryDue = false → x.replay = q :: rest → x.tx = [y] → q ∈ y.unacked →
        (u.port p).replay = rest ∧ (u.port p).tx = [y] ∧
        u.out.flits = (p, flitBytes (flitHeader 1 y.msg.vc q x.ackSeq (agetD x.carried q []))
          (segmentBytes y.msg (y.sent - y.unacked.length + y.unacked.idxOf q) (y.msg.resent && x.version != 0x10))) :: s.out.flits) ∧
      (∀ y, s.power.state = 0 → x.retryDue = false → x.replay = [] → x.tx = [y] → y.sent < y.msg.segs → y.unacked.length < 64 →
        (u.port p).tx = [{ y with sent := y.sent + 1, unacked := y.unacked ++ [x.txSeq] }] ∧
        (u.port p).txSeq = (x.txSeq + 1) % 4096 ∧
        u.out.flits = (p, flitBytes (flitHeader 1 y.msg.vc x.txSeq x.ackSeq x.returns.1)
          (segmentBytes y.msg y.sent (y.msg.resent && x.version != 0x10))) :: s.out.flits)) ∧
    (∀ m rest, s.egress = m :: rest → p ∈ s.upPorts → m.moved = false →
      (s.weight m.fn m.vc ≠ 0 → s.portFor m = some p → s.canAccept p m = true →
        ∃ t y, exec (.egressAccept 0) s = .next t ∧ t.egress = rest ∧ (t.port p).tx = x.tx ++ [y] ∧ y.msg = m ∧ y.sent = 0) ∧
      (s.vcClosed m.fn m.vc = true → ∃ t, exec (.egressAccept 0) s = .next t ∧ t.egress = rest ∧ t.ports = s.ports) ∧
      (s.weight m.fn m.vc ≠ 0 → s.portFor m = some p → s.canAccept p m = false → x.hasVc m.vc = true →
        exec (.egressAccept 0) s = .next s))

/-- R330, R331, R341, R351, R355, R357, R358, R408, R423: a due training begins on a clocked port; one that succeeds once no failover
runs brings the port up at the best common version with the credits the partner grants, and advertises its own; a fault takes the
port out, its messages go back ahead of the others and PORT_DOWN goes out; the failover action retrains at full width, or on the
other lane pair after a fault of one lane, and where the host decides it a decision replaces any other of the port; in hardware mode three failed attempts disable the port; PORT_CMD orders a retraining or keeps the
port out, and is stale where the wait for it is over. What PORT_CMD does to a port in each state is the model's reading (log
entry 54). -/
def Obligations.PortStates : Prop :=
  ∀ (s : State) (p : Nat), p < 36 → let x := s.port p
    (x.trainDue = true → x.isUp = false → x.state ≠ .training → s.boot.phase = .starting ∨ s.boot.phase = .running →
      x.retrain = false → s.portClocked p = true →
      ∃ t, exec (.portTraining p) s = .next t ∧ (t.port p).state = .training) ∧
    (x.trainDue = true → x.isUp = false → x.state ≠ .training → x.retrain = true → s.hostAssisted 2 p = false → s.portClocked p = true →
      ∃ t, exec (.retrainAttempt p) s = .next t ∧ (t.port p).state = .training) ∧
    (∀ partner grant, x.state = .training → s.failingOver = false → x.adv &&& partner ≠ 0 →
      ∃ t, exec (.trainingComplete p true partner grant) s = .next t ∧ let y := t.port p
        y.state = (if x.reduced then .upReduced else .up) ∧
        y.version = (if (x.adv &&& partner).testBit 2 then 0x12 else 0x10) ∧ y.txSeq = 0 ∧ y.rxNext = 0 ∧
        (∀ v < 12, agetD y.credits v 0 = if v < 8 ∨ y.version = 0x12 then grant.getD v 0 else 0) ∧
        t.out.grants = (p, advertised y.version) :: s.out.grants ∧
        t.hbm = s.hbm ∧ t.hull = s.hull) ∧
    (∀ partner grant, x.state = .training → s.failingOver = false →
      ∃ t, exec (.trainingComplete p false partner grant) s = .next t ∧ (t.port p).state =
        (if x.retrain = true ∧ 3 ≤ x.attempts + (if s.hostAssisted 2 p then 0 else 1) then .disabled else .down)) ∧
    (x.isUp = true → s.failingOver = false →
      ∃ t rest, exec (.linkSilenceTimeout p) s = .next t ∧ (t.port p).state = .failed ∧ (t.port p).tx = [] ∧
        (t.port p).part = [] ∧ (t.port p).deciding = true ∧
        t.egress = x.tx.map TxMsg.back ++ s.egress.map (fun m => if m.pin = some p then { m with pin := none } else m) ++ rest ∧
        (∀ q more, s.upPorts.filter (· != p) = q :: more →
          ∃ c, rest = [c] ∧ c.kind = 0 ∧ c.pin = some q ∧ field c.hdr 127 120 = 1 ∧ field c.hdr 99 92 = p)) ∧
    (∀ lane < 4, x.isUp = true → x.lanes.testBit lane = true →
      ∃ t, exec (.laneSignalLoss p lane) s = .next t ∧ (t.port p).state = .failed ∧ (t.port p).faultLane = some lane) ∧
    (x.state = .failed → x.deciding = true → s.failingOver = false → s.hostAssisted 1 p = true →
      let others := s.decisions.filter (fun d => !samePort d 1 p)
      others.length < 16 → ∃ t, exec (.failoverDecision p) s = .next t ∧ t.port p = { x with deciding := false } ∧
        t.decisions = others ++ [{ fn := 1, subject := p, due := s.now + 2500000, data := 0 }]) ∧
    (x.state = .failed → x.deciding = true → s.failingOver = false → s.hostAssisted 1 p = false →
      ∃ t, exec (.failoverDecision p) s = .next t ∧ (t.port p).trainDue = true ∧ (t.port p).retrain = true ∧
        (t.port p).deciding = false ∧ (x.faultLane = none → (t.port p).reduced = false) ∧
        ∀ l, x.faultLane = some l → (t.port p).reduced = true ∧ (t.port p).reducedHi = decide (l < 2)) ∧
    (s.side.cxlUp = true → s.serves 0 = true → (∃ d ∈ s.decisions, d.fn = 1 ∧ d.subject = p ∧ d.due ≤ s.now) →
      exec (.portCmdRetrainFull p) s = .next (s.count 0 Reg.decPending 31 24 1)) ∧
    (s.side.cxlUp = true → s.serves 0 = true → x.isUp = false → x.state ≠ .training →
      (∀ d ∈ s.decisions, d.subject = p → s.now < d.due) →
      (∃ t, exec (.portCmdRetrainFull p) s = .next t ∧ (t.port p).trainDue = true ∧ (t.port p).ordered = true ∧
        (t.port p).reduced = false) ∧
      (∃ t, exec (.portCmdRetrainReduced p) s = .next t ∧ (t.port p).trainDue = true ∧ (t.port p).ordered = true ∧
        (t.port p).reduced = true) ∧
      ∃ t, exec (.portCmdKeepOut p) s = .next t ∧ (t.port p).trainDue = false ∧ (t.port p).deciding = false ∧
        (t.port p).state = x.state)

/-- R299, R306, R307, R347 to R349: received requests. One from a function in reset, from outside the peer range or beyond the map
is refused with status 4, 2 or 1, an accumulate of a reserved operation with 3. A WR_REQ that passes waits; with its sinks claimed
its words are in memory and it is acknowledged. A RD_REQ is answered with the bytes. An NMA_REQ joins its engine's queue. Each of
them once nothing holds its access back. That check, claim and commit are one step is the model's reading (log entry 52). -/
def Obligations.ChordRequests : Prop :=
  ∀ (s : State) (p j : Nat) (r : RxMsg), s.headRx p 1 = some r → s.fnOfPos r.msg.dst = some j →
    let m := r.msg
    let a := field m.hdr 127 80
    let n := if m.kind = 3 then 1 else field m.hdr 79 76 + 1
    let cmd : Instr := if m.kind = 1 then .rdReq p else if m.kind = 2 then .wrReq p else .nmaReq p
    let refusal : Option Nat :=
      if (s.fn j).resetting then some 4
      else if m.src < s.regF 0 (Reg.chordFnPeerBase j) 19 0 ∨ s.regF 0 (Reg.chordFnPeerLimit j) 19 0 < m.src then some 2
      else if (s.sectorAddrs j a n).isNone then some 1 else none
    (1 ≤ m.kind → m.kind ≤ 3 → (m.kind = 2 → r.checked = false) → ∀ st, refusal = some st →
      ∃ t, exec cmd s = .next t ∧ t.egress = s.egress ++ [response m j (if m.kind = 1 then 4 else 5) st []] ∧
        (t.port p).rx.length + 1 = (s.port p).rx.length ∧ t.hbm = s.hbm ∧ t.hull = s.hull) ∧
    (m.kind = 3 → refusal = none → nmaValid (field m.hdr 79 78) (field m.hdr 77 74) = false →
      ∃ t, exec cmd s = .next t ∧ t.egress = s.egress ++ [response m j 5 3 []] ∧ t.hbm = s.hbm ∧ t.hull = s.hull) ∧
    (m.kind = 2 → r.checked = false → refusal = none →
      ∃ t, exec cmd s = .next t ∧ t.egress = s.egress ∧ t.hbm = s.hbm ∧ t.hull = s.hull ∧
        (t.port p).rx = (s.port p).rx.map (fun q => if q.msg = m then { q with checked := true } else q)) ∧
    ∀ d0, s.translate j a = some d0 → let d := d0 / 128 * 128
      let e := engineOf (d / 128)
      s.agentGate d (128 * n) (m.kind != 1) = none →
      (m.kind = 1 → refusal = none → let answer := response m j 4 0 (s.agentCodes d (128 * n)).2
        ∀ q, s.portFor answer = some q → s.canAccept q answer = true →
          ∃ t x, exec cmd s = .next t ∧ (t.port q).tx = (s.port q).tx ++ [x] ∧ x.msg = answer ∧ x.sent = 0) ∧
      (m.kind = 2 → r.checked = true → n = 1 → m.words.length = 8 → s.sinksFor d 1 = true → s.memoryWf = true →
        ∃ t, exec (.ingressWriteAccept p) s = .next t ∧ t.egress = s.egress ++ [response m j 5 0 []] ∧
          (t.port p).rx.length + 1 = (s.port p).rx.length ∧
          ∀ k, t.coherent k = if k = d / 128 then Sector.ofCodes m.words else s.coherent k) ∧
      (m.kind = 3 → refusal = none → nmaValid (field m.hdr 79 78) (field m.hdr 77 74) = true →
        s.chordNmas e < 16 → s.storeInFlight (d / 128) = false → (s.pc e).roomFor [d / 128] = true →
        ∃ t x, exec cmd s = .next t ∧ (t.pc e).nma = (s.pc e).nma ++ [x] ∧
          x.addr = d ∧ x.op = field m.hdr 79 78 ∧ x.type = field m.hdr 77 74 ∧ x.vf = j ∧ x.ordered = false ∧
          x.reply = some (m.src, field m.hdr 63 48) ∧ x.data = Sector.ofCodes (m.words.drop 1) ∧ t.egress = s.egress)

/-- R338, R339, R343, R356, R361, R367, R410, R527: what else arrives. A response ends the REMOTE entry it answers, a read's
data in the local area, or in its landing space while that access is held back; one that answers no entry is discarded. A CKPT outside the receive
region is dropped and counted. A COLL message is staged, or discarded and counted. Control messages leave the buffer. The checks
of a header beyond the rules named are the model's reading (log entries 42, 52 and 95), and so is that a response the engine cannot
write yet stays in its landing space (log entry 116). -/
def Obligations.ChordArrivals : Prop :=
  ∀ (s : State) (p j : Nat) (r : RxMsg), s.fnOfPos r.msg.dst = some j → let m := r.msg
    (∀ e ∈ [(1, Instr.portDown p), (2, Instr.positionClaim p), (3, Instr.portUp p)], s.headRx p 0 = some r →
      field m.hdr 127 120 = e.1 → ∃ t, exec e.2 s = .next t ∧ (t.port p).rx.length + 1 = (s.port p).rx.length ∧
        t.egress = s.egress ∧ t.hbm = s.hbm ∧ t.hull = s.hull ∧ t.fns = s.fns ∧ t.facets = s.facets) ∧
    (s.headRx p 2 = some r → m.kind = 4 ∨ m.kind = 5 →
      let cmd : Instr := if m.kind = 4 then .rdResp p else .ack p
      let gone (t : State) (e : Remote) : Prop :=
        t.remotes = s.remotes.filter (fun x => !(x.fn == e.fn && x.tag == e.tag)) ∧ t.entry? e.fn e.ring e.seq = none
      (s.remote? j (field m.hdr 63 48) = none → ∃ t, exec cmd s = .next t ∧ t.remotes = s.remotes ∧
        (t.port p).rx.length + 1 = (s.port p).rx.length ∧ t.hbm = s.hbm ∧ t.hull = s.hull) ∧
      ∀ e, s.remote? j (field m.hdr 63 48) = some e →
        (m.kind = 5 → e.kind ≠ 1 → ∃ t, exec cmd s = .next t ∧ gone t e ∧ t.hbm = s.hbm ∧ t.hull = s.hull) ∧
        (m.kind = 4 → e.kind = 1 → e.landed = none → field m.hdr 47 40 ≠ 0 →
          ∃ t, exec cmd s = .next t ∧ gone t e ∧ t.hbm = s.hbm ∧ t.hull = s.hull) ∧
        (∀ d, m.kind = 4 → e.kind = 1 → e.landed = none → field m.hdr 47 40 = 0 → s.translate j e.laddr = some d → d % 128 = 0 →
          m.words.length = 8 →
          (s.agentGate d 128 true = none → s.ceClocked j = true → s.memoryWf = true → ∃ t, exec cmd s = .next t ∧ gone t e ∧
            ∀ k, t.coherent k = if k = d / 128 then Sector.ofCodes m.words else s.coherent k) ∧
          (s.agentGate d 128 true ≠ none ∨ s.ceClocked j = false → ∃ t x, exec cmd s = .next t ∧ t.remote? j e.tag = some x ∧ x.landed = some m.words ∧
            (t.port p).rx.length + 1 = (s.port p).rx.length ∧ ∀ k, t.coherent k = s.coherent k))) ∧
    (s.headRx p 11 = some r → r.checked = false → let g := s.rxRegion j
      let off := field m.hdr 127 80
      let n := field m.hdr 79 76 + 1
      ∃ t, exec (.ckpt p) s = .next t ∧ t.hbm = s.hbm ∧ t.hull = s.hull ∧
        (g.2 < off + 128 * n → j ≠ 0 → (t.port p).rx.length + 1 = (s.port p).rx.length ∧
          t.regF j Reg.chordRemoteCounts 15 0 = min 65535 (s.regF j Reg.chordRemoteCounts 15 0 + 1)) ∧
        (off + 128 * n ≤ g.2 → (s.sectorAddrs j (g.1 + off) n).isSome = true →
          (t.port p).rx = (s.port p).rx.map (fun q => if q.msg = m then { q with checked := true } else q))) ∧
    (s.ioClocked (ioOfPort p) = true → (s.port p).rx.find? (fun x => x.msg.kind == 6) = some r → j ≠ 0 → s.running j (m.vc - 3) = none →
      let g := m.vc - 3
      let id := field m.hdr 127 96
      let key := (id, field m.hdr 95 72, field m.hdr 71 48)
      let now := (s.collGroup j g).nextId
      ∃ t, exec (.coll p) s = .next t ∧ t.hbm = s.hbm ∧ t.hull = s.hull ∧
        (id ≠ now → id ≠ (now + 1) % 2 ^ 32 → t.groupsOf = s.groupsOf ∧
          t.regF j Reg.collCounts 15 0 = min 65535 (s.regF j Reg.collCounts 15 0 + 1)) ∧
        (id = now ∨ id = (now + 1) % 2 ^ 32 → key ∈ (s.collGroup j g).seen → t.groupsOf = s.groupsOf ∧
          t.regF j Reg.collCounts 31 16 = min 65535 (s.regF j Reg.collCounts 31 16 + 1)) ∧
        (id = now ∨ id = (now + 1) % 2 ^ 32 → key ∉ (s.collGroup j g).seen → (t.collGroup j g).seen = key :: (s.collGroup j g).seen ∧
          (t.collGroup j g).staged = (s.collGroup j g).staged ++ [{ id := id, step := key.2.1, piece := key.2.2, src := m.src, words := m.words }]))

/-- R352, R359, R369, R527: timeouts end what waits, and not before their time; a write that names a position another function
holds, or of an enabled function's valid position, is refused with REFUSED set; a new valid position is claimed on every port that is up. Which
writes of a position claim it is the model's reading (log entry 43). -/
def Obligations.PositionsAndTimeouts : Prop :=
  (∀ (s : State) (j tag : Nat) (r : Remote), s.remote? j tag = some r → let limit := (s.reg j Reg.collTimeout).toNat
    (limit = 0 ∨ s.now < r.since + 1024 * limit → exec (.remoteTimeout j tag) s = .next s) ∧
    (limit ≠ 0 → r.since + 1024 * limit ≤ s.now → r.landed = none → ∃ t, exec (.remoteTimeout j tag) s = .next t ∧
      t.remotes = s.remotes.filter (fun x => !(x.fn == r.fn && x.tag == r.tag)) ∧ t.entry? r.fn r.ring r.seq = none ∧
      t.hbm = s.hbm ∧ t.hull = s.hull)) ∧
  (∀ (s : State) (j g : Nat) (c : Collective), s.running j g = some c → let limit := (s.reg j Reg.collTimeout).toNat
    (limit = 0 ∨ s.now < c.progressAt + 1024 * limit → exec (.collTimeout j g) s = .next s) ∧
    (limit ≠ 0 → c.progressAt + 1024 * limit ≤ s.now → s.colls = [c] → s.ceClocked g = true →
      (c.wait = false → s.digestGate c = none) →
      ∃ t, exec (.collTimeout j g) s = .next t ∧ t.colls = [] ∧ t.entry? j c.ring c.seq = none)) ∧
  (∀ (s : State) (j : Nat) (v : Word), j ≤ 16 → s.side.cxlUp = true → s.serves 0 = true → let old := s.reg 0 (Reg.chordFnPos j)
    ((∃ k ≤ 16, k ≠ j ∧ s.posOf k = some (field v 19 0)) ∨ (j ≠ 0 ∧ old.getLsbD 31 = true ∧ s.enabled j = true) →
      ∃ t, exec (.chordFnPosWrite j v) s = .next t ∧ (t.reg 0 (Reg.chordFnPos j)).getLsbD 30 = true ∧
        t.posOf j = s.posOf j ∧ t.egress = s.egress) ∧
    ((∀ k ≤ 16, k ≠ j → s.posOf k ≠ some (field v 19 0)) → ¬ (j ≠ 0 ∧ old.getLsbD 31 = true ∧ s.enabled j = true) →
      ∃ t new, exec (.chordFnPosWrite j v) s = .next t ∧
        t.posOf j = (if v.getLsbD 31 then some (field v 19 0) else none) ∧ t.egress = s.egress ++ new ∧
        (v.getLsbD 31 = true → new.map (·.pin) = s.upPorts.map some ∧ ∀ c ∈ new, c.kind = 0 ∧ field c.hdr 127 120 = 2) ∧
        (v.getLsbD 31 = false → new = [])))

/-- R387, R526: the front end reads the head slot of a ring it was woken for. An entry that fails a check made at once is
refused with its code, another is judged, a LOWER is left to MP; with no entry present the ring waits for the next write. The moments of its checks are
the model's reading (log entry 67), and which of several refusals wins log entry 48. -/
def Obligations.FrontEndJudges : Prop :=
  ∀ (s : State) (j r : Nat), s.frontEndRuns j = true → r < 64 → s.registered j r = true → (s.ring j r).woken = true →
    (∀ k < 64, k ≠ r → (s.ring j k).woken = false) →
    (∀ d, s.headAddr j r = some d → ∃ w, s.lineWay (d / 2048) = some w ∧ w.valid.getLsbD (d / 128 % 16) = true) →
    ∃ t, exec (.frontEndWake j) s = .next t ∧ t.hbm = s.hbm ∧ t.hull = s.hull ∧ t.entries = s.entries ∧
      (s.headEntry j r = none → t.ring j r = { s.ring j r with woken := false }) ∧
      ∀ b, s.headEntry j r = some b → let lower := byteField b 2 1 = 8 ∧ 2 ≤ s.hifMinor j
        (lower ∨ s.atOnce j b = none → t.ring j r = { s.ring j r with judged := true, woken := false }) ∧
        (¬ lower → ∀ code, s.atOnce j b = some code → Refused s t j r b code)

/-- R141, R144, R169, R388, R390, R391: what the acceptance of each entry starts: MARK completes; LAUNCH and CODE_LOAD join the launches and the
loads, unless a code region is busy; DRAIN starts; a collective takes the next COLL_ID of its group, or two; LOWRANK_CONT
completes and lets its LOWRANK go on; a REMOTE sends its request; a LOWER of an IKF module or an RL-400 binary takes the best of
the images its lowering gives, each under the header the rules fix, or is refused. An entry whose memory cannot be read now, or for which there is no room, waits, and the round goes on. The candidates of a LOWER are
a free choice (log entry 12), and so is which module declares a gradient that is not BF16; the moments of the checks are the
model's reading (log entry 67), and so are which refusal of a collective or a drain is given (log entry 48) and that a module with an
uncorrectable word or a nonzero reserved header byte is refused (log entry 118). -/
def Obligations.EntriesAccepted : Prop :=
  ∀ (s : State) (j r : Nat) (b : List Byte),
    let n (off k : Nat) : Nat := byteField b off k
    let e := entryOf j r b
    (AtHead s j r b 7 → ∃ t, exec (.mark j r) s = .next t ∧ HeadTaken s t j r ∧ Completed s t e (entryRec b 0) ∧
      t.hbm = s.hbm ∧ t.hull = s.hull ∧ t.facets = s.facets) ∧
    (AtHead s j r b 1 → ∀ f rest k, s.codeFacets j = f :: rest → k = kernelHeader ((s.facet f).code.fetch (n 16 4) 32) →
      (s.facet f).code.badIn (n 16 4) 32 = false → s.loading j (n 16 4) 32 = false → s.loading j (n 16 4) (32 + k.codeLen) = false →
      (∀ st, k.check (n 16 4) = some st → ∃ t, exec (.launch j r) s = .next t ∧ Refused s t j r b st) ∧
      (∀ l : Launch, k.check (n 16 4) = none →
        l = { id := s.nextId, fn := j, ring := r, seq := n 0 2, codeBase := n 16 4, codeLen := k.codeLen, h := k.h, g := k.g, o := k.o
              ralelle := k.ralelle, nblocks := n 20 4, param := n 24 8, seedLo := (s.fn j).seed.extractLsb' 0 32
              seedHi := (s.fn j).seed.extractLsb' 32 32, seeded := (s.reg j Reg.srCtrl).getLsbD 0 } →
        ((s.withReserved l).placeFor l = none → exec (.launch j r) s = .next (s.servedRing j r)) ∧
        (((s.withReserved l).placeFor l).isSome = true →
        ∃ t, exec (.launch j r) s = .next t ∧ t.launches = s.launches ++ [l] ∧ t.entries = s.entries ++ [e] ∧ HeadTaken s t j r ∧
          t.hbm = s.hbm ∧ t.hull = s.hull ∧ t.facets = s.facets))) ∧
    (AtHead s j r b 1 → s.logical j = [] → s.loading j (n 16 4) 32 = false → ∃ t, exec (.launch j r) s = .next t ∧ Refused s t j r b 5) ∧
    (AtHead s j r b 2 →
      let busy := s.launches.any (fun (l : Launch) => l.fn == j && decide (l.codeBase < n 16 4 + n 20 4) && decide (n 16 4 < l.codeBase + 32 + l.codeLen))
      ∃ t, exec (.codeLoad j r) s = .next t ∧ (busy = true → Refused s t j r b 6) ∧
        (busy = false → t.entries = s.entries ++ [e] ∧ HeadTaken s t j r ∧ t.loads = s.loads ++
          [{ fn := j, ring := r, seq := n 0 2, dest := n 16 4, len := n 20 4, src := n 24 8, lower := false }])) ∧
    (AtHead s j r b 3 → let legs := entryBits b 16 2 1
      ∃ t, exec (.drain j r) s = .next t ∧ (∀ st, s.drainCheck j legs = some st → Refused s t j r b st) ∧
        (s.drainCheck j legs = none → legs = 2 → HeadTaken s t j r ∧ t.entries = s.entries ++ [e] ∧
          (t.reg j Reg.drainStatus).getLsbD 31 = true ∧ ∃ d, t.drains = s.drains ++ [d] ∧ d.fn = j ∧ d.ring = r ∧ d.seq = n 0 2 ∧
            d.step = n 20 4 ∧ d.buddy = false ∧ d.store = true ∧ d.next = 0 ∧
            d.base = (s.wset j (entryBits b 16 0 0)).1 ∧ d.len = (s.wset j (entryBits b 16 0 0)).2) ∧
        (∀ u, s.drainCheck j legs = none → legs % 2 = 1 → s.mapGate j = some u → t = u.servedRing j r) ∧
        (s.drainCheck j legs = none → legs = 3 → s.mapGate j = none → HeadTaken s t j r ∧ t.entries = s.entries ++ [e] ∧
          (t.reg j Reg.drainStatus).getLsbD 31 = true ∧ ∃ d, t.drains = s.drains ++ [d] ∧ d.fn = j ∧ d.ring = r ∧ d.seq = n 0 2 ∧
            d.step = n 20 4 ∧ d.buddy = true ∧ d.store = true ∧ d.next = 0 ∧ d.delta = s.deltaMarks j ∧
            d.base = (s.wset j (entryBits b 16 0 0)).1 ∧ d.len = (s.wset j (entryBits b 16 0 0)).2) ∧
        (s.drainCheck j legs = none → legs = 1 → s.mapGate j = none → s.regF 0 (Reg.buddyCfg j) 30 20 = 0 → HeadTaken s t j r ∧
          t.entries = s.entries ++ [e] ∧ (t.reg j Reg.drainStatus).getLsbD 31 = true ∧ ∃ d, t.drains = s.drains ++ [d] ∧ d.fn = j ∧
            d.ring = r ∧ d.seq = n 0 2 ∧ d.step = n 20 4 ∧ d.buddy = true ∧ d.store = false ∧ d.next = 0 ∧ d.delta = s.deltaMarks j ∧
            d.base = (s.wset j (entryBits b 16 0 0)).1 ∧ d.len = (s.wset j (entryBits b 16 0 0)).2)) ∧
    (AtHead s j r b 4 → ∀ op cmd, (op, cmd) ∈ [(0, Instr.allreduce j r), (1, .reduceScatter j r), (2, .allgather j r),
        (3, .alltoall j r), (4, .broadcast j r), (5, .send j r), (6, .recv j r), (7, .lowrank j r)] → n 16 1 = op →
      let g := entryBits b 17 7 5
      let x := s.makeColl j g r (n 0 2) op (entryBits b 17 1 0) (entryBits b 17 3 2) (entryBits b 17 4 4 == 1) (n 40 8)
        (n 24 8) (n 32 8) (entryBits b 20 19 0) (BitVec.ofNat 32 (n 52 4)) (n 40 4) (n 44 4) (n 48 1)
      (s.posOf j = none → ∃ t, exec cmd s = .next t ∧ Refused s t j r b 0xB) ∧
      (∀ t, s.posOf j ≠ none → s.tableGate j g = some t → exec cmd s = .next (t.servedRing j r)) ∧
      (s.posOf j ≠ none → s.tableGate j g = none → x.2.1 = none → ∃ t, exec cmd s = .next t ∧ Refused s t j r b (x.2.2.headD 0xA)) ∧
      (∀ c, s.posOf j ≠ none → s.tableGate j g = none → x.2.1 = some c → s.vcClosed j (3 + g) = true →
        ∃ t, exec cmd s = .next t ∧ Refused s t j r b 0xB) ∧
      (∀ c, s.posOf j ≠ none → s.tableGate j g = none → x.2.1 = some c → s.vcClosed j (3 + g) = false → ∃ t, exec cmd s = .next t ∧ HeadTaken s t j r ∧
        (t.collGroup j g).nextId = ((s.collGroup j g).nextId + if op = 7 then 2 else 1) % 2 ^ 32 ∧
        (∀ c0, s.running j g = some c0 → c0.wait = true → t.entries = s.entries ++ [e] ∧
          t.colls = s.colls ++ [{ c with id := (s.collGroup j g).nextId, progressAt := s.now }]))) ∧
    (AtHead s j r b 5 → let g := entryBits b 20 2 0
      (s.waitingLowrank j g (n 16 4) = none → ∃ t, exec (.lowrankCont j r) s = .next t ∧ Refused s t j r b 0xA) ∧
      (∀ c, s.waitingLowrank j g (n 16 4) = some c → s.colls = [c] → ∃ t, exec (.lowrankCont j r) s = .next t ∧ HeadTaken s t j r ∧
        t.entry? j r (n 0 2) = none ∧ t.waitingLowrank j g (n 16 4) = none)) ∧
    (AtHead s j r b 6 → ∀ kind cmd, (kind, cmd) ∈ [(1, Instr.remoteRd j r), (2, .remoteWr j r), (3, .remoteNma j r)] →
      entryBits b 16 1 0 = kind → let size := if kind = 3 then 128 else 128 * (n 18 1 + 1)
      (s.posOf j = none ∨ s.weight j 1 = 0 → ∃ t, exec cmd s = .next t ∧ Refused s t j r b 0xB) ∧
      (s.posOf j ≠ none → s.weight j 1 ≠ 0 → s.ceClocked j = false → exec cmd s = .next (s.servedRing j r)) ∧
      (∀ src, s.posOf j = some src → s.weight j 1 ≠ 0 → s.ceClocked j = true →
        s.agentGate ((s.translate j (n 32 8)).getD 0) size (kind == 1) = none → (kind = 1 → s.landingFree size = true) → ∃ t x m, exec cmd s = .next t ∧ HeadTaken s t j r ∧
        t.entries = s.entries ++ [e] ∧ t.remotes = s.remotes ++ [x] ∧ x.fn = j ∧ x.kind = kind ∧ x.ring = r ∧ x.seq = n 0 2 ∧
        x.laddr = n 32 8 ∧ x.since = s.now ∧ t.egress = s.egress ++ [m] ∧ m.fn = j ∧ m.kind = kind ∧ m.vc = 1 ∧ m.src = src ∧
        m.dst = entryBits b 20 19 0 ∧ (kind = 1 → m.words = []))) ∧
    (AtHead s j r b 8 → s.mpRuns = true → ∀ d, s.translate j (n 16 8) = some d → s.agentGate d 64 false = none →
      let h := s.agentRead d 64
      let ikf := byteField h.2.1 0 4 = 0x00464B49
      let len := if ikf then moduleLength h.2.1
        else match s.regionOf j (n 16 8) with | some g => g.tbase + g.len - n 16 8 | none => 64
      let rest := h.1.agentRead d len
      (h.2.2 ≠ [] ∨ (ikf ∧ ikfAccepted h.2.1 = false) → ∃ t, exec (.lower j r) s = .next t ∧ HeadTaken s t j r ∧
        t.out.records = s.recordFor e (entryRec b 7) :: s.out.records ∧ t.loads = s.loads ∧ t.entries = s.entries) ∧
      (h.2.2 = [] → (ikf → ikfAccepted h.2.1 = true ∧ n 24 4 < byteField h.2.1 16 4) → s.inOneRegion j (n 16 8) len = true →
        h.1.agentGate d len false = none → rest.2.2 = [] → s.hostAssisted 9 0 = false → (∀ l ∈ s.loads, l.lower = false) →
        let found := if ikf then Config.lowerings rest.2.1 (n 24 4) else [Config.binaryLowering rest.2.1]
        let cands := found.map (loweredImage s.lowerVer (if ikf then some h.2.1 else none))
        let refused := cands = [] ∨ (ikf ∧ Config.gradientRefused rest.2.1 (n 24 4) = true)
        ∃ t, exec (.lower j r) s = .next t ∧ HeadTaken s t j r ∧
          (refused → t.out.records = s.recordFor e (entryRec b 7) :: s.out.records ∧ t.loads = s.loads ∧ t.entries = s.entries) ∧
          (¬ refused → t.entries = s.entries ++ [e] ∧ t.out.records = s.out.records ∧ t.loads = s.loads ++
            [{ fn := j, ring := r, seq := n 0 2, dest := n 28 4, len := 0, src := n 16 8, lower := true, cands := cands
               image := bestLowering cands }])))

/-- R92, R260, R393, R394: how accepted entries complete, each with its record: a launch once every block has ended and its
requests are back, with its fault if it has one; a CODE_LOAD or LOWER with its image in the code store of every Facet of the
tenant in service; a drain once its legs are done. The status of a launch that both faulted and lost blocks is the model's
reading (log entry 71). -/
def Obligations.EntriesComplete : Prop :=
  (∀ (s : State) (id : Nat) (l : Launch) (e : Entry), s.launch? id = some l → s.entry? l.fn l.ring l.seq = some e →
    s.registered l.fn l.ring = true →
    (l.next < l.nblocks ∨ l.live ≠ 0 ∨ s.launchOut l.id = true → exec (.launchComplete id) s = .next s) ∧
    (l.nblocks ≤ l.next → l.live = 0 → s.launchOut l.id = false →
      ∃ t, exec (.launchComplete id) s = .next t ∧ t.launches = s.launches.filter (fun x => x.id != l.id) ∧
        t.hbm = s.hbm ∧ t.hull = s.hull ∧ t.facets = s.facets ∧ let elapsed := (l.finish - l.start) / 2
        (l.fault = none → l.lost = false → Completed s t e { status := 0, elapsed }) ∧
        (l.fault = none → l.lost = true → Completed s t e { status := 0x41, elapsed }) ∧
        ∀ code f slot pc, l.fault = some (code, f, slot, pc) →
          Completed s t e { status := 0x40, elapsed, faultCode := code, faultFacet := f, faultSlot := slot, faultPc := pc })) ∧
  (∀ (s : State) (j r seq : Nat) (l : CodeLoad) (e : Entry), s.entry? j r seq = some e → s.registered j r = true →
    (∀ f, Memory.wf (s.facet f).code = true ∧ ∀ w, (s.facet f).code.mark w = 0) →
    let targets := ((s.logical j).map (·.2)).filter (fun f => !(s.facet f).failed)
    (s.loads.find? (fun l => l.fn == j && l.ring == r && l.seq == seq && !l.lower) = some l →
      ∀ d, s.translate j l.src = some d → s.agentGate d l.len false = none → let data := s.agentRead d l.len
      data.2.2 = [] → l.dest + l.len ≤ 262144 →
      ∃ t, exec (.codeLoadComplete j r seq) s = .next t ∧ Completed s t e { status := 0 } ∧ t.loads = s.loads.filter (fun x => x != l) ∧
        ∀ f, ∀ a, (t.facet f).code.byte a =
          if f ∈ targets ∧ l.dest ≤ a ∧ a < l.dest + l.len then data.2.1.getD (a - l.dest) 0 else (s.facet f).code.byte a) ∧
    (∀ image, s.loads.find? (fun l => l.fn == j && l.ring == r && l.seq == seq && l.lower) = some l → l.image = some image →
      s.mpRuns = true → l.dest + image.length ≤ 262144 →
      ∃ t, exec (.lowerComplete j r seq) s = .next t ∧ Completed s t e { status := 0 } ∧ t.loads = s.loads.filter (fun x => x != l) ∧
        ∀ f, ∀ a, (t.facet f).code.byte a =
          if f ∈ targets ∧ l.dest ≤ a ∧ a < l.dest + image.length then image.getD (a - l.dest) 0 else (s.facet f).code.byte a)) ∧
  (∀ (s : State) (j : Nat) (d : Drain) (e : Entry), s.drainOf j = some d → s.entry? j d.ring d.seq = some e →
    s.registered j d.ring = true → d.hold = false →
    (d.store = true ∧ d.storeEnd = 0 ∨ d.buddy = true ∧ d.marker = false → exec (.drainComplete j) s = .next s) ∧
    ((d.store = false ∨ d.storeEnd ≠ 0) → (d.buddy = false ∨ (d.marker = true ∧ (d.lost = true ∨ s.ckptsLeft j = true))) →
      ∃ t, exec (.drainComplete j) s = .next t ∧ t.drains = s.drains.filter (fun x => x.fn != j) ∧
        (t.reg j Reg.drainStatus).getLsbD 31 = false ∧
        Completed s t e { status := 0, overlap := d.overlap, buddyLeg := if !d.buddy then 0 else if d.lost then 2 else 1
                          storeLeg := if d.store then d.storeEnd else 0, stepNo := d.step }))

/-- R16, R20, R379 to R381: a window write of another size than 32 bits is discarded with BAD_SIZE set; one that MP cannot
answer is held, up to 32 of a function, and a further one counts as lost; one that MP answers stores the RW bits and clears the
RW1C bits written 1, and touches no other register. A read of another size sets BAD_SIZE and returns all ones, or the RETRY
pattern while MP is absent. Counts saturate. Misaligned accesses, and accesses of another size while MP is absent, are the
model's reading (log entries 64 and 65). -/
def Obligations.WindowAccess : Prop :=
  (∀ (s : State) (j a size : Nat) (v : Word), j ≤ 16 → s.side.cxlUp = true →
    (size ≠ 4 ∨ a % 4 ≠ 0 → ∃ t, exec (.windowWrite j a size v) s = .next t ∧ t.regF j Reg.winStatus 31 31 = 1 ∧
      OnlyRegs s t (fun k x => k = j ∧ x = Reg.winStatus)) ∧
    (a % 4 = 0 → s.serves j = false → (s.held.filter (fun h => h.fn == j && !h.read)).length < 32 →
      exec (.windowWrite j a 4 v) s = .next { s with held := s.held ++ [{ fn := j, addr := a, size := 4, value := v }] }) ∧
    (a % 4 = 0 → s.serves j = false → 32 ≤ (s.held.filter (fun h => h.fn == j && !h.read)).length →
      ∃ t, exec (.windowWrite j a 4 v) s = .next t ∧ t.held = s.held ∧
        t.regF j Reg.winStatus 15 0 = min 65535 (s.regF j Reg.winStatus 15 0 + 1)) ∧
    (size ≠ 4 ∨ a % 4 ≠ 0 → ∃ t, exec (.windowBadSizeRead j a size) s = .next t ∧
      t.out.answers = (0, 2 ^ 32 * j + a, [if s.serves j then 0xFF else 0xFE, 0xFF, 0xFF, 0xFF]) :: s.out.answers ∧
      t.regF j Reg.winStatus 31 31 = 1 ∧ ∀ k x, ¬ (k = j ∧ x = Reg.winStatus) → t.reg k x = s.reg k x)) ∧
  (∀ e ∈ plainRegs, ∀ (s : State) (j : Nat) (v : Word), (if e.1 then j = 0 else 1 ≤ j ∧ j ≤ 16) → s.windowOpen j →
    ∃ t, exec (.windowWrite j e.2.1 4 v) s = .next t ∧ OnlyRegs s t (fun k x => k = j ∧ x = e.2.1) ∧ ∀ b < 32,
      (t.reg j e.2.1).getLsbD b =
        if e.2.2.1.getLsbD b then v.getLsbD b
        else if e.2.2.2.getLsbD b then (s.reg j e.2.1).getLsbD b && !v.getLsbD b else (s.reg j e.2.1).getLsbD b) ∧
  ∀ (w : Word) (hi lo n : Nat), lo ≤ hi → hi < 32 →
    field (addCount w hi lo n) hi lo = min (2 ^ (hi + 1 - lo) - 1) (field w hi lo + n) ∧
    ∀ b < 32, b < lo ∨ hi < b → (addCount w hi lo n).getLsbD b = w.getLsbD b

/-- R163, R311, R327, R386, R395: registers whose write does more. MEM_VERIFY clears UNVERIFIED of the functions named;
HBM_INJECT arms only with a stack, a word and a syndrome in range; SR_SEED_HI commits the seed; HIF_SELECT is refused while a
ring is registered or for a version the module lacks; LOCUS_CFG registers a ring that fits, with an empty ring state, and
refuses one that does not; a write of another register of a registered ring stores nothing and sets REFUSED. -/
def Obligations.RegisterCommands : Prop :=
  (∀ (s : State) (v : Word), s.windowOpen 0 →
    (∃ t, exec (.memVerifyWrite v) s = .next t ∧ OnlyRegs s t (fun _ x => x = Reg.memState) ∧
      ∀ j ≤ 16, t.regF j Reg.memState 31 31 = (if v.getLsbD j then 0 else s.regF j Reg.memState 31 31)) ∧
    (∃ t, exec (.hbmInjectWrite v) s = .next t ∧ OnlyRegs s t (fun k x => k = 0 ∧ x = Reg.hbmInject) ∧
      ((t.reg 0 Reg.hbmInject).getLsbD 31 = true ↔
        v.getLsbD 31 = true ∧ field v 27 24 < 12 ∧ field v 15 10 < 36 ∧ field v 3 0 ≠ 0) ∧
      t.regF 0 Reg.hbmInject 27 18 = field v 27 18 ∧ t.regF 0 Reg.hbmInject 15 10 = field v 15 10 ∧
      t.regF 0 Reg.hbmInject 3 0 = field v 3 0) ∧
    (∃ t, exec (.logSelWrite v) s = .next t ∧ OnlyRegs s t (fun k x => k = 0 ∧ x = Reg.logSel) ∧ t.reg 0 Reg.logSel = v)) ∧
  (∀ (s : State) (j : Nat) (v : Word), j ≤ 16 → s.windowOpen j →
    let refused := field v 7 0 > 2 ∨ (j ≠ 0 ∧ ∃ r, s.registered j r = true)
    ∃ t, exec (.hifSelectWrite j v) s = .next t ∧ OnlyRegs s t (fun k x => k = j ∧ x = Reg.hifSelect) ∧
      (refused → t.regF j Reg.hifSelect 30 30 = 1 ∧ t.hifMinor j = s.hifMinor j ∧
        (t.reg j Reg.hifSelect).getLsbD 31 = (s.reg j Reg.hifSelect).getLsbD 31) ∧
      (¬ refused → t.hifMinor j = field v 7 0 ∧ (t.reg j Reg.hifSelect).getLsbD 31 = v.getLsbD 31)) ∧
  (∀ (s : State) (j : Nat) (v : Word), 1 ≤ j → j ≤ 16 → s.windowOpen j →
    ∃ t, exec (.srSeedHiWrite j v) s = .next t ∧ (t.fn j).seed.toNat = v.toNat * 2 ^ 32 + (s.reg j Reg.srSeedLo).toNat ∧
      t.reg j Reg.srSeedHi = v ∧ t.regF j Reg.srCtrl 31 16 = min 65535 (s.regF j Reg.srCtrl 31 16 + 1) ∧ t.facets = s.facets) ∧
  (∀ (s : State) (j r : Nat) (v : Word), 1 ≤ j → j ≤ 16 → r < 64 → s.windowOpen j → s.registered j r = false →
    v.getLsbD 31 = true → let n := 2 ^ field v 3 0
    let base := s.regF j (Reg.locusRingHi r) 15 0 * 2 ^ 32 + s.regF j (Reg.locusRingLo r) 31 6 * 64
    let cq := (s.reg j (Reg.locusCqHi r)).toNat * 2 ^ 32 + s.regF j (Reg.locusCqLo r) 31 6 * 64
    let fits := (s.reg j Reg.hifSelect).getLsbD 31 = true ∧ 16 ≤ n ∧ n ≤ 4096 ∧ s.inOneRegion j base (64 * n) = true ∧
      (∃ g, s.regionOf j base = some g ∧ g.hc = false) ∧ base % (64 * n) = 0 ∧ cq % (128 * n) = 0
    ∃ t, exec (.locusCfgWrite j r v) s = .next t ∧
      (fits → t.registered j r = true ∧ t.ringSize j r = n ∧ t.ring j r = {} ∧ ∀ k, k ≠ r → t.ring j k = s.ring j k) ∧
      (¬ fits → t.registered j r = false ∧ (t.reg j (Reg.locusCfg r)).getLsbD 30 = true ∧ ∀ k, t.ring j k = s.ring j k)) ∧
  (∀ (s : State) (j r : Nat) (v : Word), 1 ≤ j → j ≤ 16 → s.windowOpen j → s.registered j r = true → v.getLsbD 31 = false →
    ∃ t, exec (.locusCfgWrite j r v) s = .next t ∧
      (s.outstandingOn j r = 0 → t.registered j r = false) ∧
      (s.outstandingOn j r ≠ 0 → t.registered j r = true ∧ (t.reg j (Reg.locusCfg r)).getLsbD 30 = true)) ∧
  (∀ (s : State) (j r o : Nat) (v : Word), 1 ≤ j → j ≤ 16 → r < 64 → o ∈ [0x00, 0x04, 0x08, 0x0C, 0x14] → s.windowOpen j →
    s.registered j r = true → let a := 0x1000 + 32 * r + o
    ∃ t, exec (.windowWrite j a 4 v) s = .next t ∧ (t.reg j (Reg.locusCfg r)).getLsbD 30 = true ∧ t.reg j a = s.reg j a ∧
      t.registered j r = true)

/-- R376, R384, R385, R387, R480, R497, R500, R510, R511, R517: the host's interfaces. A CXL.mem read returns the coherent bytes and
changes none, zero in the reserved region; a write merges its enabled bytes, is answered and, when it writes a whole slot of a
ring, wakes the ring's front end; an address past the device's end stops with a fault of its own. BIRSP gives a line up with what
it had changed, once its sink takes that; responses and collectives that waited for the line then go on. The CXL link comes up, the DOE mailbox and the I3C target answer, a field of the management block whole. What the
DOE and CCC answers hold beyond this is the model's choice (log entries 11 and 14), and so are the fault of an address past the end
(log entry 100) and that address and other CCCs are taken only without, or with, a dynamic address (log entry 62). -/
def Obligations.HostInterfaces : Prop :=
  (∀ (s : State) (addr : Nat), s.side.cxlUp = true → s.boot.phase = .running → let a := addr / 64 * 64
    (deviceBytes ≤ addr → ∀ cache bytes mask poison, exec (.cxlMemRead addr cache) s = .fault (.noSuchDeviceAddress addr) ∧
      exec (.cxlMemWrite addr bytes mask poison) s = .fault (.noSuchDeviceAddress addr)) ∧
    (reservedBase ≤ addr → addr < deviceBytes → ∀ cache bytes mask poison,
      exec (.cxlMemRead addr cache) s = .next { s with out := { s.out with
        answers := (1, a, List.replicate 64 0) :: s.out.answers } } ∧
      exec (.cxlMemWrite addr bytes mask poison) s = .next { s with out := { s.out with answers := (1, a, []) :: s.out.answers } }) ∧
    (addr < reservedBase → s.memoryWf = true →
      (∀ cache, s.agentTurn a 64 false = none → (s.pc (engineOf (a / 128))).failedPins = [] →
        (∀ w, s.lineWay (a / 2048) = some w → w.dirty &&& ~~~ w.valid = 0) → s.hull.held.length < 524288 →
        ∃ t, exec (.cxlMemRead addr cache) s = .next t ∧ (∀ k, t.coherent k = s.coherent k) ∧
          t.out.answers = (1, a, ((s.coherent (a / 128)).bytes.drop (a % 128)).take 64) :: s.out.answers ∧
          t.hull.held = s.hull.held ++ if cache && s.hcLine (a / 2048) && !s.hull.held.contains (a / 64) then [a / 64] else []) ∧
      (∀ bytes mask, bytes.length = 64 → s.agentTurn a 64 true = none → ∃ t, exec (.cxlMemWrite addr bytes mask false) s = .next t ∧
        t.out.answers = (1, a, []) :: s.out.answers ∧
        (∀ k, t.coherent k = if k = a / 128 then (s.coherent k).merge (BitVec.ofNat 128 (mask.toNat * 2 ^ (a % 128)))
          { data := BitVec.ofNat 1024 (leNat bytes * 2 ^ (8 * (a % 128))) } else s.coherent k) ∧ t.facets = s.facets ∧
        (mask = BitVec.allOnes 64 → ∀ j ≤ 16, ∀ r < 64, s.registered j r = true → ∀ d,
          s.translate j (s.regF j (Reg.locusRingHi r) 15 0 * 2 ^ 32 + s.regF j (Reg.locusRingLo r) 31 6 * 64) = some d →
          d ≤ a → a < d + 64 * s.ringSize j r → (t.ring j r).woken = true) ∧
        (mask ≠ BitVec.allOnes 64 → t.fns = s.fns)))) ∧
  (∀ (s : State) (addr : Nat) (dirty : List Byte), s.memoryWf = true → let held := (s.agentTurn (64 * (addr / 64)) 64 true).isSome
    (addr / 64 ∉ s.hull.snoops ∨ (dirty ≠ [] ∧ held = true) → exec (.birsp addr dirty) s = .next s) ∧
    (addr / 64 ∈ s.hull.snoops → dirty = [] ∨ held = false → ∃ u : State, exec (.birsp addr dirty) s = .next u.landAll.pumpAll ∧
      addr / 64 ∉ u.hull.held ∧ addr / 64 ∉ u.hull.snoops ∧ (dirty = [] → ∀ k, u.coherent k = s.coherent k) ∧
      (∀ w, sectorWrites (64 * (addr / 64)) (dirty.take 64) false = [w] → ∀ k, u.coherent k =
        if k = w.sector then (s.coherent k).merge w.mask w.data else s.coherent k))) ∧
  (∀ s : State, s.boot.phase = .running ∨ s.boot.phase = .recovery ∨ (s.boot.phase = .starting ∧ s.power.originLock = 0x3F) →
    s.boot.pinPerst = false → s.power.xtalOk = true → s.power.lock 4 = true → s.power.state ≠ 2 → ∃ t, exec .cxlLinkUp s = .next t ∧ t.side.cxlUp = true ∧ t.side.cxlL2 = false ∧ t.side.awaitCxl = false ∧
      t.fns = s.fns ∧ t.hbm = s.hbm ∧ t.hull = s.hull) ∧
  (∀ (s : State) (o : List Byte), s.side.cxlUp = true → s.serves 0 = true → s.boot.phase = .running →
    let vendor := byteField o 0 2
    let type := byteField o 2 1
    let known := (vendor = 1 ∧ type ≤ 2) ∨ (vendor = 0x1E98 ∧ type = 2)
    (¬ known → exec (.doeRequest o) s = .next s) ∧
    (known → ∃ t body, exec (.doeRequest o) s = .next t ∧ t.out.answers = (4, type, o.take 8 ++ body) :: s.out.answers ∧
      (vendor = 1 → type = 1 → s.boot.identity = 2 →
        byteField o 9 1 = 0x83 ∨ byteField o 9 1 = 0xE4 ∨ (byteField o 9 1 = 0xE0 ∧ byteField o 10 1 % 2 = 1) →
        body.drop 1 = [0x7F, 5, 0] ∧ t.side = s.side))) ∧
  (∀ (s : State) (offset : Byte) (n : Nat),
    (∃ t, exec (.i3cOffsetWrite offset) s = .next t ∧ t.side.offset = offset.toNat % 16) ∧
    (∃ t bytes, exec (.i3cRead n) s = .next t ∧ bytes.length = n ∧ t.out.answers.head? = some (3, s.side.offset, bytes) ∧
      (s.side.offset < 16 → t.side.offset = (s.side.offset + n) % 16) ∧ (s.side.offset = 0 → n = 16 → bytes = s.block16))) ∧
  ∀ (s : State), (∃ t, exec .rstdaa s = .next t ∧ t.side.dynAddr = none) ∧
    (∀ a < 128, (s.side.dynAddr = none → (∃ t, exec (.entdaa a) s = .next t ∧ t.side.dynAddr = some a) ∧
        ∃ t, exec (.setdasa a) s = .next t ∧ t.side.dynAddr = some a) ∧
      (s.side.dynAddr.isSome = true → exec (.entdaa a) s = .next s ∧ exec (.setdasa a) s = .next s)) ∧
    (∀ cmd ∈ [Instr.getpid, .getbcr, .getdcr, .getstatus], s.side.dynAddr = none → exec cmd s = .next s) ∧
    (s.side.dynAddr.isSome = true →
      (∃ t, exec .getpid s = .next t ∧ ∃ l, t.out.answers = (5, 0x8D, l) :: s.out.answers ∧ l.length = 6 ∧
        leNat l.reverse = Config.mipiCode.toNat * 2 ^ 33 + 0xC960 * 2 ^ 16 + Config.serialLow.toNat) ∧
      (∃ t b, exec .getbcr s = .next t ∧ t.out.answers = (5, 0x8E, [b]) :: s.out.answers) ∧
      (∃ t b, exec .getdcr s = .next t ∧ t.out.answers = (5, 0x8F, [b]) :: s.out.answers) ∧
      ∃ t b c, exec .getstatus s = .next t ∧ t.out.answers = (5, 0x90, [b, c]) :: s.out.answers)

/-- R83 to R91: the debugger, with DBG_TARGET at a group of a tenant whose debug is on. HALT takes effect once everything the
group has issued has completed; RESUME lets it run, STEP lets it issue one instruction or wait on at its barrier, both after the
handler's entry for a fault it halted at; DBG_DATA reads and writes its words only
while it is halted, and INDEX advances. Commands for a tenant without debug are ignored, and turning debug off lets its groups
run. What the debugger may touch beyond a group's contents is the model's reading (log entry 61), as are the abort of a fault it
halted at where the tenant has no handler (log entry 105) and a resume before the halt has taken effect (log entry 135). -/
def Obligations.DebugCommands : Prop :=
  (∀ (s : State) (f slot : Nat) (g : Machine.Group), s.windowOpen 0 → s.dbgGroup = some (f, slot, g) →
    (s.debugOn s.dbgVf = false → exec .dbgHalt s = .next s ∧ exec .dbgResume s = .next s ∧ exec .dbgStep s = .next s) ∧
    (s.debugOn s.dbgVf = true → g.faulted = none →
      (g.halt = .running → exec .dbgHalt s = .next (s.setGroup f slot { g with halt := .pending })) ∧
      (g.halt ≠ .running → exec .dbgResume s = .next (s.setGroup f slot { g with halt := .running })) ∧
      (g.halt = .halted → g.atBarrier = false → exec .dbgStep s = .next (s.setGroup f slot { g with halt := .stepping })) ∧
      (g.halt = .halted → g.atBarrier = true → exec .dbgStep s = .next (s.setGroup f slot { g with halt := .stepped })) ∧
      (g.halt ≠ .halted → exec .dbgStep s = .next s)) ∧
    (∀ h, s.debugOn s.dbgVf = true → g.faulted = some h → g.halt = .halted →
      exec .dbgResume s = .next (s.deliverHalted f slot { g with halt := .running, faulted := none } h) ∧
      (g.atBarrier = false → exec .dbgStep s = .next (s.deliverHalted f slot { g with halt := .stepping, faulted := none } h))) ∧
    let space := s.regF 0 Reg.dbgAddr 31 30
    let idx := s.regF 0 Reg.dbgAddr 29 0
    (g.halt = .halted → ∀ word, s.dbgWord f g space idx = some word →
      ∃ t, exec .dbgDataRead s = .next t ∧ t.out.answers = (0, Reg.dbgData, leBytes 4 word.toNat) :: s.out.answers ∧
        t.regF 0 Reg.dbgAddr 29 0 = (idx + 1) % 2 ^ 30 ∧ t.facets = s.facets) ∧
    (g.halt ≠ .halted → (∃ t x, exec .dbgDataRead s = .next t ∧ t.out.answers = (0, Reg.dbgData, x) :: s.out.answers ∧
        t.regF 0 Reg.dbgAddr 29 0 = (idx + 1) % 2 ^ 30 ∧ t.facets = s.facets) ∧
      ∀ v, ∃ t, exec (.dbgDataWrite v) s = .next t ∧ t.regF 0 Reg.dbgStatus 10 10 = 1 ∧
        t.regF 0 Reg.dbgAddr 29 0 = (idx + 1) % 2 ^ 30 ∧ t.facets = s.facets) ∧
    (g.halt = .halted → ∀ v, ∃ t h, exec (.dbgDataWrite v) s = .next t ∧ t.regF 0 Reg.dbgAddr 29 0 = (idx + 1) % 2 ^ 30 ∧
      t.group? f slot = some h ∧
      (space = 0 → idx / 32 < s.vregsOf g → h = { g with v := tset g.v idx v }) ∧
      (space = 1 → idx < 64 → h = { g with u := tset g.u idx v }) ∧
      (space = 1 → 64 ≤ idx → idx < 72 → h = { g with p := tset g.p (idx - 64) v }) ∧
      (space = 2 → idx = 64 → h = { g with active := v &&& ~~~ g.exited }))) ∧
  (∀ (s : State) (f slot : Nat) (g : Machine.Group), s.group? f slot = some g →
    (g.halt = .pending ∨ (g.halt = .stepped ∧ g.atBarrier = false) → s.groupQuiet f slot g = true →
      exec (.haltTakesEffect f slot) s = .next (s.setGroup f slot { g with halt := .halted })) ∧
    (s.groupQuiet f slot g = false ∨ g.halt = .running ∨ (g.halt = .stepped ∧ g.atBarrier = true) → exec (.haltTakesEffect f slot) s = .next s)) ∧
  ∀ (s : State) (v : Word), s.windowOpen 0 → (∀ f slot g, s.group? f slot = some g → g.faulted = none) →
    ∃ t, exec (.dbgEnableWrite v) s = .next t ∧ t.reg 0 Reg.dbgEnable = v &&& 0x1FFFE ∧
      ∀ f slot g, s.group? f slot = some g → t.group? f slot = some
        (if (s.reg 0 Reg.dbgEnable).getLsbD g.vf = true ∧ v.getLsbD g.vf = false then { g with halt := .running } else g)

/-- R88: clearing a tenant's bit of DBG_ENABLE resumes all of its halted groups. -/
def Obligations.ClearingDebugResumes : Prop :=
  ∀ (s : State) (v : Word) (j : Nat), s.windowOpen 0 → (s.reg 0 Reg.dbgEnable).getLsbD j = true → v.getLsbD j = false →
    ∃ t, exec (.dbgEnableWrite v) s = .next t ∧ ∀ f slot g, t.group? f slot = some g → g.vf = j → g.halt = .running

/-- R396, R397, R50, R263, R326, R377, R406, R528: tenants. A tenant is enabled when every check passes, else the error says which failed; a
reset stops the function's work at once and, once its accumulates are applied, its digest entries are written and it completes, its
registers are at their reset values and its code stores empty; an FLR of PF0 resets PF0's own buddy reception too. What happens at the start of a tenant reset and what at its end is the model's reading (log entry 70). -/
def Obligations.TenantCommands : Prop :=
  (∀ (s : State) (j : Nat), 1 ≤ j → j ≤ 16 → s.windowOpen 0 → s.enabled j = false →
    ∃ t, exec (.tenEnable j) s = .next t ∧ OnlyRegs s t (fun k x => k = 0 ∧ (x = Reg.tenCtrl j ∨ x = Reg.tenStatus j)) ∧
      (t.enabled j = true ↔ t.regF 0 (Reg.tenStatus j) 15 8 = 0) ∧
      (t.regF 0 (Reg.tenStatus j) 15 8 = 1 ↔ ∃ k ∈ s.tenants, ∃ p ∈ s.assigned j, p ∈ s.assigned k) ∧
      (t.enabled j = true → s.assigned j ≠ [] ∧ (∀ p ∈ s.assigned j, ∃ f, s.positions[p]? = some (some f)) ∧
        ∀ x ∈ s.regions j, x.dbase + x.len ≤ reservedBase ∧ ∀ k ∈ s.tenants, ∀ y ∈ s.regions k,
          x.dbase + x.len ≤ y.dbase ∨ y.dbase + y.len ≤ x.dbase)) ∧
  (∀ (s : State) (j : Nat), 1 ≤ j → j ≤ 16 → (s.fn j).resetting = false →
    (s.windowOpen 0 → (∃ t, exec (.tenDisable j) s = .next t ∧ ResetBegun s t j true) ∧
      (s.enabled j = true → ∃ t, exec (.tenCtrlReset j) s = .next t ∧ ResetBegun s t j false)) ∧
    (s.windowOpen j → ∃ t, exec (.tenSelfReset j) s = .next t ∧ ResetBegun s t j false) ∧
    (∃ t, exec (.flrVf j) s = .next t ∧ ResetBegun s t j false) ∧
    ((s.fn j).recover = true → s.outstanding j = 0 → ∃ t, exec (.tenantRecoveryReset j) s = .next t ∧ ResetBegun s t j false) ∧
    (s.outstanding j ≠ 0 ∨ (s.fn j).recover = false → exec (.tenantRecoveryReset j) s = .next s) ∧
    exec (.tenantResetComplete j) s = .next s) ∧
  (∀ (s : State), ∃ t, exec .flrPf0 s = .next t ∧ (∀ j, 1 ≤ j → j ≤ 16 → (t.fn j).resetting = true) ∧
    (t.fn 0).rx = {} ∧ (∀ a ∈ [Reg.winStatus, Reg.hifSelect, Reg.stepStatus, Reg.poisonDropped, Reg.pwrReq], t.reg 0 a = regReset 0 a)) ∧
  (∀ (s : State) (j : Nat), 1 ≤ j → j ≤ 16 → (s.fn j).resetting = true →
    (s.nmaQueued j = true → (s.fn j).owedDigests = [] → exec (.tenantResetComplete j) s = .next s) ∧
    ((s.fn j).owedDigests ≠ [] → s.ringGate 1 ≠ none → exec (.tenantResetComplete j) s = .next s) ∧
    (s.nmaQueued j = false → (s.fn j).owedDigests = [] → ∃ t, exec (.tenantResetComplete j) s = .next t ∧ (t.fn j).resetting = false ∧ t.regF 0 (Reg.tenStatus j) 31 31 = 0 ∧
      (∀ a r, regSpec? j a = some r → r.kind = .tenant → a ≠ Reg.memState → r.rws = 0 → t.reg j a = r.reset) ∧
      t.regF j Reg.memState 31 31 = s.regF j Reg.memState 31 31 ∧ (t.fn j).seed = 0 ∧ (t.fn j).rings = [] ∧
      (∀ h ∈ t.held, h.fn ≠ j) ∧ (∀ e ∈ s.logical j, (s.facet e.2).failed = false → (t.facet e.2).code = {}) ∧
      ((s.fn j).disableAfter = true → t.enabled j = false) ∧ t.hbm = s.hbm ∧
      t.hull = { s.hull with pins := s.hull.pins.filter (fun c => c.vf != j) })) ∧
  ∀ (s : State) (j : Nat) (d : Drain), 1 ≤ j → j ≤ 16 → s.windowOpen j → s.drainOf j = some d →
    let done := ∃ g ∈ s.store.gens, g.gen = d.gen ∧ g.committed = true
    ∃ t, exec (.drainAbortStore j) s = .next t ∧ t.hbm = s.hbm ∧ t.hull = s.hull ∧
      (d.store = true → d.storeEnd = 0 → ¬ done → t.drainOf j = some { d with storeEnd := 2 } ∧
        (s.spRuns = true → ∀ g ∈ t.store.gens, g.gen ≠ d.gen) ∧
        (s.spRuns = false → t.store.due = s.store.due ++ [(d.gen, 2)] ∧ t.store.gens = s.store.gens)) ∧
      (d.store = false ∨ d.storeEnd ≠ 0 ∨ done → t = s)

/-- R428, R433, R434, R437, R440, R441, R443 to R446, R449, R450: the Gnomon store. A programmed page of data counts; the last one
queues COMMIT, or after an overlap DISCARD. Each record programs in copy A and then in copy B: COMMIT in copy A commits the generation
with its digest, and in copy B the store leg reports it. A failed program or erase retires the block, a failed record is written again,
and with no replacement left the store is read-only. A restore is refused with RESULT 2 as R441 says, and where the buffer is not
mapped whole (log entry 60); it copies page by page, poisons what stays uncorrectable and judges the digest at its end. The order of
erases, the choice of stripes, where a record lies and the end of a scrub pass are the model's reading (log entries 58 to 60). -/
def Obligations.GnomonStore : Prop :=
  (∀ (s : State) (j : Nat) (g : Generation), s.store.gens.find? (fun g => g.fn == j && g.isOpen) = some g →
    s.spRuns = true → s.store.paused = false → (∀ e ∈ s.store.due, e.1 ≠ g.gen) → (s.store.gens.map (·.gen)).Nodup →
    (∀ r ∈ s.store.queue.head?, r.fn ≠ j) → (∀ r ∈ s.store.queue, r.gen = g.gen → 2 < r.type) → g.pages < g.ready →
    let gensWith (x : Generation) : List Generation := s.store.gens.map (fun y => if y.gen = g.gen then x else y)
    let overlap := ∃ d ∈ s.drains, d.fn = g.fn ∧ d.overlap = true
    let h := g.data.digestOf (g.len * 4096)
    (g.pages + 1 < g.units ∨ s.legOpen g = false → ∃ t, exec (.pageProgramDone j true) s = .next t ∧ t.drains = s.drains ∧
      t.hbm = s.hbm ∧ t.hull = s.hull ∧ t.store.gens = gensWith { g with pages := g.pages + 1 } ∧ t.store.queue = s.store.queue) ∧
    (g.pages + 1 = g.units → s.legOpen g = true → overlap →
      ∃ t r l, exec (.pageProgramDone j true) s = .next t ∧ t.store.gens = s.store.gens.filter (fun y => y.gen != g.gen) ∧
        t.store.queue = l ++ [r] ∧ r.type = 4 ∧ r.gen = g.gen ∧ r.field 24 1 = 3 ∧
        ∀ d ∈ t.drains, d.store = true → d.gen = g.gen → d.storeEnd ≠ 0) ∧
    (g.pages + 1 = g.units → s.legOpen g = true → ¬ overlap → (∀ r ∈ s.store.queue, r.gen = g.gen → r.type ≠ 3) →
      ∃ t r, exec (.pageProgramDone j true) s = .next t ∧ t.drains = s.drains ∧ t.store.gens = gensWith { g with pages := g.pages + 1 } ∧
        t.store.queue = s.store.queue ++ [r] ∧ r.type = 3 ∧ r.fn = g.fn ∧ r.gen = g.gen ∧ r.seq = s.store.nextSeq ∧
        r.field 48 16 = h.1.toNat ∧ t.store.copyA = s.store.copyA ∧ t.store.copyB = s.store.copyB) ∧
    let p := placeData (g.pages * pageBytes)
    let k := s.store.live (blockNo p.2.2.1 p.2.2.2 (g.stripes.getD p.1 0))
    let spare := ((List.range 64).map (fun i => blockNo p.2.2.1 p.2.2.2 (4032 + i))).filter
      (fun r => s.store.bad.all (fun e => e.1 != r && e.2 != r))
    ∃ t, exec (.pageProgramDone j false) s = .next t ∧ t.hbm = s.hbm ∧ t.hull = s.hull ∧ t.store.areaA.bad = t.store.bad ∧
      t.store.areaB.bad = t.store.bad ∧
      (∀ r, spare.head? = some r → t.store.bad = s.store.bad ++ [(k, r)] ∧ t.store.gens = s.store.gens ∧ t.store.readOnly = s.store.readOnly) ∧
      (spare = [] → t.store.readOnly = true ∧ ∀ y ∈ t.store.gens, y.gen ≠ g.gen)) ∧
  (∀ (s : State) (j : Nat) (r : JournalRec) (rest : List JournalRec), s.store.queue = r :: rest → r.fn = j →
    s.spRuns = true → s.store.paused = false →
    (s.store.inB = false → ∃ t, exec (.pageProgramDone j true) s = .next t ∧ t.drains = s.drains ∧
      t.store.copyA = (s.store.append false r).copyA ∧ t.store.copyB = s.store.copyB ∧ t.store.inB = true ∧ t.store.queue = s.store.queue ∧
      (r.type ≠ 3 → t.store.gens = s.store.gens) ∧
      (r.type = 3 → t.store.gens = s.store.gens.map (fun y => if y.gen = r.gen then
        { y with committed := true, digest := BitVec.ofNat 128 (r.field 48 16), poisoned := r.field 64 4 } else y))) ∧
    (s.store.inB = true → ∃ t, exec (.pageProgramDone j true) s = .next t ∧ t.store.copyA = s.store.copyA ∧
      t.store.copyB = (s.store.append true r).copyB ∧ t.store.inB = false ∧
      (r.type ≠ 3 → t.store.queue = rest ∧ t.store.gens = s.store.gens ∧ t.drains = s.drains) ∧
      (r.type = 3 → (s.store.committed j).length ≤ s.keep → t.store.queue = rest ∧
        t.store.gens = s.store.gens.map (fun y => if y.gen = r.gen then { y with told := true } else y) ∧
        ∀ d ∈ t.drains, d.store = true → d.gen = r.gen → d.storeEnd ≠ 0)) ∧
    ∃ t, exec (.pageProgramDone j false) s = .next t ∧ t.store.copyA = s.store.copyA ∧ t.store.copyB = s.store.copyB ∧
      t.store.queue = s.store.queue ∧ t.store.inB = s.store.inB ∧ t.store.gens = s.store.gens ∧
      t.store.bad.length = s.store.bad.length + 1) ∧
  (∀ (s : State) (die plane block : Nat), die < 64 → plane < 4 → block < 4096 → s.ioClocked 1 = true → let k := blockNo die plane block
    (s.store.holds die plane block = true → ∀ pass, exec (.blockEraseDone die plane block pass) s = .next s) ∧
    (s.store.holds die plane block = false → tableWf 16 s.store.erases = true → tableWf 32 s.store.reads = true →
      (∃ t, exec (.blockEraseDone die plane block true) s = .next t ∧ tget t.store.reads k = 0 ∧
        (∀ n, tget t.store.erases n = tget s.store.erases n + if n = k then 1 else 0) ∧ t.store.gens = s.store.gens) ∧
      ∃ t, exec (.blockEraseDone die plane block false) s = .next t ∧ t.store.gens = s.store.gens ∧
        t.store.bad.length = s.store.bad.length + 1)) ∧
  (∀ s : State, ((s.reg 0 Reg.gnCfg).getLsbD 31 = false → exec .storeScrubPass s = .next s) ∧
    ((s.reg 0 Reg.gnCfg).getLsbD 31 = true → s.spRuns = true → s.store.paused = false → s.decisions = [] →
      ∃ t, exec .storeScrubPass s = .next t ∧ t.hbm = s.hbm ∧ t.hull = s.hull ∧
        ((s.reg 0 Reg.modes).getLsbD 6 = false → (t.store.scrubbing = true ↔ 0 < s.store.programmedPages) ∧ t.decisions = []) ∧
        ((s.reg 0 Reg.modes).getLsbD 6 = true → t.store = s.store ∧
          t.decisions = [{ fn := 8, subject := 0, due := s.now + 25000000, data := 0 }]))) ∧
  (∀ (s : State) (v : Word), s.windowOpen 0 →
    (∃ t, exec (.gnGenSelWrite v) s = .next t ∧ t.store = s.store ∧
      ((s.store.committed (field v 12 8))[field v 1 0]? = none →
        t.reg 0 Reg.gnGenInfoA = 0 ∧ t.reg 0 Reg.gnGenInfoB = 0 ∧ t.reg 0 Reg.gnGenInfoC = 0) ∧
      ∀ g, (s.store.committed (field v 12 8))[field v 1 0]? = some g → t.reg 0 Reg.gnGenInfoA = BitVec.ofNat 32 g.gen ∧
        t.reg 0 Reg.gnGenInfoB = BitVec.ofNat 32 (2 ^ 31 + g.buf * 2 ^ 24 + g.len) ∧ t.reg 0 Reg.gnGenInfoC = BitVec.ofNat 32 g.step) ∧
    (let fn := s.regF 0 Reg.gnGenSel 12 8
      let w := s.wset fn (field v 8 8)
      let chosen := (s.store.committed fn)[s.regF 0 Reg.gnGenSel 1 0]?
      let fits (g : Generation) : Prop := (s.reg fn Reg.wsetCtrl).getLsbD 31 = true ∧ g.len * 65536 ≤ w.2 ∧
        (∀ x ∈ s.drains, x.fn ≠ fn) ∧ s.store.restore = none ∧ s.rangeMapped fn w.1 (g.len * 65536) = true
      ∃ t, exec (.gnRestore v) s = .next t ∧ t.hbm = s.hbm ∧ t.hull = s.hull ∧
        (∀ g, chosen = some g → fits g → t.store.restore = some { gen := g.gen, fn := fn, base := w.1 } ∧
          t.reg 0 Reg.gnRestoreStatus = 0x80000000) ∧
        (∀ g, chosen = some g → ¬ fits g → t.store = s.store ∧ t.regF 0 Reg.gnRestoreStatus 23 16 = 2) ∧
        (chosen = none → t.store = s.store ∧ t.regF 0 Reg.gnRestoreStatus 23 16 = 2)) ∧
    (s.store.restore = none → exec .gnRestoreCancel s = .next s) ∧
    (s.store.restore.isSome = true → ∃ t, exec .gnRestoreCancel s = .next t ∧ t.store.restore = none ∧
      t.regF 0 Reg.gnRestoreStatus 23 16 = 3 ∧ t.regF 0 Reg.gnRestoreStatus 31 31 = 0)) ∧
  (∀ (s : State) (die plane block page retries bits : Nat) (bad : List Nat), die < 64 → plane < 4 → block < 4096 → page < 1024 →
    retries ≤ 8 → s.spRuns = true → s.store.scrubbing = false → s.store.relocate = [] → tableWf 32 s.store.reads = true →
    let k := blockNo die plane block
    let reads := tget s.store.reads k + BitVec.ofNat 32 (1 + retries)
    reads.toNat < 10000 * max 1 (s.regF 0 Reg.gnCfg 15 8) →
    ∃ t, exec (.pageReadDone die plane block page retries bits bad) s = .next t ∧ tget t.store.reads k = reads ∧
      t.store.relocate = [] ∧
      (s.store.restore = none → t.hbm = s.hbm ∧ t.hull = s.hull ∧ t.store.gens = s.store.gens) ∧
      ∀ r g d, s.store.restore = some r → s.store.gens.find? (fun g => g.gen == r.gen) = some g → r.next < g.units →
        s.store.paused = false → d % 2048 = 0 → s.memoryWf = true →
        let p := placeData (r.next * pageBytes)
        let codes := g.page r.next (distinct (bad.filter (· < 4)))
        s.store.live (blockNo p.2.2.1 p.2.2.2 (g.stripes.getD p.1 0)) = k → p.2.1 = page →
        (∀ i < codes.length / 128, s.translate r.fn (r.base + r.next * pageBytes + 2048 * i) = some (d + 2048 * i) ∧
          s.agentGate (d + 2048 * i) 2048 true = none) →
        (∃ x, t.store.restore = some x ∧ x.next = r.next + 1 ∧ x.gen = r.gen ∧ x.poisoned = r.poisoned + (codes.filter lostWord).length ∧
          t.regF 0 Reg.gnRestoreStatus 15 0 = min 65535 x.poisoned) ∧
        (∀ i < codes.length / 8, t.coherent (d / 128 + i) = Sector.ofCodes (codes.drop (8 * i))) ∧
        ∀ n, n < d / 128 ∨ d / 128 + codes.length / 8 ≤ n → t.coherent n = s.coherent n) ∧
  ∀ (s : State) (r : Restore) (g : Generation), s.store.restore = some r → s.store.gens.find? (fun g => g.gen == r.gen) = some g →
    (r.next < g.units → exec .restoreComplete s = .next s) ∧
    (g.units ≤ r.next → ∃ t, exec .restoreComplete s = .next t ∧ t.store.restore = none ∧ t.hbm = s.hbm ∧ t.hull = s.hull ∧
      t.regF 0 Reg.gnRestoreStatus 31 31 = 0 ∧ t.regF 0 Reg.gnRestoreStatus 15 0 = min 65535 r.poisoned ∧
      t.regF 0 Reg.gnRestoreStatus 23 16 = 1 ∧
      (t.regF 0 Reg.gnRestoreStatus 30 30 = 1 ↔ (r.data.digestOf (g.len * 4096)).1 = g.digest))

/-- R406, R408, R409, R415 to R417, R422, R423: decisions, takeover, escalation and the lifetime counters. A decision whose wait
is over takes its fallback, while the unit that takes it is present; an answer takes its own action, and one that nothing waits
for counts as stale. More than a thousand edge-fabric errors count in PATH_ERR and bring a warm reset, how many more is free (log entry
119). The model's reading: unknown answers, and fallbacks whose owner is absent (log entries 73 and 74), that every write of SPARE_TAKE
starts a request (72), that LIFE_SEL latches MP's live counter (75), the data of a decision of function 7 (96), and MODULE_FAULT with
no fault declared as the event itself (124). -/
def Obligations.DecisionsAndLifetime : Prop :=
  (∀ (s : State) (d : Decision), s.decisions = [d] →
    (s.now < d.due → exec (.decisionWaitExpire d.fn d.subject) s = .next s) ∧
    (d.due ≤ s.now → s.mpRuns = true → s.boot.ppUp = true → s.spRuns = true →
      ∃ t, exec (.decisionWaitExpire d.fn d.subject) s = .next t ∧ (d.fn = 2 → t.decisions = [] ∧ (t.port d.subject).ordered = true) ∧
        (d.fn = 3 → t.decisions = [] ∧ (t.fn d.subject).recover = true ∧ t.entries = s.entries) ∧
        (d.fn = 6 → t.decisions = [] ∧ t.power.row = d.data ∧ t.power.cap = (curveCap d.data).1) ∧
        (d.fn = 7 → d.data = 0 → t.decisions = [] ∧ (d.subject < 12 → t.regF 0 Reg.escStatus d.subject d.subject = 1)) ∧
        (d.fn = 7 → d.data = 1 → t.decisions = [] ∧ t.boot.faultDue = true) ∧
        (d.fn = 8 → t.decisions = [] ∧ (t.store.scrubbing = true ↔ 0 < s.store.programmedPages))) ∧
    (d.fn = 3 → s.mpRuns = false → exec (.decisionWaitExpire d.fn d.subject) s = .next s)) ∧
  (∀ (s : State) (v : Word), s.windowOpen 0 →
    let stale (t : State) : Prop := t.decisions = s.decisions ∧
      t.regF 0 Reg.decPending 31 24 = min 255 (s.regF 0 Reg.decPending 31 24 + 1) ∧ t.power = s.power ∧ t.store = s.store
    ((∀ d ∈ s.decisions, d.fn = field v 31 28 → d.subject ≠ field v 23 0) → ∃ t, exec (.decAnswerWrite v) s = .next t ∧ stale t) ∧
    ∀ d, s.decisions = [d] → d.fn = field v 31 28 → d.subject = field v 23 0 →
      ∃ t, exec (.decAnswerWrite v) s = .next t ∧ (d.due ≤ s.now → stale t) ∧
        (s.now < d.due → d.fn = 3 → field v 27 24 = 3 → t = { s with decisions := [] }) ∧
        (s.now < d.due → d.fn = 6 → field v 27 24 = 1 → t.decisions = [] ∧ (s.boot.ppUp = true → t.power.row = d.data) ∧
          (s.boot.ppUp = false → t.power = s.power)) ∧
        (s.now < d.due → d.fn = 6 → field v 27 24 = 2 → t.decisions = [] ∧ t.power = { s.power with rowHeld := some d.data }) ∧
        (s.now < d.due → d.fn = 7 ∨ d.fn = 8 → field v 27 24 = 2 → t = { s with decisions := [] }) ∧
        (s.now < d.due → d.fn = 6 ∨ d.fn = 7 ∨ d.fn = 8 → 2 < field v 27 24 → stale t)) ∧
  (∀ (s : State) (v : Word), s.windowOpen 0 → let j := field v 29 25
    let p := field v 19 0
    let refused := j = 0 ∨ 16 < j ∨ s.enabled j = true ∨ (∃ k ≤ 16, s.posOf k = some p) ∨
      (s.reg 0 Reg.escStatus).getLsbD 31 = true ∨ s.boot.faultDue = true
    ∃ t, exec (.spareTakeWrite v) s = .next t ∧ t.hbm = s.hbm ∧ t.hull = s.hull ∧
      (refused → t.regF 0 Reg.spareTake 30 30 = 1 ∧ t.decisions = s.decisions ∧ ∀ k ≤ 16, t.posOf k = s.posOf k) ∧
      (¬ refused → (s.reg 0 Reg.modes).getLsbD 3 = false → t.posOf j = some p ∧ (t.enabled j = true ↔ s.enableError j = 0) ∧
        (t.enabled j = true → t.regF 0 Reg.spareTake 31 31 = 1) ∧ (t.enabled j = false → t.regF 0 Reg.spareTake 30 30 = 1)) ∧
      (¬ refused → (s.reg 0 Reg.modes).getLsbD 3 = true → s.decisions = [] → t.posOf j = s.posOf j ∧
        t.decisions = [{ fn := 5, subject := j, due := s.now + 25000000, data := p }])) ∧
  (∀ s : State, (s.boot.phase ≠ .running → exec .edgeUeRateExceeded s = .next s) ∧
    (s.boot.phase = .running → (s.reg 0 Reg.modes).getLsbD 5 = false → ∃ t, exec .edgeUeRateExceeded s = .next t ∧
      t.boot.phase = .warmEntry ∧ t.boot.cause = 6 ∧ t.entries = [] ∧ t.locusOpen = false) ∧
    (s.boot.phase = .running → (s.reg 0 Reg.modes).getLsbD 5 = true → s.decisions = [] →
      ∃ t, exec .edgeUeRateExceeded s = .next t ∧ t.decisions = [{ fn := 7, subject := 0, due := s.now + 2500000, data := 2 }] ∧
        min 65535 (s.regF 0 Reg.pathErr 15 0 + 1001) ≤ t.regF 0 Reg.pathErr 15 0 ∧ t.hbm = s.hbm ∧ t.hull = s.hull ∧ t.boot = s.boot)) ∧
  (∀ s : State, let hosted := (s.reg 0 Reg.modes).getLsbD 5
    (s.boot.faultDue = false → s.boot.phase ≠ .running → exec .moduleFault s = .next s) ∧
    (s.boot.faultDue = false → s.boot.phase = .running → hosted = true → s.decisions = [] → exec .moduleFault s =
      .next { s with decisions := [{ fn := 7, subject := 0, due := s.now + 2500000, data := 1 }] }) ∧
    (s.boot.faultDue = true ∨ (s.boot.phase = .running ∧ hosted = false) → ∃ t, exec .moduleFault s = .next t ∧ t.locusOpen = false ∧
      (s.boot.moduleFaults = 0 → t.boot.cause = 7 ∧ t.entries = [] ∧ t.boot.mpUp = false) ∧
      (s.boot.moduleFaults ≠ 0 → 3 ∉ s.power.holds → (t.reg 0 Reg.escStatus).getLsbD 31 = true ∧ 3 ∈ t.power.holds ∧
        t.power.state = 3 ∧ (∀ e ∈ t.entries, 16 < e.fn) ∧ t.upPorts = []))) ∧
  ∀ s : State, (∃ t, exec .lifePersist s = .next t ∧ t.life = s.life ∧ (s.spRuns = false → t = s) ∧
      (s.spRuns = true → t.store.areaA.life = s.life.live ∧ t.store.areaB.life = s.life.live ∧ t.store.gens = s.store.gens)) ∧
    (tableWf 64 s.life.live = true → ∃ t, exec .lifeSample s = .next t ∧ ∀ k, (tget t.life.live k).toNat =
      if k = lifeBin s.power.junction 100 20 ∨ k = 16 + lifeBin s.power.inlet 120 10 ∨ k = 32 + lifeBin s.power.volts 42000 1000
      then min (2 ^ 64 - 1) ((tget s.life.live k).toNat + 1) else (tget s.life.live k).toNat) ∧
    ∀ v, s.windowOpen 0 → ∃ t, exec (.lifeSelWrite v) s = .next t ∧ t.reg 0 Reg.lifeSel = v &&& 0x3FF ∧
      (¬ (0x200 ≤ field v 9 0 ∧ field v 9 0 ≤ 0x20F) → t.life.latched = tget s.life.live (field v 9 0)) ∧
      t.life.live = s.life.live

/-- R451 to R457, R461, R523: clocks and heat. What stops a clock gates what hangs on it, or puts the module in the safe hold;
the junction throttle, its trip and the inlet limit act at their temperatures and end at theirs. A retuning moves voltage and frequency
in the order that keeps the table's voltage, and is refused above a ceiling or during a supply warning. The model's reading: which of
several holds shows (log entry 77), one move of the sequencer a command (82), and that in S2, where no clock runs, ORIGIN_RELOCK_TIMEOUT
has no effect, with what is left of S2 when a hold met in it ends (83). -/
def Obligations.ClocksAndHeat : Prop :=
  (∀ s : State,
    (s.power.xtalOk = false → s.boot.xtalFailed = false → 4 ∉ s.power.holds → ∃ t, exec .xtalStable s = .next t ∧
      t.power.xtalOk = true ∧ t.power.rcActive = false) ∧
    (s.power.xtalOk = true → exec .xtalStable s = .next s ∧ exec .xtalTimeout s = .next s) ∧
    (s.power.xtalOk = false → s.boot.phase = .coldHeld ∨ s.boot.phase = .starting → ∃ t, exec .xtalTimeout s = .next t ∧
      t.boot.phase = .stopped ∧ t.alertN = true ∧ t.power.rcActive = true) ∧
    (s.power.xtalOk = true → 4 ∉ s.power.holds → ∃ t, exec .xtalLoss s = .next t ∧ t.power.xtalOk = false ∧ t.power.rcActive = true ∧
      t.power.holds.head? = some 4 ∧ t.power.state = 3) ∧
    (∃ t, exec .chordRefclkLoss s = .next t ∧ t.upPorts = [] ∧ t.hbm = s.hbm ∧ t.hull = s.hull ∧
      ∀ p < 36, (s.port p).isUp = true → (t.port p).state = .failed) ∧
    ∃ t, exec .refclkLoss s = .next t ∧ t.side.cxlUp = false ∧ t.hbm = s.hbm ∧ t.hull = s.hull ∧ t.fns = s.fns) ∧
  (∀ (s : State) (pll : Nat), s.power.xtalOk = true →
    (s.hasPll pll = true → ∃ u : State, u = { s with power := u.power } ∧ u.power.lock pll = true ∧
      (∀ k < 16, k ≠ pll → u.power.lock k = s.power.lock k) ∧
      exec (.pllLock pll) s = .next (if u.pumpAll.spRuns then u.pumpAll.spReturns else u.pumpAll).mpReturns) ∧
    (s.hasPll pll = true → s.power.lock pll = true → ∃ t, exec (.pllUnlock pll) s = .next t ∧ t.power.lock pll = false ∧
      t.regF 0 Reg.clkStatus 23 16 = min 255 (s.regF 0 Reg.clkStatus 23 16 + 1) ∧ ∀ k < 16, k ≠ pll → t.power.lock k = s.power.lock k) ∧
    (s.hasPll pll = false → exec (.pllLock pll) s = .next s ∧ exec (.pllUnlock pll) s = .next s) ∧
    (s.power.state = 2 → exec (.originRelockTimeout pll) s = .next s) ∧
    (pll < 6 → s.power.lock pll = false → s.boot.phase = .running → s.power.state ≠ 2 → 4 ∉ s.power.holds →
      ∃ t, exec (.originRelockTimeout pll) s = .next t ∧ 4 ∈ t.power.holds ∧ t.power.state = 3) ∧
    (s.power.lock pll = true → exec (.originRelockTimeout pll) s = .next s)) ∧
  (∀ (s : State) (island n mv : Nat), let now := s.islandNow island
    let table := Config.tableMv s.boot.tables island
    let legal := island < 10 ∧ s.pairedMode = true ∧ s.power.lock (6 + island) = true ∧ 0 < n ∧ (n ≤ if island < 4 then 64 else 32) ∧
      mv ≤ Config.railCeiling s.boot.tables island ∧ table n ≤ mv ∧ (s.power.warnAt = none ∨ mv = now.2)
    let moved (x : Nat × Nat) : Prop := ∃ t, exec (.pllRetune island n mv) s = .next t ∧ aget? t.power.islands island = some x ∧
      (∀ k, k ≠ island → aget? t.power.islands k = aget? s.power.islands k) ∧
      t = { s with power := { s.power with islands := t.power.islands } }
    (legal → now.2 = mv → moved (n, mv)) ∧
    (legal → now.2 ≠ mv → n < now.1 → table n ≤ now.2 → moved (n, now.2)) ∧
    (legal → now.2 ≠ mv → now.1 ≤ n → table now.1 ≤ mv → moved (now.1, mv)) ∧
    (¬ legal ∨ (now.2 ≠ mv ∧ n < now.1 ∧ now.2 < table n) ∨ (now.2 ≠ mv ∧ now.1 ≤ n ∧ mv < table now.1) →
      exec (.pllRetune island n mv) s = .next s)) ∧
  ∀ (s : State) (x die : Nat), die < 6 →
    (∃ t, exec (.junctionThrottle x die) s = .next t ∧ t.power.junction = x ∧ t.power.hotDie = die ∧
      (400 ≤ x → t.power.throttle = true) ∧ (400 ≤ x → s.power.throttle = false → t.power.n ≤ 32 ∧ t.power.hullHalf = true) ∧
      (x < 400 → t.power.throttle = s.power.throttle ∧ t.power.n = s.power.n)) ∧
    (∃ t, exec (.throttleRelease x die) s = .next t ∧ t.power.junction = x ∧ (x ≤ 380 → t.power.throttle = false) ∧
      (380 < x → t.power.throttle = s.power.throttle) ∧ t.power.n ≤ s.power.n) ∧
    (∃ t, exec (.junctionTrip x die) s = .next t ∧ (440 ≤ x → 2 ∈ t.power.holds) ∧
      (440 ≤ x → 2 ∉ s.power.holds → t.power.state = 3 ∧ t.store.paused = true) ∧
      (x < 440 → t.power = { s.power with junction := x, hotDie := die })) ∧
    (∃ t, exec (.inletLimit x) s = .next t ∧ t.power.inlet = x ∧ (248 ≤ x → 5 ∈ t.power.holds) ∧
      (248 ≤ x → 5 ∉ s.power.holds → t.power.state = 3) ∧ (x < 248 → t.power = { s.power with inlet := x })) ∧
    ∀ inlet, ∃ t, exec (.thermalRelease x die inlet) s = .next t ∧
      (240 < inlet → t.power = { s.power with junction := x, hotDie := die, inlet := inlet }) ∧
      (inlet ≤ 240 → 5 ∉ t.power.holds ∧ (x ≤ 360 → 2 ∉ t.power.holds) ∧ (360 < x → (2 ∈ t.power.holds ↔ 2 ∈ s.power.holds))) ∧
      (inlet ≤ 240 → x ≤ 360 → s.power.holds = [2] → t.power.state = 5 ∧ t.regF 0 Reg.pwrState 3 0 = 4 ∧
        (s.power.deep = false → t.power.leaving = s.power.state) ∧ (s.power.deep = true → t.power.leaving = 2))

/-- R458 to R473, R481, R482: the hard limits, the window of the Facet ratio, Level mode, the coolant curve, supply events and
the gates. The moments at which N changes and the gates' further effects are the model's reading (log entries 79, 80 and 84). -/
def Obligations.PowerLimits : Prop :=
  (∀ (s : State) (x : Nat),
    (∃ t, exec (.fastCurrentClamp x) s = .next t ∧ t.power.amps = x ∧ (67000 < x → t.power.clamp = true ∧ t.power.n ≤ 32) ∧
      (x ≤ 67000 → t.power = { s.power with amps := x })) ∧
    (∃ t, exec (.clampRelease x) s = .next t ∧ (x ≤ 64000 → s.power.clamp = true → t.power.clamp = false ∧ t.power.ramping = true ∧
      t.power.n ≤ s.power.n) ∧ (64000 < x ∨ s.power.clamp = false → t.power = { s.power with amps := x })) ∧
    (∃ t, exec .ppHeartbeat s = .next t ∧ (s.boot.ppUp = true → t.power.beatAt = s.now ∧ t.power.ppFloor = false) ∧
      (s.boot.ppUp = false → t = s)) ∧
    (∃ t, exec .ppHeartbeatTimeout s = .next t ∧ (s.now < s.power.beatAt + 250000 → t = s) ∧
      (s.power.beatAt + 250000 ≤ s.now → t.power.ppFloor = true ∧ t.power.n ≤ 32)) ∧
    (∃ t, exec (.supplyWarning x) s = .next t ∧ t.power.volts = x ∧
      (x < 45000 → s.power.warnAt = none → s.boot.phase ≠ .coldHeld → t.power.warnAt = some s.now ∧ t.power.n ≤ 32 ∧
        t.power.hullHalf = true ∧ t.store.paused = true ∧
        t.regF 0 Reg.supplyEvents 31 16 = min 65535 (s.regF 0 Reg.supplyEvents 31 16 + 1)) ∧
      (45000 ≤ x → t.power = { s.power with volts := x })) ∧
    (∀ w, s.power.warnAt = some w → s.power.holds = [] →
      ∃ t, exec (.supplyRelease x) s = .next t ∧ t.power.volts = x ∧
        (47000 ≤ x → t.power.warnAt = none ∧ t.power.ramping = true ∧ t.power.n ≤ s.power.n ∧
          (t.reg 0 Reg.supplyLast).toNat = min (2 ^ 32 - 1) (s.now - w)) ∧
        (x < 47000 → t.power = { s.power with volts := x })) ∧
    (∀ w, s.power.warnAt = some w → 1 ∉ s.power.holds → ∃ t, exec .supplyHold s = .next t ∧ (s.now < w + 125000 → t = s) ∧
      (w + 125000 ≤ s.now → 1 ∈ t.power.holds ∧ t.power.state = 3 ∧
        t.regF 0 Reg.supplyEvents 15 8 = min 255 (s.regF 0 Reg.supplyEvents 15 8 + 1))) ∧
    (∃ t, exec (.supplyReset x) s = .next t ∧ (x < 41000 → t.boot.phase = .coldHeld ∧ t.boot.cause = 3 ∧ t.boot.seen47 = false) ∧
      (41000 ≤ x → t.power = { s.power with volts := x })) ∧
    (∃ t, exec .nRampStep s = .next t ∧ (s.power.ramping = false → t = s) ∧ t.power.n ≤ s.power.n + 8 ∧
      (s.power.ramping = true → s.levelOn = false →
        t.power.n = min (min (max s.softWindow.2 16) s.power.hardCeil) (s.power.n + 8)))) ∧
  (∀ (s : State) (mean amps capW : Nat), let bad := 3300 < mean ∨ 68000 < amps ∨ s.power.cap < capW
    ∃ t, exec (.limiterPeriod mean amps capW) s = .next t ∧ t.power.n ≤ s.power.n ∧
      (bad → t.power.limiter = max 16 (s.power.limiter - 4)) ∧
      (¬ bad → s.power.limPeriods ≠ 9 ∨ s.power.limBad = true → t.power.limiter = s.power.limiter) ∧
      (¬ bad → s.power.limPeriods = 9 → s.power.limBad = false → t.power.limiter = min 64 (s.power.limiter + 1))) ∧
  (∀ (s : State) (mean : Nat),
    (∃ t, exec (.windowPeriod mean) s = .next t ∧ t.power.watts = mean ∧
      (s.levelOn = false → t.power.hi = min (max s.softWindow.2 16) s.power.hardCeil ∧
        t.power.n = if s.power.ramping then min s.power.n t.power.hi else t.power.hi) ∧
      (∀ j ∈ s.requesters, (t.fn j).clamped = (t.clampCause j != 0) ∧
        (t.clampCause j ≠ 0 → (s.fn j).clamped = false → t.regF j Reg.policyClamp 15 0 = min 65535 (s.regF j Reg.policyClamp 15 0 + 1)))) ∧
    (∃ t, exec (.levelWindowEnd mean) s = .next t ∧ (s.levelOn = false → t = s) ∧ (s.levelOn = true →
      let setp := s.regF 0 Reg.levelCfg 11 0
      let band := s.regF 0 Reg.levelCfg 21 16
      let above := setp * (200 + band) < 200 * mean
      let below := 200 * mean < setp * (200 - band)
      t.regF 0 Reg.levelStatus 31 31 = (if above ∨ below then 0 else 1) ∧ t.regF 0 Reg.levelStatus 23 12 = min 4095 mean ∧
      t.regF 0 Reg.levelStatus 11 6 = (if above ∧ s.power.warnInLevel = false then min 63 (s.regF 0 Reg.levelStatus 11 6 + 1)
        else s.regF 0 Reg.levelStatus 11 6)))) ∧
  (∀ (s : State) (inlet : Nat), ∃ t, exec (.deratingStep inlet) s = .next t ∧ t.power.inlet = inlet ∧
    (s.boot.ppUp = false → t.power = { s.power with inlet := inlet }) ∧
    (s.boot.ppUp = true → s.decisions = [] → s.power.rowHeld = none →
      let row := if inlet ≤ 220 then 0 else if inlet ≤ 224 then 1 else if inlet ≤ 228 then 2 else if inlet ≤ 232 then 3
        else if inlet ≤ 236 then 4 else 5
      (row < s.power.row ∨ (s.power.row < row ∧ (s.reg 0 Reg.modes).getLsbD 4 = false) → t.power.row = row ∧
        t.power.cap = [3000, 2820, 2640, 2460, 2280, 2100].getD row 0 ∧ t.power.n ≤ [64, 61, 55, 48, 41, 35].getD row 0) ∧
      (s.power.row < row → (s.reg 0 Reg.modes).getLsbD 4 = true → t.power.row = s.power.row ∧
        t.decisions = [{ fn := 6, subject := 0, due := s.now + 250000, data := row }]))) ∧
  (∀ (s : State) (v : Word), s.windowOpen 0 →
    let bad := field v 21 16 < 6 ∨ 40 < field v 21 16 ∨ 3000 < field v 11 0
    (∃ t, exec (.levelCfgWrite v) s = .next t ∧
      (bad → (t.reg 0 Reg.levelStatus).getLsbD 30 = true ∧ t.reg 0 Reg.levelCfg = s.reg 0 Reg.levelCfg) ∧
      (¬ bad → t.regF 0 Reg.levelCfg 21 16 = field v 21 16 ∧ t.regF 0 Reg.levelCfg 11 0 = field v 11 0 ∧
        t.levelOn = s.levelOn ∧ t.regF 0 Reg.levelCfg 30 30 = s.regF 0 Reg.levelCfg 30 30)) ∧
    let id := field v 9 0
    let e := BitVec.ofNat 3 (field v 28 26)
    let refused := s.power.state = 4 ∨ s.treeRefuses id e = true ∨
      (e.getLsbD 0 = false ∧ (s.gate id).getLsbD 0 = true ∧ s.gateInUse id = true)
    ∃ t, exec (.gateCmdWrite v) s = .next t ∧ t.regF 0 Reg.gateStatus 9 0 = id ∧
      (gateKnown id = false → t.regF 0 Reg.gateStatus 25 24 = 3 ∧ t.power = s.power) ∧
      (gateKnown id = true → refused → t.regF 0 Reg.gateStatus 25 24 = 2 ∧ t.power = s.power) ∧
      (gateKnown id = true → ¬ refused → t.regF 0 Reg.gateStatus 25 24 = 1 ∧ t.gate id = e ∧ ∀ k, k ≠ id → t.gate k = s.gate k))

/-- R310, R477 to R480: power states. PWR_CMD starts entry to S1 or S2, or the return, and is refused while something runs; at
the end of entry the engines are in self-refresh, and for S2 the link is in L2 and only the locks of units with DEEP = 1 are left; a
comparator wakes the module, and the wake ends in P0. The model's reading: what each command of an entry and a wake does (log entries 39
and 83), and when the WAKE_SENSE comparator is armed again (145). -/
def Obligations.PowerStates : Prop :=
  (∀ s : State, s.windowOpen 0 →
    (∃ t, exec .pwrCmdP0 s = .next t ∧ (s.power.state = 1 → t.power.state = 5 ∧ t.power.leaving = 1 ∧ t.regF 0 Reg.pwrState 3 0 = 5) ∧
      (s.power.state ≠ 1 → t = s)) ∧
    let refused := (∃ e ∈ s.entries, s.enabled e.fn = true) ∨ s.drains ≠ [] ∨ s.store.restore ≠ none ∨ s.power.emergency = true
    ∀ target, target = 1 ∨ target = 2 → ∃ t, exec (if target = 1 then .pwrCmdS1 else .pwrCmdS2) s = .next t ∧
      (refused → (t.reg 0 Reg.pwrState).getLsbD 25 = true ∧ t.power = s.power) ∧
      (¬ refused → s.power.state = 0 ∨ (s.power.state = 1 ∧ target = 2) → t.power.state = 4 ∧ t.power.entering = target ∧
        t.store.paused = true ∧ t.hbm = s.hbm ∧ t.hull = s.hull) ∧
      (¬ refused → s.power.state ≠ 0 → (s.power.state ≠ 1 ∨ target = 1) → t = s)) ∧
  (∀ s : State, (s.power.state ≠ 4 → exec .powerEntryComplete s = .next s) ∧
    (s.power.state = 4 → ∃ t, exec .powerEntryComplete s = .next t ∧ t.power.state = s.power.entering ∧ t.hull = s.hull ∧
      t.hbm.selfRefresh = true ∧ (∀ k, (t.pc k).sink = []) ∧ (s.power.entering = 1 → t.side = s.side ∧ t.boot = s.boot) ∧
      (s.power.entering = 2 → t.side.cxlUp = false ∧ t.side.cxlL2 = true ∧ t.boot.mpUp = false ∧ t.boot.spUp = false ∧ t.upPorts = [] ∧
        (∀ k < 6, t.power.lock k = (s.power.lock k && (s.gate k).getLsbD 2)) ∧
        (∀ i < 10, t.power.lock (6 + i) = (s.power.lock (6 + i) &&
          (s.gate ([0x10, 0x14, 0x18, 0x1C, 0x11, 0x15, 0x19, 0x1D, 4, 5].getD i 0)).getLsbD 2)) ∧
        (s.spRuns = true → t.store.areaA.life = t.life.live ∧ t.store.areaB.life = t.life.live)))) ∧
  (∀ (s : State) (inlet : Nat),
    (∃ t, exec .wakeSense s = .next t ∧ t.side.senseArmed = false ∧ t.hbm = s.hbm ∧ t.hull = s.hull ∧
      ((s.reg 0 Reg.wakeCfg).getLsbD 31 = false ∨ (s.power.state ≠ 1 ∧ s.power.state ≠ 2) → t.power = s.power ∧ t.boot = s.boot ∧
        t.fns = s.fns) ∧
      ((s.reg 0 Reg.wakeCfg).getLsbD 31 = true → s.side.senseArmed = true → s.power.state = 1 ∨ s.power.state = 2 →
        t.power.state = 5 ∧ t.power.leaving = s.power.state ∧ t.regF 0 Reg.pwrState 3 0 = 1 ∧ t.power.ramping = true ∧
        (s.power.state = 2 → t.side.awaitCxl = true ∧ (s.boot.crashAt = [] → t.boot.mpUp = true ∧ t.boot.spUp = true)))) ∧
    ∃ t, exec (.inletWake inlet) s = .next t ∧ t.power.inlet = inlet ∧
      ((s.reg 0 Reg.wakeCfg).getLsbD 30 = true → inlet < s.regF 0 Reg.wakeCfg 25 16 → s.power.state = 1 ∨ s.power.state = 2 →
        t.power.state = 5 ∧ t.regF 0 Reg.pwrState 3 0 = 2) ∧
      (s.regF 0 Reg.wakeCfg 25 16 ≤ inlet → t.power = { s.power with inlet := inlet })) ∧
  ∀ s : State, (s.power.state ≠ 5 → exec .wakeComplete s = .next s) ∧
    (s.power.state = 5 → s.power.leaving = 2 → s.locked = false → exec .wakeComplete s = .next s) ∧
    (s.power.state = 5 → s.power.leaving ≠ 2 ∨ (s.locked = true ∧ s.held = []) → ∃ t, exec .wakeComplete s = .next t ∧
      t.power.state = 0 ∧ (s.colls = [] → s.remotes = [] → t.hbm.selfRefresh = false ∧ t.hull = s.hull))

/-- R45 to R47, R480, R483 to R485, R491 to R499, R514, R517, R525: the start and the resets. That a start is one command whose
operand reports what the world outside shows it is the model's reading (log entries 3, 4, 89, 91 and 129). -/
def Obligations.StartAndResets : Prop :=
  (∀ s : State,
    (∃ t, exec .inrushLimitEnd s = .next t ∧ t = { s with power := { s.power with inrush := false } }) ∧
    (∃ t, exec .modResetAssert s = .next t ∧ t.boot.phase = .coldHeld ∧ t.boot.cause = 2 ∧ t.boot.pinReset = true ∧
      t.hbm.cells = {} ∧ t.hull = {} ∧ t.entries = [] ∧ t.facets = [] ∧ t.locusOpen = false ∧ t.store.gens = s.store.gens ∧
      t.store.areaA = s.store.areaA ∧ t.store.areaB = s.store.areaB ∧ t.boot.flash = s.boot.flash ∧ t.retired = s.store.areaA.retired ∧
      t.store.bad = s.store.areaA.bad ∧ t.life.live = s.store.areaA.life ∧ t.boot.rollback = s.store.areaA.rollback) ∧
    (s.boot.phase = .coldHeld → (∀ cmd ∈ [Instr.supplyFirst47v, .modResetRelease],
        (cmd = .supplyFirst47v → s.boot.pinReset = false) → (cmd = .modResetRelease → s.boot.seen47 = true) →
        ∃ t, exec cmd s = .next t ∧ t.boot.phase = .starting ∧ t.boot.warm = false ∧
          t.reg 0 Reg.resetCause = BitVec.ofNat 32 (s.boot.cause * 256 + 2)) ∧
      (s.boot.pinReset = true → ∃ t, exec .supplyFirst47v s = .next t ∧ t.boot.phase = .coldHeld ∧ t.boot.seen47 = true) ∧
      (s.boot.seen47 = false → ∃ t, exec .modResetRelease s = .next t ∧ t.boot.phase = .coldHeld)) ∧
    (s.boot.pinPerst = true → exec .hostPerstAssert s = .next s) ∧
    (s.boot.pinPerst = false → s.boot.phase = .running → s.boot.opened = true → s.side.cxlL2 = false → s.side.awaitCxl = false →
      ∃ t, exec .hostPerstAssert s = .next t ∧ t.side.cxlUp = false ∧ t.boot.pinPerst = true ∧ t.boot.phase = .warmEntry ∧
        t.boot.cause = 4 ∧ t.entries = [] ∧ t.locusOpen = false) ∧
    (s.boot.pinPerst = false → s.boot.opened = false ∨ s.side.cxlL2 = true ∨ s.side.awaitCxl = true → ∃ t, exec .hostPerstAssert s = .next t ∧
      t.side.cxlUp = false ∧ t.boot = { s.boot with pinPerst := true } ∧ t.fns = s.fns) ∧
    (∃ t, exec .hostPerstRelease s = .next t ∧ t.boot.pinPerst = false ∧ (s.boot.phase = .warmHeld → t.boot.phase = .starting ∧
      t.boot.warm = true ∧ t.reg 0 Reg.resetCause = BitVec.ofNat 32 (s.boot.cause * 256 + 1))) ∧
    (s.boot.phase ≠ .warmEntry → exec .warmEntryComplete s = .next s) ∧
    (s.boot.phase = .warmEntry → ∃ t : State, exec .warmEntryComplete s = .next t ∧ t.hull.data = {} ∧ t.hull.fills = [] ∧
      ((s.hull.sets.map (·.1)).Nodup → ∀ (k i : Nat) (w : Way), (t.set k)[i]? = some w → w.valid = 0 ∧ w.filling = false ∧ w.cls ≠ 3 ∧
        (w.off = true ↔ ∃ v : Way, (s.set k)[i]? = some v ∧ v.off = true)) ∧ t.reqs = [] ∧ t.decisions = [] ∧
      t.held = [] ∧ (∀ j ≤ 16, t.regF j Reg.memState 31 31 = 1) ∧ t.boot.phase = (if s.boot.pinPerst then .warmHeld else .starting) ∧
      ∀ j a r, j ≤ 16 → regSpec? j a = some r → r.kind ≠ .cold → r.rws = 0 → a ≠ Reg.memState → (j = 0 → a ≠ Reg.resetCause) →
        t.reg j a = r.reset)) ∧
  (∀ (s : State) (x : StartReport), s.held = [] →
    (s.boot.phase ≠ .starting ∨ s.power.xtalOk = false ∨ s.power.originLock ≠ 0x3F → exec (.startComplete x) s = .next s) ∧
    (s.boot.phase = .starting → s.power.xtalOk = true → s.power.originLock = 0x3F → s.boot.warm = false →
      let p := s.boot.flash.preferred
      let bad (n : Nat) : Prop := s.boot.checkSlot s.boot.flash n ≠ 0
      let record := s.boot.fillCache.checkRecord
      let seed := ({ s.boot.fillCache with puf := x.puf } : Boot).seed
      ((bad p ∧ bad (1 - p)) ∨ record ≠ 0 → ∃ t, exec (.startComplete x) s = .next t ∧ t.boot.phase = .recovery ∧ t.boot.mpUp = true ∧
        t.locusOpen = s.locusOpen) ∧
      (¬ bad p ∨ ¬ bad (1 - p) → record = 0 → x.badStacks = [] → x.badDies = [] →
        ∃ t, exec (.startComplete x) s = .next t ∧ t.boot.phase = .running ∧ t.locusOpen = true ∧ t.boot.mpUp = true ∧
          t.boot.ppUp = true ∧ t.boot.spUp = true ∧ t.boot.sealed = true ∧
          (¬ bad p → t.boot.active = p) ∧ (bad p → t.boot.active = 1 - p ∧ (t.reg 0 Reg.fwStatus).getLsbD 26 = true) ∧
          t.defects = (Config.recordFacets (s.boot.flash.region .record)).filter (fun f => decide (f < 208)) ∧
          (t.boot.identityKey = none ↔ t.boot.identity = 2) ∧ (seed = none → t.boot.identity = 2) ∧
          (∀ k w, seed = some k → s.store.areaA.key = some w → t.boot.identityKey = Config.keyUnwrap (kek k) w) ∧
          (∀ k, seed = some k → s.store.areaA.key = none → t.boot.identity = 1 ∧
            ∃ y, t.boot.identityKey = some y ∧ t.store.areaA.key = some (Config.keyWrap (kek k) y)) ∧
          ∀ n < 4, ∀ i < 48, t.positions[48 * n + i]? = some (((List.range 52).map (52 * n + ·)).filter
            (fun f => !t.defects.contains f && !t.retired.contains f))[i]?)) ∧
    (s.boot.phase = .starting → s.power.xtalOk = true → s.power.originLock = 0x3F → s.boot.warm = true →
      (s.pairedMode = true → s.power.islandLock ≠ 0x3FF → exec (.startComplete x) s = .next s) ∧
      (s.pairedMode = false ∨ s.power.islandLock = 0x3FF → let p := s.boot.active
        let bad (n : Nat) : Prop := s.boot.checkSlot s.boot.images n ≠ 0
        let runs := s.cacheMatches = true ∧ s.positions ≠ []
        (¬ runs → ∃ t, exec (.startComplete x) s = .next t ∧ t.boot.phase = .stopped ∧ t.alertN = true ∧
          (t.reg 0 Reg.fwStatus).getLsbD 21 = true) ∧
        (runs → (bad p ∧ bad (1 - p)) ∨ s.boot.checkRecord ≠ 0 → ∃ t, exec (.startComplete x) s = .next t ∧ t.boot.phase = .recovery ∧
          t.boot.mpUp = true ∧ t.locusOpen = s.locusOpen) ∧
        (runs → ¬ bad p ∨ ¬ bad (1 - p) → s.boot.checkRecord = 0 →
          (x.badStacks = [] → x.badDies = [] → ∃ t, exec (.startComplete x) s = .next t ∧ t.boot.phase = .running ∧ t.locusOpen = true ∧
            t.boot.sealed = true ∧ t.boot.mpUp = true ∧ (¬ bad p → t.boot.active = p) ∧ (bad p → t.boot.active = 1 - p)) ∧
          (x.badStacks ≠ [] ∨ x.badDies ≠ [] → (s.reg 0 Reg.modes).getLsbD 5 = false → ∃ t, exec (.startComplete x) s = .next t ∧
            t.boot.faultDue = true ∧ t.locusOpen = s.locusOpen))))) ∧
  (∀ (s : State) (proc kind : Nat), proc < 3 →
    (s.boot.up proc = false → exec (.procCrash proc kind) s = .next s) ∧
    (s.boot.up proc = true → ∃ t, exec (.procCrash proc kind) s = .next t ∧ t.boot.up proc = false ∧
      t.boot.crashAt = s.boot.crashAt ++ [(proc, s.now)] ∧ (proc = 0 → t.boot.identityKey = none) ∧ t.hbm = s.hbm ∧ t.hull = s.hull ∧
      t.regF 0 Reg.procStatus (23 - 8 * proc) (16 - 8 * proc) = min 255 (s.regF 0 Reg.procStatus (23 - 8 * proc) (16 - 8 * proc) + 1)) ∧
    ((∀ e ∈ s.boot.crashAt, e.1 ≠ proc) → exec (.procRestart proc) s = .next s ∧ exec (.procRestartTimeout proc) s = .next s) ∧
    (s.power.state = 2 → proc ≠ 1 → exec (.procRestart proc) s = .next s) ∧
    (∀ at', (proc, at') ∈ s.boot.crashAt → s.power.state ≠ 2 ∨ proc = 1 →
      (s.imageIntact proc = true → s.held = [] → ∃ t, exec (.procRestart proc) s = .next t ∧ t.boot.up proc = true ∧
        (∀ e ∈ t.boot.crashAt, e.1 ≠ proc) ∧ proc ∉ t.boot.tardy ∧
        (proc = 0 → t.boot.identityKey = s.boot.identityOf s.store.areaA.key)) ∧
      (s.imageIntact proc = false → ∃ t, exec (.procRestart proc) s = .next t ∧ (t.reg 0 Reg.fwStatus).getLsbD 21 = true ∧ t.boot = s.boot)) ∧
    (∀ at', (proc, at') ∈ s.boot.crashAt → at' + [7500000, 1250000, 12500000].getD proc 0 ≤ s.now → proc ∉ s.boot.tardy →
      ∃ t, exec (.procRestartTimeout proc) s = .next t ∧ t.boot.tardy = s.boot.tardy ++ [proc] ∧ t.alertN = true)) ∧
  ∀ s : State, s.windowOpen 0 → s.boot.phase = .running →
    (∃ t, exec .resetCtrlWarm s = .next t ∧ t.boot.phase = .warmEntry ∧ t.boot.cause = 5 ∧ t.entries = [] ∧ t.hbm = s.hbm) ∧
    (3 ∈ s.power.holds ∨ 4 ∈ s.power.holds → exec .resetCtrlCold s = .next s) ∧
    (3 ∉ s.power.holds → 4 ∉ s.power.holds → ∃ t, exec .resetCtrlCold s = .next t ∧ t.boot.cause = 5 ∧ t.hbm.cells = {} ∧
      t.boot.phase = (if s.boot.seen47 && !s.boot.pinReset then .starting else .coldHeld)) ∧
    (∀ die mm, die < 4 → mm < 52 → ∃ t, exec (.resetCtrlFacet die mm) s = .next t ∧
      (t.facet (52 * die + mm)).groups = [] ∧ (t.facet (52 * die + mm)).blocks = [] ∧ (t.facet (52 * die + mm)).code = {} ∧
      ((s.ownerOf (52 * die + mm)).isSome = true → (t.facet (52 * die + mm)).cleared = true) ∧
      ∀ k, k ≠ 52 * die + mm → t.facet k = s.facet k) ∧
    ∀ p < 36, ∃ t, exec (.resetCtrlPort p) s = .next t ∧ t.port p = { trainDue := true } ∧ ∀ k, k ≠ p → t.port k = s.port k

/-- R487 to R491, R494, R501 to R504, R506: firmware. STAGE copies, checks and programs the inactive slot; ACTIVATE starts a handover
whose phases end in the new images being active and answering; COMMIT_SVN raises the counters to the SVNs in force; recovery mode loads a
slot through FW_DATA. BUSY shows whether a command runs. Which result is given when several checks fail, the steps of a handover, and
that a stage waits for a handover, are the model's reading (log entries 87, 88 and 98). -/
def Obligations.FirmwareCommands : Prop :=
  (∀ (s : State) (slot : Nat), slot < 2 → s.windowOpen 0 → s.boot.phase = .running →
    (s.boot.staging.isSome = true ∨ s.boot.phaseNo ≠ 0 → exec (.fwStage slot) s = .next s) ∧
    (s.boot.staging = none → s.boot.phaseNo = 0 → let base := (s.reg 0 Reg.fwStageAddr).toNat * 65536
      let len := (s.reg 0 Reg.fwStageLen).toNat
      let fits := len ≤ 62914560 ∧ base + len ≤ reservedBase ∧ ∀ j ∈ s.tenants, ∀ r ∈ s.regions j,
        base + len ≤ r.dbase ∨ r.dbase + r.len ≤ base
      ∃ t, exec (.fwStage slot) s = .next t ∧
        (slot = s.boot.active → t.regF 0 Reg.fwResult 7 0 = 0x13 ∧ t.boot = s.boot) ∧
        (slot ≠ s.boot.active → ¬ fits → t.regF 0 Reg.fwResult 7 0 = 0x1A ∧ t.boot = s.boot) ∧
        (slot ≠ s.boot.active → fits → t.boot = { s.boot with staging := some (slot, base, len) } ∧
          (t.readWindow 0 Reg.fwResult).getLsbD 31 = true))) ∧
  (∀ (s : State), (s.boot.staging = none ∨ s.mpRuns = false ∨ s.boot.phaseNo ≠ 0 → exec .fwStageComplete s = .next s) ∧
    ∀ slot base len, s.boot.staging = some (slot, base, len) → s.mpRuns = true → s.boot.phaseNo = 0 →
      (slot = s.boot.active → ∃ t, exec .fwStageComplete s = .next t ∧ t.regF 0 Reg.fwResult 7 0 = 0x13 ∧
        t.boot = { s.boot with staging := none }) ∧
      (slot ≠ s.boot.active → s.agentGate base len false = none →
        let image := (s.agentRead base len).2.1
        let lost := (s.agentRead base len).2.2 ≠ []
        let code := s.boot.checkImage image
        ∃ t, exec .fwStageComplete s = .next t ∧ t.boot.staging = none ∧ t.boot.active = s.boot.active ∧
          (t.readWindow 0 Reg.fwResult).getLsbD 31 = !s.boot.svnWanted.isEmpty ∧
          (lost ∨ code ≠ 0 → t.regF 0 Reg.fwResult 7 0 = (if (s.agentRead base len).2.2 = [] then code % 256 else 0x10) ∧
            t.boot = { s.boot with staging := none }) ∧
          (¬ lost → code = 0 → t.regF 0 Reg.fwResult 7 0 = 1 ∧ t.boot.flash.slotBytes slot = image ∧
            t.boot.images.slotBytes slot = image ∧ t.boot.staged = some slot ∧ t.boot.flash.headers = s.boot.flash.headers ∧
            ∀ k, k ≠ slot → t.boot.flash.slotBytes k = s.boot.flash.slotBytes k))) ∧
  (∀ (s : State), s.windowOpen 0 → s.boot.phase = .running →
    (∃ t, exec .fwActivate s = .next t ∧
      (s.power.emergency = true → t.regF 0 Reg.fwResult 7 0 = 0x14 ∧ t.boot = s.boot) ∧
      (s.power.emergency = false → s.boot.staged = none → t.regF 0 Reg.fwResult 7 0 = 0x15 ∧ t.boot = s.boot) ∧
      (s.power.emergency = false → s.boot.staged ≠ none → s.boot.phaseNo ≠ 0 → t.regF 0 Reg.fwResult 7 0 = 0x16 ∧ t.boot = s.boot) ∧
      (s.power.emergency = false → s.boot.staged ≠ none → s.boot.phaseNo = 0 → s.boot.ppUp = false ∨ s.boot.spUp = false →
        t.regF 0 Reg.fwResult 7 0 = 0x17 ∧ t.boot = s.boot) ∧
      (s.power.emergency = false → s.boot.staged ≠ none → s.boot.phaseNo = 0 → s.boot.ppUp = true → s.boot.spUp = true →
        t.boot = { s.boot with phaseNo := 1 } ∧ (t.readWindow 0 Reg.fwResult).getLsbD 31 = true)) ∧
    (s.boot.busy = true → exec .fwCommitSvn s = .next s) ∧
    (s.boot.busy = false → ∃ t, exec .fwCommitSvn s = .next t ∧
      (s.spRuns = true → t.regF 0 Reg.fwResult 7 0 = 3 ∧ (∀ e ∈ s.boot.svns, t.boot.counter e.1 = max (s.boot.counter e.1) e.2 ∧
          (s.boot.counter e.1 < e.2 → t.store.areaA.rollback = t.boot.rollback ∧ t.store.areaB.rollback = t.boot.rollback)) ∧
        ∀ k, (∀ e ∈ s.boot.svns, e.1 ≠ k) → t.boot.counter k = s.boot.counter k) ∧
      (s.spRuns = false → t.boot = { s.boot with svnWanted := s.boot.svns } ∧ (t.readWindow 0 Reg.fwResult).getLsbD 31 = true))) ∧
  (∀ s : State, let b := s.boot
    (b.phaseNo = 0 ∨ s.ioClocked 0 = false ∨ s.ioClocked 1 = false → exec .handoverPhaseDone s = .next s) ∧
    (s.ioClocked 0 = true → s.ioClocked 1 = true →
      (b.phaseNo = 1 → b.mpUp = true → b.ppUp = true → b.spUp = true → ∃ t, exec .handoverPhaseDone s = .next t ∧
        t.boot = { b with phaseNo := 2, committed := true }) ∧
      (b.phaseNo = 1 → b.mpUp = false ∨ b.ppUp = false ∨ b.spUp = false → exec .handoverPhaseDone s = .next s) ∧
      (b.phaseNo = 2 → exec .handoverPhaseDone s = .next { s with boot := { b with phaseNo := 3 } }) ∧
      (b.phaseNo = 3 → ∀ n, b.staged = some n → exec .handoverPhaseDone s =
        .next (State.mpReturns { s with boot := { b with phaseNo := 4, active := n } })) ∧
      (b.phaseNo = 4 → ∀ x y, b.flash.headers = [x, y] → x.rank < 2 ^ 32 → y.rank < 2 ^ 32 → ∃ t, exec .handoverPhaseDone s = .next t ∧
        t.boot.phaseNo = 5 ∧ t.boot.flash.preferred = b.active ∧ t.boot.flash.slots = b.flash.slots ∧
        (y ∈ t.boot.flash.headers ∨ x ∈ t.boot.flash.headers)) ∧
      (b.phaseNo = 5 → ∃ t, exec .handoverPhaseDone s = .next t ∧ t.regF 0 Reg.fwResult 7 0 = 2 ∧
        t.boot = { b with phaseNo := 0, committed := false, staged := none, activations := b.activations + 1 }))) ∧
  ∀ (s : State), s.windowOpen 0 → s.boot.phase = .recovery →
    (∀ slot < 2, ∃ t, exec (.fwRecoveryBegin slot) s = .next t ∧ t.boot.recoverySlot = some slot ∧ t.boot.flash.slotBytes slot = []) ∧
    (∀ n v, s.boot.recoverySlot = some n → s.boot.recoveryData.length < 62914560 → ∃ t, exec (.fwDataWrite v) s = .next t ∧
      t.boot.flash.slotBytes n = s.boot.recoveryData ++ leBytes 4 v.toNat ∧ t.boot.recoveryData = s.boot.recoveryData ++ leBytes 4 v.toNat) ∧
    ∀ n, s.boot.recoverySlot = some n → ∃ t, exec .fwRecoveryEnd s = .next t ∧ t.boot.recoverySlot = none ∧
      t.boot.flash = s.boot.flash ∧
      t.regF 0 Reg.fwResult 7 0 = if s.boot.checkSlot s.boot.flash n = 0 then 4 else s.boot.checkSlot s.boot.flash n % 256

/-- With no command waiting, a step is one cycle of the always-on clock: time and the uptime counter advance, the outage
counter with them while the module is unavailable, and no command's effect happens. The step itself is the model's choice (log
entry 2). -/
def Obligations.IdleStepIsOneCycle : Prop :=
  ∀ s : State, s.pending = [] → tableWf 64 s.life.live = true → (tget s.life.live 0x110).toNat < 2 ^ 64 - 1 →
    ∃ t, step s = .next t ∧ t.now = s.now + 1 ∧ (tget t.life.live 0x110).toNat = (tget s.life.live 0x110).toNat + 1 ∧
      t.reg 0 Reg.avail = (if s.unavailable then addCount (s.reg 0 Reg.avail) 31 0 1 else s.reg 0 Reg.avail) ∧
      t.pending = [] ∧ t.hbm = s.hbm ∧ t.hull = s.hull ∧ t.reqs = s.reqs ∧ t.entries = s.entries ∧ t.power = s.power ∧
      t.boot = s.boot ∧ t.store = s.store ∧
      ∀ f slot g, s.group? f slot = some g → ∃ h, t.group? f slot = some h ∧ h.v = g.v ∧ h.u = g.u ∧ h.p = g.p ∧ h.pc = g.pc

/-- The memories and tables of the block after reset are in canonical form: the HBM, the Hull, the code stores, the OPC, the registers,
the lifetime counters and the store's counts. What memory reads as before anything is written is the model's choice (log entry 101). -/
def Obligations.ResetMemoryWf : Prop :=
  State.reset.memoryWf = true

/-- Every command keeps the memories and tables of the block in canonical form (the HBM, the Hull, the code stores, the OPC, the
registers, the lifetime counters and the store's counts), from every state whose memories and tables are. -/
def Obligations.MemoryInvariant : Prop :=
  ∀ s t : State, s.memoryWf = true → step s = .next t → t.memoryWf = true
end

