-- ==== Sys2Proof/Laws/Tables.lean ====
section
/-! SUPPORT. Sparse tables and keyed lists: reading back what was written, and that a write keeps the canonical form. -/

namespace Sys2Proof.Laws

open Sys2Proof.Machine

/-- A table whose indices all lie above a bound. -/
def Above (k : Nat) (t : Cells w) : Prop := ∀ e ∈ t, k < e.1

theorem tableWf_cons (i : Nat) (x : BitVec w) (t : Cells w) :
    tableWf w ((i, x) :: t) = true ↔ x ≠ 0 ∧ Above i t ∧ tableWf w t = true := by
  induction t generalizing i x with
  | nil => simp [tableWf, Above]
  | cons e t ih =>
    obtain ⟨j, y⟩ := e
    rw [tableWf, Bool.and_eq_true, Bool.and_eq_true, ih]
    simp only [Above, List.mem_cons, forall_eq_or_imp, bne_iff_ne, decide_eq_true_eq]
    constructor
    · rintro ⟨⟨hx, hij⟩, hy, ha, ht⟩
      exact ⟨hx, ⟨hij, fun e he => Nat.lt_trans hij (ha e he)⟩, hy, ha, ht⟩
    · rintro ⟨hx, ⟨hij, -⟩, hy, ha, ht⟩
      exact ⟨⟨hx, hij⟩, hy, ha, ht⟩

theorem tget_of_above {t : Cells w} {k i : Nat} (h : Above k t) (hi : i ≤ k) : tget t i = 0 := by
  cases t with
  | nil => rfl
  | cons e t =>
    obtain ⟨j, x⟩ := e
    have hj : k < j := h (j, x) (by simp)
    simp [tget, show i ≠ j by omega, show i < j by omega]

theorem above_tset {t : Cells w} {k i : Nat} {v : BitVec w} (h : Above k t) (hi : k < i) : Above k (tset t i v) := by
  induction t with
  | nil => unfold tset; split <;> simp [Above, hi]
  | cons e t ih =>
    obtain ⟨j, x⟩ := e
    have hj : k < j := h (j, x) (by simp)
    have ht : Above k t := fun e he => h e (by simp [he])
    unfold tset
    split
    · split
      · exact h
      · intro e he; simp only [List.mem_cons] at he; rcases he with rfl | rfl | he
        · exact hi
        · exact hj
        · exact ht e he
    · split
      · split
        · exact ht
        · intro e he; simp only [List.mem_cons] at he; rcases he with rfl | he
          · exact hi
          · exact ht e he
      · intro e he; simp only [List.mem_cons] at he; rcases he with rfl | he
        · exact hj
        · exact ih ht e he

/-- A write keeps the canonical form. -/
theorem tableWf_tset {t : Cells w} (i : Nat) (v : BitVec w) (h : tableWf w t = true) : tableWf w (tset t i v) = true := by
  induction t with
  | nil => unfold tset; split <;> simp_all [tableWf]
  | cons e t ih =>
    obtain ⟨j, x⟩ := e
    obtain ⟨hx, ha, ht⟩ := (tableWf_cons j x t).1 h
    unfold tset
    split
    · rename_i hij
      split
      · exact h
      · rename_i hv
        refine (tableWf_cons _ _ _).2 ⟨hv, ?_, h⟩
        intro e he; simp only [List.mem_cons] at he; rcases he with rfl | he
        · exact hij
        · exact Nat.lt_trans hij (ha e he)
    · split
      · rename_i hij; subst hij
        split
        · exact ht
        · rename_i hv; exact (tableWf_cons _ _ _).2 ⟨hv, ha, ht⟩
      · exact (tableWf_cons _ _ _).2 ⟨hx, above_tset ha (by omega), ih ht⟩

/-- Reading a canonical table after a write. -/
theorem tget_tset {t : Cells w} (i k : Nat) (v : BitVec w) (h : tableWf w t = true) :
    tget (tset t i v) k = if k = i then v else tget t k := by
  induction t with
  | nil =>
    unfold tset
    split
    · rename_i hv; simp [tget, hv]
    · simp only [tget]
      split
      · rfl
      · split <;> rfl
  | cons e t ih =>
    obtain ⟨j, x⟩ := e
    obtain ⟨hx, ha, ht⟩ := (tableWf_cons j x t).1 h
    unfold tset
    split
    · rename_i hij
      split
      · rename_i hv
        by_cases hk : k = i
        · subst hk; simp [tget, hv, show k ≠ j by omega, hij]
        · simp [hk]
      · by_cases hk : k = i
        · simp [tget, hk]
        · by_cases hki : k < i
          · simp [tget, hk, hki, show k ≠ j by omega, show k < j by omega]
          · simp [tget, hk, hki]
    · split
      · rename_i hij; subst hij
        split
        · rename_i hv
          by_cases hk : k = i
          · subst hk; simp [hv, tget_of_above ha (Nat.le_refl k)]
          · by_cases hki : k < i
            · simp [tget, hk, hki, tget_of_above ha (Nat.le_of_lt hki)]
            · simp [tget, hk, hki]
        · by_cases hk : k = i
          · simp [tget, hk]
          · simp [tget, hk]
      · rename_i h1 h2
        by_cases hk : k = j
        · subst hk; simp [tget, show k ≠ i by omega]
        · by_cases hkj : k < j
          · simp [tget, hk, hkj, show k ≠ i by omega]
          · simp only [tget, hk, hkj, if_false]
            exact ih ht

/-- A filter keeps the canonical form. -/
theorem tableWf_filter {t : Cells w} (p : Nat × BitVec w → Bool) (h : tableWf w t = true) : tableWf w (t.filter p) = true := by
  induction t with
  | nil => rfl
  | cons e t ih =>
    obtain ⟨j, x⟩ := e
    obtain ⟨hx, ha, ht⟩ := (tableWf_cons j x t).1 h
    rw [List.filter_cons]
    split
    · exact (tableWf_cons _ _ _).2 ⟨hx, fun e he => ha e (List.mem_of_mem_filter he), ih ht⟩
    · exact ih ht

/-- What a keyed list gives after `aput`. -/
theorem aget_aput (l : List (Nat × α)) (i k : Nat) (v : α) (h : (l.map (·.1)).Pairwise (· < ·)) :
    aget? (aput l i v) k = if k = i then some v else aget? l k := by
  induction l with
  | nil => simp only [aput, aget?]
  | cons e t ih =>
    obtain ⟨j, x⟩ := e
    simp only [List.map_cons, List.pairwise_cons] at h
    unfold aput
    split
    · by_cases hk : k = i
      · simp [aget?, hk]
      · simp [aget?, hk]
    · split
      · rename_i hij; subst hij
        by_cases hk : k = i
        · simp [aget?, hk]
        · simp [aget?, hk]
      · rename_i h1 h2
        by_cases hk : k = j
        · subst hk; simp [aget?, Ne.symm h2]
        · simp only [aget?, hk, if_false]
          exact ih h.2

/-- The same entry comes back whatever the list. -/
@[simp] theorem aget_aput_self (l : List (Nat × α)) (i : Nat) (v : α) : aget? (aput l i v) i = some v := by
  induction l with
  | nil => simp [aput, aget?]
  | cons e t ih =>
    obtain ⟨j, x⟩ := e
    unfold aput
    split
    · simp [aget?]
    · split
      · simp [aget?]
      · rename_i h1 h2; simp [aget?, h2, ih]

/-- Another entry is untouched whatever the list. -/
theorem aget_aput_ne (l : List (Nat × α)) {i k : Nat} (v : α) (hk : k ≠ i) : aget? (aput l i v) k = aget? l k := by
  induction l with
  | nil => simp [aput, aget?, hk]
  | cons e t ih =>
    obtain ⟨j, x⟩ := e
    unfold aput
    split
    · simp [aget?, hk]
    · split
      · rename_i hij; subst hij; simp [aget?, hk]
      · by_cases hkj : k = j
        · subst hkj; simp [aget?]
        · simp only [aget?, hkj, if_false]; exact ih

@[simp] theorem agetD_aput_self (l : List (Nat × α)) (i : Nat) (v d : α) : agetD (aput l i v) i d = v := by
  simp [agetD]

theorem agetD_aput_ne (l : List (Nat × α)) {i k : Nat} (v d : α) (hk : k ≠ i) :
    agetD (aput l i v) k d = agetD l k d := by
  simp [agetD, aget_aput_ne l v hk]

end Sys2Proof.Laws
end

