-- ==== Sys2Proof/Laws/State.lean ====
section
/-! SUPPORT. State: what each named update leaves alone, one lemma for each field, and what it reads back as. -/

namespace Sys2Proof.Laws

open Sys2Proof.Machine

@[simp] theorem updFn_pending (s : State) (j : Nat) (f : Fn → Fn) : (s.updFn j f).pending = s.pending := rfl
@[simp] theorem updFn_now (s : State) (j : Nat) (f : Fn → Fn) : (s.updFn j f).now = s.now := rfl
@[simp] theorem updFn_freeCtr (s : State) (j : Nat) (f : Fn → Fn) : (s.updFn j f).freeCtr = s.freeCtr := rfl
@[simp] theorem updFn_nextId (s : State) (j : Nat) (f : Fn → Fn) : (s.updFn j f).nextId = s.nextId := rfl
@[simp] theorem updFn_positions (s : State) (j : Nat) (f : Fn → Fn) : (s.updFn j f).positions = s.positions := rfl
@[simp] theorem updFn_defects (s : State) (j : Nat) (f : Fn → Fn) : (s.updFn j f).defects = s.defects := rfl
@[simp] theorem updFn_retired (s : State) (j : Nat) (f : Fn → Fn) : (s.updFn j f).retired = s.retired := rfl
@[simp] theorem updFn_facets (s : State) (j : Nat) (f : Fn → Fn) : (s.updFn j f).facets = s.facets := rfl
@[simp] theorem updFn_reqs (s : State) (j : Nat) (f : Fn → Fn) : (s.updFn j f).reqs = s.reqs := rfl
@[simp] theorem updFn_hull (s : State) (j : Nat) (f : Fn → Fn) : (s.updFn j f).hull = s.hull := rfl
@[simp] theorem updFn_hbm (s : State) (j : Nat) (f : Fn → Fn) : (s.updFn j f).hbm = s.hbm := rfl
@[simp] theorem updFn_ports (s : State) (j : Nat) (f : Fn → Fn) : (s.updFn j f).ports = s.ports := rfl
@[simp] theorem updFn_egress (s : State) (j : Nat) (f : Fn → Fn) : (s.updFn j f).egress = s.egress := rfl
@[simp] theorem updFn_remotes (s : State) (j : Nat) (f : Fn → Fn) : (s.updFn j f).remotes = s.remotes := rfl
@[simp] theorem updFn_colls (s : State) (j : Nat) (f : Fn → Fn) : (s.updFn j f).colls = s.colls := rfl
@[simp] theorem updFn_groupsOf (s : State) (j : Nat) (f : Fn → Fn) : (s.updFn j f).groupsOf = s.groupsOf := rfl
@[simp] theorem updFn_held (s : State) (j : Nat) (f : Fn → Fn) : (s.updFn j f).held = s.held := rfl
@[simp] theorem updFn_entries (s : State) (j : Nat) (f : Fn → Fn) : (s.updFn j f).entries = s.entries := rfl
@[simp] theorem updFn_launches (s : State) (j : Nat) (f : Fn → Fn) : (s.updFn j f).launches = s.launches := rfl
@[simp] theorem updFn_loads (s : State) (j : Nat) (f : Fn → Fn) : (s.updFn j f).loads = s.loads := rfl
@[simp] theorem updFn_drains (s : State) (j : Nat) (f : Fn → Fn) : (s.updFn j f).drains = s.drains := rfl
@[simp] theorem updFn_decisions (s : State) (j : Nat) (f : Fn → Fn) : (s.updFn j f).decisions = s.decisions := rfl
@[simp] theorem updFn_store (s : State) (j : Nat) (f : Fn → Fn) : (s.updFn j f).store = s.store := rfl
@[simp] theorem updFn_power (s : State) (j : Nat) (f : Fn → Fn) : (s.updFn j f).power = s.power := rfl
@[simp] theorem updFn_boot (s : State) (j : Nat) (f : Fn → Fn) : (s.updFn j f).boot = s.boot := rfl
@[simp] theorem updFn_side (s : State) (j : Nat) (f : Fn → Fn) : (s.updFn j f).side = s.side := rfl
@[simp] theorem updFn_life (s : State) (j : Nat) (f : Fn → Fn) : (s.updFn j f).life = s.life := rfl
@[simp] theorem updFn_log (s : State) (j : Nat) (f : Fn → Fn) : (s.updFn j f).log = s.log := rfl
@[simp] theorem updFn_logSeq (s : State) (j : Nat) (f : Fn → Fn) : (s.updFn j f).logSeq = s.logSeq := rfl
@[simp] theorem updFn_locusOpen (s : State) (j : Nat) (f : Fn → Fn) : (s.updFn j f).locusOpen = s.locusOpen := rfl
@[simp] theorem updFn_out (s : State) (j : Nat) (f : Fn → Fn) : (s.updFn j f).out = s.out := rfl

@[simp] theorem setReg_pending (s : State) (j a : Nat) (v : Word) : (s.setReg j a v).pending = s.pending := rfl
@[simp] theorem setReg_now (s : State) (j a : Nat) (v : Word) : (s.setReg j a v).now = s.now := rfl
@[simp] theorem setReg_freeCtr (s : State) (j a : Nat) (v : Word) : (s.setReg j a v).freeCtr = s.freeCtr := rfl
@[simp] theorem setReg_nextId (s : State) (j a : Nat) (v : Word) : (s.setReg j a v).nextId = s.nextId := rfl
@[simp] theorem setReg_positions (s : State) (j a : Nat) (v : Word) : (s.setReg j a v).positions = s.positions := rfl
@[simp] theorem setReg_defects (s : State) (j a : Nat) (v : Word) : (s.setReg j a v).defects = s.defects := rfl
@[simp] theorem setReg_retired (s : State) (j a : Nat) (v : Word) : (s.setReg j a v).retired = s.retired := rfl
@[simp] theorem setReg_facets (s : State) (j a : Nat) (v : Word) : (s.setReg j a v).facets = s.facets := rfl
@[simp] theorem setReg_reqs (s : State) (j a : Nat) (v : Word) : (s.setReg j a v).reqs = s.reqs := rfl
@[simp] theorem setReg_hull (s : State) (j a : Nat) (v : Word) : (s.setReg j a v).hull = s.hull := rfl
@[simp] theorem setReg_hbm (s : State) (j a : Nat) (v : Word) : (s.setReg j a v).hbm = s.hbm := rfl
@[simp] theorem setReg_ports (s : State) (j a : Nat) (v : Word) : (s.setReg j a v).ports = s.ports := rfl
@[simp] theorem setReg_egress (s : State) (j a : Nat) (v : Word) : (s.setReg j a v).egress = s.egress := rfl
@[simp] theorem setReg_remotes (s : State) (j a : Nat) (v : Word) : (s.setReg j a v).remotes = s.remotes := rfl
@[simp] theorem setReg_colls (s : State) (j a : Nat) (v : Word) : (s.setReg j a v).colls = s.colls := rfl
@[simp] theorem setReg_groupsOf (s : State) (j a : Nat) (v : Word) : (s.setReg j a v).groupsOf = s.groupsOf := rfl
@[simp] theorem setReg_held (s : State) (j a : Nat) (v : Word) : (s.setReg j a v).held = s.held := rfl
@[simp] theorem setReg_entries (s : State) (j a : Nat) (v : Word) : (s.setReg j a v).entries = s.entries := rfl
@[simp] theorem setReg_launches (s : State) (j a : Nat) (v : Word) : (s.setReg j a v).launches = s.launches := rfl
@[simp] theorem setReg_loads (s : State) (j a : Nat) (v : Word) : (s.setReg j a v).loads = s.loads := rfl
@[simp] theorem setReg_drains (s : State) (j a : Nat) (v : Word) : (s.setReg j a v).drains = s.drains := rfl
@[simp] theorem setReg_decisions (s : State) (j a : Nat) (v : Word) : (s.setReg j a v).decisions = s.decisions := rfl
@[simp] theorem setReg_store (s : State) (j a : Nat) (v : Word) : (s.setReg j a v).store = s.store := rfl
@[simp] theorem setReg_power (s : State) (j a : Nat) (v : Word) : (s.setReg j a v).power = s.power := rfl
@[simp] theorem setReg_boot (s : State) (j a : Nat) (v : Word) : (s.setReg j a v).boot = s.boot := rfl
@[simp] theorem setReg_side (s : State) (j a : Nat) (v : Word) : (s.setReg j a v).side = s.side := rfl
@[simp] theorem setReg_life (s : State) (j a : Nat) (v : Word) : (s.setReg j a v).life = s.life := rfl
@[simp] theorem setReg_log (s : State) (j a : Nat) (v : Word) : (s.setReg j a v).log = s.log := rfl
@[simp] theorem setReg_logSeq (s : State) (j a : Nat) (v : Word) : (s.setReg j a v).logSeq = s.logSeq := rfl
@[simp] theorem setReg_locusOpen (s : State) (j a : Nat) (v : Word) : (s.setReg j a v).locusOpen = s.locusOpen := rfl
@[simp] theorem setReg_out (s : State) (j a : Nat) (v : Word) : (s.setReg j a v).out = s.out := rfl

@[simp] theorem setRegF_pending (s : State) (j a hi lo x : Nat) : (s.setRegF j a hi lo x).pending = s.pending := rfl
@[simp] theorem setRegF_now (s : State) (j a hi lo x : Nat) : (s.setRegF j a hi lo x).now = s.now := rfl
@[simp] theorem setRegF_freeCtr (s : State) (j a hi lo x : Nat) : (s.setRegF j a hi lo x).freeCtr = s.freeCtr := rfl
@[simp] theorem setRegF_nextId (s : State) (j a hi lo x : Nat) : (s.setRegF j a hi lo x).nextId = s.nextId := rfl
@[simp] theorem setRegF_positions (s : State) (j a hi lo x : Nat) : (s.setRegF j a hi lo x).positions = s.positions := rfl
@[simp] theorem setRegF_defects (s : State) (j a hi lo x : Nat) : (s.setRegF j a hi lo x).defects = s.defects := rfl
@[simp] theorem setRegF_retired (s : State) (j a hi lo x : Nat) : (s.setRegF j a hi lo x).retired = s.retired := rfl
@[simp] theorem setRegF_facets (s : State) (j a hi lo x : Nat) : (s.setRegF j a hi lo x).facets = s.facets := rfl
@[simp] theorem setRegF_reqs (s : State) (j a hi lo x : Nat) : (s.setRegF j a hi lo x).reqs = s.reqs := rfl
@[simp] theorem setRegF_hull (s : State) (j a hi lo x : Nat) : (s.setRegF j a hi lo x).hull = s.hull := rfl
@[simp] theorem setRegF_hbm (s : State) (j a hi lo x : Nat) : (s.setRegF j a hi lo x).hbm = s.hbm := rfl
@[simp] theorem setRegF_ports (s : State) (j a hi lo x : Nat) : (s.setRegF j a hi lo x).ports = s.ports := rfl
@[simp] theorem setRegF_egress (s : State) (j a hi lo x : Nat) : (s.setRegF j a hi lo x).egress = s.egress := rfl
@[simp] theorem setRegF_remotes (s : State) (j a hi lo x : Nat) : (s.setRegF j a hi lo x).remotes = s.remotes := rfl
@[simp] theorem setRegF_colls (s : State) (j a hi lo x : Nat) : (s.setRegF j a hi lo x).colls = s.colls := rfl
@[simp] theorem setRegF_groupsOf (s : State) (j a hi lo x : Nat) : (s.setRegF j a hi lo x).groupsOf = s.groupsOf := rfl
@[simp] theorem setRegF_held (s : State) (j a hi lo x : Nat) : (s.setRegF j a hi lo x).held = s.held := rfl
@[simp] theorem setRegF_entries (s : State) (j a hi lo x : Nat) : (s.setRegF j a hi lo x).entries = s.entries := rfl
@[simp] theorem setRegF_launches (s : State) (j a hi lo x : Nat) : (s.setRegF j a hi lo x).launches = s.launches := rfl
@[simp] theorem setRegF_loads (s : State) (j a hi lo x : Nat) : (s.setRegF j a hi lo x).loads = s.loads := rfl
@[simp] theorem setRegF_drains (s : State) (j a hi lo x : Nat) : (s.setRegF j a hi lo x).drains = s.drains := rfl
@[simp] theorem setRegF_decisions (s : State) (j a hi lo x : Nat) : (s.setRegF j a hi lo x).decisions = s.decisions := rfl
@[simp] theorem setRegF_store (s : State) (j a hi lo x : Nat) : (s.setRegF j a hi lo x).store = s.store := rfl
@[simp] theorem setRegF_power (s : State) (j a hi lo x : Nat) : (s.setRegF j a hi lo x).power = s.power := rfl
@[simp] theorem setRegF_boot (s : State) (j a hi lo x : Nat) : (s.setRegF j a hi lo x).boot = s.boot := rfl
@[simp] theorem setRegF_side (s : State) (j a hi lo x : Nat) : (s.setRegF j a hi lo x).side = s.side := rfl
@[simp] theorem setRegF_life (s : State) (j a hi lo x : Nat) : (s.setRegF j a hi lo x).life = s.life := rfl
@[simp] theorem setRegF_log (s : State) (j a hi lo x : Nat) : (s.setRegF j a hi lo x).log = s.log := rfl
@[simp] theorem setRegF_logSeq (s : State) (j a hi lo x : Nat) : (s.setRegF j a hi lo x).logSeq = s.logSeq := rfl
@[simp] theorem setRegF_locusOpen (s : State) (j a hi lo x : Nat) : (s.setRegF j a hi lo x).locusOpen = s.locusOpen := rfl
@[simp] theorem setRegF_out (s : State) (j a hi lo x : Nat) : (s.setRegF j a hi lo x).out = s.out := rfl

@[simp] theorem count_pending (s : State) (j a hi lo n : Nat) : (s.count j a hi lo n).pending = s.pending := rfl
@[simp] theorem count_now (s : State) (j a hi lo n : Nat) : (s.count j a hi lo n).now = s.now := rfl
@[simp] theorem count_freeCtr (s : State) (j a hi lo n : Nat) : (s.count j a hi lo n).freeCtr = s.freeCtr := rfl
@[simp] theorem count_nextId (s : State) (j a hi lo n : Nat) : (s.count j a hi lo n).nextId = s.nextId := rfl
@[simp] theorem count_positions (s : State) (j a hi lo n : Nat) : (s.count j a hi lo n).positions = s.positions := rfl
@[simp] theorem count_defects (s : State) (j a hi lo n : Nat) : (s.count j a hi lo n).defects = s.defects := rfl
@[simp] theorem count_retired (s : State) (j a hi lo n : Nat) : (s.count j a hi lo n).retired = s.retired := rfl
@[simp] theorem count_facets (s : State) (j a hi lo n : Nat) : (s.count j a hi lo n).facets = s.facets := rfl
@[simp] theorem count_reqs (s : State) (j a hi lo n : Nat) : (s.count j a hi lo n).reqs = s.reqs := rfl
@[simp] theorem count_hull (s : State) (j a hi lo n : Nat) : (s.count j a hi lo n).hull = s.hull := rfl
@[simp] theorem count_hbm (s : State) (j a hi lo n : Nat) : (s.count j a hi lo n).hbm = s.hbm := rfl
@[simp] theorem count_ports (s : State) (j a hi lo n : Nat) : (s.count j a hi lo n).ports = s.ports := rfl
@[simp] theorem count_egress (s : State) (j a hi lo n : Nat) : (s.count j a hi lo n).egress = s.egress := rfl
@[simp] theorem count_remotes (s : State) (j a hi lo n : Nat) : (s.count j a hi lo n).remotes = s.remotes := rfl
@[simp] theorem count_colls (s : State) (j a hi lo n : Nat) : (s.count j a hi lo n).colls = s.colls := rfl
@[simp] theorem count_groupsOf (s : State) (j a hi lo n : Nat) : (s.count j a hi lo n).groupsOf = s.groupsOf := rfl
@[simp] theorem count_held (s : State) (j a hi lo n : Nat) : (s.count j a hi lo n).held = s.held := rfl
@[simp] theorem count_entries (s : State) (j a hi lo n : Nat) : (s.count j a hi lo n).entries = s.entries := rfl
@[simp] theorem count_launches (s : State) (j a hi lo n : Nat) : (s.count j a hi lo n).launches = s.launches := rfl
@[simp] theorem count_loads (s : State) (j a hi lo n : Nat) : (s.count j a hi lo n).loads = s.loads := rfl
@[simp] theorem count_drains (s : State) (j a hi lo n : Nat) : (s.count j a hi lo n).drains = s.drains := rfl
@[simp] theorem count_decisions (s : State) (j a hi lo n : Nat) : (s.count j a hi lo n).decisions = s.decisions := rfl
@[simp] theorem count_store (s : State) (j a hi lo n : Nat) : (s.count j a hi lo n).store = s.store := rfl
@[simp] theorem count_power (s : State) (j a hi lo n : Nat) : (s.count j a hi lo n).power = s.power := rfl
@[simp] theorem count_boot (s : State) (j a hi lo n : Nat) : (s.count j a hi lo n).boot = s.boot := rfl
@[simp] theorem count_side (s : State) (j a hi lo n : Nat) : (s.count j a hi lo n).side = s.side := rfl
@[simp] theorem count_life (s : State) (j a hi lo n : Nat) : (s.count j a hi lo n).life = s.life := rfl
@[simp] theorem count_log (s : State) (j a hi lo n : Nat) : (s.count j a hi lo n).log = s.log := rfl
@[simp] theorem count_logSeq (s : State) (j a hi lo n : Nat) : (s.count j a hi lo n).logSeq = s.logSeq := rfl
@[simp] theorem count_locusOpen (s : State) (j a hi lo n : Nat) : (s.count j a hi lo n).locusOpen = s.locusOpen := rfl
@[simp] theorem count_out (s : State) (j a hi lo n : Nat) : (s.count j a hi lo n).out = s.out := rfl

@[simp] theorem updFacet_pending (s : State) (f : Nat) (h : Facet → Facet) : (s.updFacet f h).pending = s.pending := rfl
@[simp] theorem updFacet_now (s : State) (f : Nat) (h : Facet → Facet) : (s.updFacet f h).now = s.now := rfl
@[simp] theorem updFacet_freeCtr (s : State) (f : Nat) (h : Facet → Facet) : (s.updFacet f h).freeCtr = s.freeCtr := rfl
@[simp] theorem updFacet_nextId (s : State) (f : Nat) (h : Facet → Facet) : (s.updFacet f h).nextId = s.nextId := rfl
@[simp] theorem updFacet_positions (s : State) (f : Nat) (h : Facet → Facet) : (s.updFacet f h).positions = s.positions := rfl
@[simp] theorem updFacet_defects (s : State) (f : Nat) (h : Facet → Facet) : (s.updFacet f h).defects = s.defects := rfl
@[simp] theorem updFacet_retired (s : State) (f : Nat) (h : Facet → Facet) : (s.updFacet f h).retired = s.retired := rfl
@[simp] theorem updFacet_reqs (s : State) (f : Nat) (h : Facet → Facet) : (s.updFacet f h).reqs = s.reqs := rfl
@[simp] theorem updFacet_hull (s : State) (f : Nat) (h : Facet → Facet) : (s.updFacet f h).hull = s.hull := rfl
@[simp] theorem updFacet_hbm (s : State) (f : Nat) (h : Facet → Facet) : (s.updFacet f h).hbm = s.hbm := rfl
@[simp] theorem updFacet_ports (s : State) (f : Nat) (h : Facet → Facet) : (s.updFacet f h).ports = s.ports := rfl
@[simp] theorem updFacet_egress (s : State) (f : Nat) (h : Facet → Facet) : (s.updFacet f h).egress = s.egress := rfl
@[simp] theorem updFacet_remotes (s : State) (f : Nat) (h : Facet → Facet) : (s.updFacet f h).remotes = s.remotes := rfl
@[simp] theorem updFacet_colls (s : State) (f : Nat) (h : Facet → Facet) : (s.updFacet f h).colls = s.colls := rfl
@[simp] theorem updFacet_groupsOf (s : State) (f : Nat) (h : Facet → Facet) : (s.updFacet f h).groupsOf = s.groupsOf := rfl
@[simp] theorem updFacet_fns (s : State) (f : Nat) (h : Facet → Facet) : (s.updFacet f h).fns = s.fns := rfl
@[simp] theorem updFacet_held (s : State) (f : Nat) (h : Facet → Facet) : (s.updFacet f h).held = s.held := rfl
@[simp] theorem updFacet_entries (s : State) (f : Nat) (h : Facet → Facet) : (s.updFacet f h).entries = s.entries := rfl
@[simp] theorem updFacet_launches (s : State) (f : Nat) (h : Facet → Facet) : (s.updFacet f h).launches = s.launches := rfl
@[simp] theorem updFacet_loads (s : State) (f : Nat) (h : Facet → Facet) : (s.updFacet f h).loads = s.loads := rfl
@[simp] theorem updFacet_drains (s : State) (f : Nat) (h : Facet → Facet) : (s.updFacet f h).drains = s.drains := rfl
@[simp] theorem updFacet_decisions (s : State) (f : Nat) (h : Facet → Facet) : (s.updFacet f h).decisions = s.decisions := rfl
@[simp] theorem updFacet_store (s : State) (f : Nat) (h : Facet → Facet) : (s.updFacet f h).store = s.store := rfl
@[simp] theorem updFacet_power (s : State) (f : Nat) (h : Facet → Facet) : (s.updFacet f h).power = s.power := rfl
@[simp] theorem updFacet_boot (s : State) (f : Nat) (h : Facet → Facet) : (s.updFacet f h).boot = s.boot := rfl
@[simp] theorem updFacet_side (s : State) (f : Nat) (h : Facet → Facet) : (s.updFacet f h).side = s.side := rfl
@[simp] theorem updFacet_life (s : State) (f : Nat) (h : Facet → Facet) : (s.updFacet f h).life = s.life := rfl
@[simp] theorem updFacet_log (s : State) (f : Nat) (h : Facet → Facet) : (s.updFacet f h).log = s.log := rfl
@[simp] theorem updFacet_logSeq (s : State) (f : Nat) (h : Facet → Facet) : (s.updFacet f h).logSeq = s.logSeq := rfl
@[simp] theorem updFacet_locusOpen (s : State) (f : Nat) (h : Facet → Facet) : (s.updFacet f h).locusOpen = s.locusOpen := rfl
@[simp] theorem updFacet_out (s : State) (f : Nat) (h : Facet → Facet) : (s.updFacet f h).out = s.out := rfl

@[simp] theorem setGroup_pending (s : State) (f slot : Nat) (g : Group) : (s.setGroup f slot g).pending = s.pending := rfl
@[simp] theorem setGroup_now (s : State) (f slot : Nat) (g : Group) : (s.setGroup f slot g).now = s.now := rfl
@[simp] theorem setGroup_freeCtr (s : State) (f slot : Nat) (g : Group) : (s.setGroup f slot g).freeCtr = s.freeCtr := rfl
@[simp] theorem setGroup_nextId (s : State) (f slot : Nat) (g : Group) : (s.setGroup f slot g).nextId = s.nextId := rfl
@[simp] theorem setGroup_positions (s : State) (f slot : Nat) (g : Group) : (s.setGroup f slot g).positions = s.positions := rfl
@[simp] theorem setGroup_defects (s : State) (f slot : Nat) (g : Group) : (s.setGroup f slot g).defects = s.defects := rfl
@[simp] theorem setGroup_retired (s : State) (f slot : Nat) (g : Group) : (s.setGroup f slot g).retired = s.retired := rfl
@[simp] theorem setGroup_reqs (s : State) (f slot : Nat) (g : Group) : (s.setGroup f slot g).reqs = s.reqs := rfl
@[simp] theorem setGroup_hull (s : State) (f slot : Nat) (g : Group) : (s.setGroup f slot g).hull = s.hull := rfl
@[simp] theorem setGroup_hbm (s : State) (f slot : Nat) (g : Group) : (s.setGroup f slot g).hbm = s.hbm := rfl
@[simp] theorem setGroup_ports (s : State) (f slot : Nat) (g : Group) : (s.setGroup f slot g).ports = s.ports := rfl
@[simp] theorem setGroup_egress (s : State) (f slot : Nat) (g : Group) : (s.setGroup f slot g).egress = s.egress := rfl
@[simp] theorem setGroup_remotes (s : State) (f slot : Nat) (g : Group) : (s.setGroup f slot g).remotes = s.remotes := rfl
@[simp] theorem setGroup_colls (s : State) (f slot : Nat) (g : Group) : (s.setGroup f slot g).colls = s.colls := rfl
@[simp] theorem setGroup_groupsOf (s : State) (f slot : Nat) (g : Group) : (s.setGroup f slot g).groupsOf = s.groupsOf := rfl
@[simp] theorem setGroup_fns (s : State) (f slot : Nat) (g : Group) : (s.setGroup f slot g).fns = s.fns := rfl
@[simp] theorem setGroup_held (s : State) (f slot : Nat) (g : Group) : (s.setGroup f slot g).held = s.held := rfl
@[simp] theorem setGroup_entries (s : State) (f slot : Nat) (g : Group) : (s.setGroup f slot g).entries = s.entries := rfl
@[simp] theorem setGroup_launches (s : State) (f slot : Nat) (g : Group) : (s.setGroup f slot g).launches = s.launches := rfl
@[simp] theorem setGroup_loads (s : State) (f slot : Nat) (g : Group) : (s.setGroup f slot g).loads = s.loads := rfl
@[simp] theorem setGroup_drains (s : State) (f slot : Nat) (g : Group) : (s.setGroup f slot g).drains = s.drains := rfl
@[simp] theorem setGroup_decisions (s : State) (f slot : Nat) (g : Group) : (s.setGroup f slot g).decisions = s.decisions := rfl
@[simp] theorem setGroup_store (s : State) (f slot : Nat) (g : Group) : (s.setGroup f slot g).store = s.store := rfl
@[simp] theorem setGroup_power (s : State) (f slot : Nat) (g : Group) : (s.setGroup f slot g).power = s.power := rfl
@[simp] theorem setGroup_boot (s : State) (f slot : Nat) (g : Group) : (s.setGroup f slot g).boot = s.boot := rfl
@[simp] theorem setGroup_side (s : State) (f slot : Nat) (g : Group) : (s.setGroup f slot g).side = s.side := rfl
@[simp] theorem setGroup_life (s : State) (f slot : Nat) (g : Group) : (s.setGroup f slot g).life = s.life := rfl
@[simp] theorem setGroup_log (s : State) (f slot : Nat) (g : Group) : (s.setGroup f slot g).log = s.log := rfl
@[simp] theorem setGroup_logSeq (s : State) (f slot : Nat) (g : Group) : (s.setGroup f slot g).logSeq = s.logSeq := rfl
@[simp] theorem setGroup_locusOpen (s : State) (f slot : Nat) (g : Group) : (s.setGroup f slot g).locusOpen = s.locusOpen := rfl
@[simp] theorem setGroup_out (s : State) (f slot : Nat) (g : Group) : (s.setGroup f slot g).out = s.out := rfl

@[simp] theorem updPc_pending (s : State) (k : Nat) (f : PseudoChannel → PseudoChannel) : (s.updPc k f).pending = s.pending := rfl
@[simp] theorem updPc_now (s : State) (k : Nat) (f : PseudoChannel → PseudoChannel) : (s.updPc k f).now = s.now := rfl
@[simp] theorem updPc_freeCtr (s : State) (k : Nat) (f : PseudoChannel → PseudoChannel) : (s.updPc k f).freeCtr = s.freeCtr := rfl
@[simp] theorem updPc_nextId (s : State) (k : Nat) (f : PseudoChannel → PseudoChannel) : (s.updPc k f).nextId = s.nextId := rfl
@[simp] theorem updPc_positions (s : State) (k : Nat) (f : PseudoChannel → PseudoChannel) : (s.updPc k f).positions = s.positions := rfl
@[simp] theorem updPc_defects (s : State) (k : Nat) (f : PseudoChannel → PseudoChannel) : (s.updPc k f).defects = s.defects := rfl
@[simp] theorem updPc_retired (s : State) (k : Nat) (f : PseudoChannel → PseudoChannel) : (s.updPc k f).retired = s.retired := rfl
@[simp] theorem updPc_facets (s : State) (k : Nat) (f : PseudoChannel → PseudoChannel) : (s.updPc k f).facets = s.facets := rfl
@[simp] theorem updPc_reqs (s : State) (k : Nat) (f : PseudoChannel → PseudoChannel) : (s.updPc k f).reqs = s.reqs := rfl
@[simp] theorem updPc_hull (s : State) (k : Nat) (f : PseudoChannel → PseudoChannel) : (s.updPc k f).hull = s.hull := rfl
@[simp] theorem updPc_ports (s : State) (k : Nat) (f : PseudoChannel → PseudoChannel) : (s.updPc k f).ports = s.ports := rfl
@[simp] theorem updPc_egress (s : State) (k : Nat) (f : PseudoChannel → PseudoChannel) : (s.updPc k f).egress = s.egress := rfl
@[simp] theorem updPc_remotes (s : State) (k : Nat) (f : PseudoChannel → PseudoChannel) : (s.updPc k f).remotes = s.remotes := rfl
@[simp] theorem updPc_colls (s : State) (k : Nat) (f : PseudoChannel → PseudoChannel) : (s.updPc k f).colls = s.colls := rfl
@[simp] theorem updPc_groupsOf (s : State) (k : Nat) (f : PseudoChannel → PseudoChannel) : (s.updPc k f).groupsOf = s.groupsOf := rfl
@[simp] theorem updPc_fns (s : State) (k : Nat) (f : PseudoChannel → PseudoChannel) : (s.updPc k f).fns = s.fns := rfl
@[simp] theorem updPc_held (s : State) (k : Nat) (f : PseudoChannel → PseudoChannel) : (s.updPc k f).held = s.held := rfl
@[simp] theorem updPc_entries (s : State) (k : Nat) (f : PseudoChannel → PseudoChannel) : (s.updPc k f).entries = s.entries := rfl
@[simp] theorem updPc_launches (s : State) (k : Nat) (f : PseudoChannel → PseudoChannel) : (s.updPc k f).launches = s.launches := rfl
@[simp] theorem updPc_loads (s : State) (k : Nat) (f : PseudoChannel → PseudoChannel) : (s.updPc k f).loads = s.loads := rfl
@[simp] theorem updPc_drains (s : State) (k : Nat) (f : PseudoChannel → PseudoChannel) : (s.updPc k f).drains = s.drains := rfl
@[simp] theorem updPc_decisions (s : State) (k : Nat) (f : PseudoChannel → PseudoChannel) : (s.updPc k f).decisions = s.decisions := rfl
@[simp] theorem updPc_store (s : State) (k : Nat) (f : PseudoChannel → PseudoChannel) : (s.updPc k f).store = s.store := rfl
@[simp] theorem updPc_power (s : State) (k : Nat) (f : PseudoChannel → PseudoChannel) : (s.updPc k f).power = s.power := rfl
@[simp] theorem updPc_boot (s : State) (k : Nat) (f : PseudoChannel → PseudoChannel) : (s.updPc k f).boot = s.boot := rfl
@[simp] theorem updPc_side (s : State) (k : Nat) (f : PseudoChannel → PseudoChannel) : (s.updPc k f).side = s.side := rfl
@[simp] theorem updPc_life (s : State) (k : Nat) (f : PseudoChannel → PseudoChannel) : (s.updPc k f).life = s.life := rfl
@[simp] theorem updPc_log (s : State) (k : Nat) (f : PseudoChannel → PseudoChannel) : (s.updPc k f).log = s.log := rfl
@[simp] theorem updPc_logSeq (s : State) (k : Nat) (f : PseudoChannel → PseudoChannel) : (s.updPc k f).logSeq = s.logSeq := rfl
@[simp] theorem updPc_locusOpen (s : State) (k : Nat) (f : PseudoChannel → PseudoChannel) : (s.updPc k f).locusOpen = s.locusOpen := rfl
@[simp] theorem updPc_out (s : State) (k : Nat) (f : PseudoChannel → PseudoChannel) : (s.updPc k f).out = s.out := rfl

@[simp] theorem updPort_pending (s : State) (p : Nat) (f : Port → Port) : (s.updPort p f).pending = s.pending := rfl
@[simp] theorem updPort_now (s : State) (p : Nat) (f : Port → Port) : (s.updPort p f).now = s.now := rfl
@[simp] theorem updPort_freeCtr (s : State) (p : Nat) (f : Port → Port) : (s.updPort p f).freeCtr = s.freeCtr := rfl
@[simp] theorem updPort_nextId (s : State) (p : Nat) (f : Port → Port) : (s.updPort p f).nextId = s.nextId := rfl
@[simp] theorem updPort_positions (s : State) (p : Nat) (f : Port → Port) : (s.updPort p f).positions = s.positions := rfl
@[simp] theorem updPort_defects (s : State) (p : Nat) (f : Port → Port) : (s.updPort p f).defects = s.defects := rfl
@[simp] theorem updPort_retired (s : State) (p : Nat) (f : Port → Port) : (s.updPort p f).retired = s.retired := rfl
@[simp] theorem updPort_facets (s : State) (p : Nat) (f : Port → Port) : (s.updPort p f).facets = s.facets := rfl
@[simp] theorem updPort_reqs (s : State) (p : Nat) (f : Port → Port) : (s.updPort p f).reqs = s.reqs := rfl
@[simp] theorem updPort_hull (s : State) (p : Nat) (f : Port → Port) : (s.updPort p f).hull = s.hull := rfl
@[simp] theorem updPort_hbm (s : State) (p : Nat) (f : Port → Port) : (s.updPort p f).hbm = s.hbm := rfl
@[simp] theorem updPort_egress (s : State) (p : Nat) (f : Port → Port) : (s.updPort p f).egress = s.egress := rfl
@[simp] theorem updPort_remotes (s : State) (p : Nat) (f : Port → Port) : (s.updPort p f).remotes = s.remotes := rfl
@[simp] theorem updPort_colls (s : State) (p : Nat) (f : Port → Port) : (s.updPort p f).colls = s.colls := rfl
@[simp] theorem updPort_groupsOf (s : State) (p : Nat) (f : Port → Port) : (s.updPort p f).groupsOf = s.groupsOf := rfl
@[simp] theorem updPort_fns (s : State) (p : Nat) (f : Port → Port) : (s.updPort p f).fns = s.fns := rfl
@[simp] theorem updPort_held (s : State) (p : Nat) (f : Port → Port) : (s.updPort p f).held = s.held := rfl
@[simp] theorem updPort_entries (s : State) (p : Nat) (f : Port → Port) : (s.updPort p f).entries = s.entries := rfl
@[simp] theorem updPort_launches (s : State) (p : Nat) (f : Port → Port) : (s.updPort p f).launches = s.launches := rfl
@[simp] theorem updPort_loads (s : State) (p : Nat) (f : Port → Port) : (s.updPort p f).loads = s.loads := rfl
@[simp] theorem updPort_drains (s : State) (p : Nat) (f : Port → Port) : (s.updPort p f).drains = s.drains := rfl
@[simp] theorem updPort_decisions (s : State) (p : Nat) (f : Port → Port) : (s.updPort p f).decisions = s.decisions := rfl
@[simp] theorem updPort_store (s : State) (p : Nat) (f : Port → Port) : (s.updPort p f).store = s.store := rfl
@[simp] theorem updPort_power (s : State) (p : Nat) (f : Port → Port) : (s.updPort p f).power = s.power := rfl
@[simp] theorem updPort_boot (s : State) (p : Nat) (f : Port → Port) : (s.updPort p f).boot = s.boot := rfl
@[simp] theorem updPort_side (s : State) (p : Nat) (f : Port → Port) : (s.updPort p f).side = s.side := rfl
@[simp] theorem updPort_life (s : State) (p : Nat) (f : Port → Port) : (s.updPort p f).life = s.life := rfl
@[simp] theorem updPort_log (s : State) (p : Nat) (f : Port → Port) : (s.updPort p f).log = s.log := rfl
@[simp] theorem updPort_logSeq (s : State) (p : Nat) (f : Port → Port) : (s.updPort p f).logSeq = s.logSeq := rfl
@[simp] theorem updPort_locusOpen (s : State) (p : Nat) (f : Port → Port) : (s.updPort p f).locusOpen = s.locusOpen := rfl
@[simp] theorem updPort_out (s : State) (p : Nat) (f : Port → Port) : (s.updPort p f).out = s.out := rfl

@[simp] theorem answer_pending (s : State) (port id : Nat) (bytes : List Byte) : (s.answer port id bytes).pending = s.pending := rfl
@[simp] theorem answer_now (s : State) (port id : Nat) (bytes : List Byte) : (s.answer port id bytes).now = s.now := rfl
@[simp] theorem answer_freeCtr (s : State) (port id : Nat) (bytes : List Byte) : (s.answer port id bytes).freeCtr = s.freeCtr := rfl
@[simp] theorem answer_nextId (s : State) (port id : Nat) (bytes : List Byte) : (s.answer port id bytes).nextId = s.nextId := rfl
@[simp] theorem answer_positions (s : State) (port id : Nat) (bytes : List Byte) : (s.answer port id bytes).positions = s.positions := rfl
@[simp] theorem answer_defects (s : State) (port id : Nat) (bytes : List Byte) : (s.answer port id bytes).defects = s.defects := rfl
@[simp] theorem answer_retired (s : State) (port id : Nat) (bytes : List Byte) : (s.answer port id bytes).retired = s.retired := rfl
@[simp] theorem answer_facets (s : State) (port id : Nat) (bytes : List Byte) : (s.answer port id bytes).facets = s.facets := rfl
@[simp] theorem answer_reqs (s : State) (port id : Nat) (bytes : List Byte) : (s.answer port id bytes).reqs = s.reqs := rfl
@[simp] theorem answer_hull (s : State) (port id : Nat) (bytes : List Byte) : (s.answer port id bytes).hull = s.hull := rfl
@[simp] theorem answer_hbm (s : State) (port id : Nat) (bytes : List Byte) : (s.answer port id bytes).hbm = s.hbm := rfl
@[simp] theorem answer_ports (s : State) (port id : Nat) (bytes : List Byte) : (s.answer port id bytes).ports = s.ports := rfl
@[simp] theorem answer_egress (s : State) (port id : Nat) (bytes : List Byte) : (s.answer port id bytes).egress = s.egress := rfl
@[simp] theorem answer_remotes (s : State) (port id : Nat) (bytes : List Byte) : (s.answer port id bytes).remotes = s.remotes := rfl
@[simp] theorem answer_colls (s : State) (port id : Nat) (bytes : List Byte) : (s.answer port id bytes).colls = s.colls := rfl
@[simp] theorem answer_groupsOf (s : State) (port id : Nat) (bytes : List Byte) : (s.answer port id bytes).groupsOf = s.groupsOf := rfl
@[simp] theorem answer_fns (s : State) (port id : Nat) (bytes : List Byte) : (s.answer port id bytes).fns = s.fns := rfl
@[simp] theorem answer_held (s : State) (port id : Nat) (bytes : List Byte) : (s.answer port id bytes).held = s.held := rfl
@[simp] theorem answer_entries (s : State) (port id : Nat) (bytes : List Byte) : (s.answer port id bytes).entries = s.entries := rfl
@[simp] theorem answer_launches (s : State) (port id : Nat) (bytes : List Byte) : (s.answer port id bytes).launches = s.launches := rfl
@[simp] theorem answer_loads (s : State) (port id : Nat) (bytes : List Byte) : (s.answer port id bytes).loads = s.loads := rfl
@[simp] theorem answer_drains (s : State) (port id : Nat) (bytes : List Byte) : (s.answer port id bytes).drains = s.drains := rfl
@[simp] theorem answer_decisions (s : State) (port id : Nat) (bytes : List Byte) : (s.answer port id bytes).decisions = s.decisions := rfl
@[simp] theorem answer_store (s : State) (port id : Nat) (bytes : List Byte) : (s.answer port id bytes).store = s.store := rfl
@[simp] theorem answer_power (s : State) (port id : Nat) (bytes : List Byte) : (s.answer port id bytes).power = s.power := rfl
@[simp] theorem answer_boot (s : State) (port id : Nat) (bytes : List Byte) : (s.answer port id bytes).boot = s.boot := rfl
@[simp] theorem answer_side (s : State) (port id : Nat) (bytes : List Byte) : (s.answer port id bytes).side = s.side := rfl
@[simp] theorem answer_life (s : State) (port id : Nat) (bytes : List Byte) : (s.answer port id bytes).life = s.life := rfl
@[simp] theorem answer_log (s : State) (port id : Nat) (bytes : List Byte) : (s.answer port id bytes).log = s.log := rfl
@[simp] theorem answer_logSeq (s : State) (port id : Nat) (bytes : List Byte) : (s.answer port id bytes).logSeq = s.logSeq := rfl
@[simp] theorem answer_locusOpen (s : State) (port id : Nat) (bytes : List Byte) : (s.answer port id bytes).locusOpen = s.locusOpen := rfl

@[simp] theorem updLaunch_pending (s : State) (id : Nat) (f : Launch → Launch) : (s.updLaunch id f).pending = s.pending := rfl
@[simp] theorem updLaunch_now (s : State) (id : Nat) (f : Launch → Launch) : (s.updLaunch id f).now = s.now := rfl
@[simp] theorem updLaunch_freeCtr (s : State) (id : Nat) (f : Launch → Launch) : (s.updLaunch id f).freeCtr = s.freeCtr := rfl
@[simp] theorem updLaunch_nextId (s : State) (id : Nat) (f : Launch → Launch) : (s.updLaunch id f).nextId = s.nextId := rfl
@[simp] theorem updLaunch_positions (s : State) (id : Nat) (f : Launch → Launch) : (s.updLaunch id f).positions = s.positions := rfl
@[simp] theorem updLaunch_defects (s : State) (id : Nat) (f : Launch → Launch) : (s.updLaunch id f).defects = s.defects := rfl
@[simp] theorem updLaunch_retired (s : State) (id : Nat) (f : Launch → Launch) : (s.updLaunch id f).retired = s.retired := rfl
@[simp] theorem updLaunch_facets (s : State) (id : Nat) (f : Launch → Launch) : (s.updLaunch id f).facets = s.facets := rfl
@[simp] theorem updLaunch_reqs (s : State) (id : Nat) (f : Launch → Launch) : (s.updLaunch id f).reqs = s.reqs := rfl
@[simp] theorem updLaunch_hull (s : State) (id : Nat) (f : Launch → Launch) : (s.updLaunch id f).hull = s.hull := rfl
@[simp] theorem updLaunch_hbm (s : State) (id : Nat) (f : Launch → Launch) : (s.updLaunch id f).hbm = s.hbm := rfl
@[simp] theorem updLaunch_ports (s : State) (id : Nat) (f : Launch → Launch) : (s.updLaunch id f).ports = s.ports := rfl
@[simp] theorem updLaunch_egress (s : State) (id : Nat) (f : Launch → Launch) : (s.updLaunch id f).egress = s.egress := rfl
@[simp] theorem updLaunch_remotes (s : State) (id : Nat) (f : Launch → Launch) : (s.updLaunch id f).remotes = s.remotes := rfl
@[simp] theorem updLaunch_colls (s : State) (id : Nat) (f : Launch → Launch) : (s.updLaunch id f).colls = s.colls := rfl
@[simp] theorem updLaunch_groupsOf (s : State) (id : Nat) (f : Launch → Launch) : (s.updLaunch id f).groupsOf = s.groupsOf := rfl
@[simp] theorem updLaunch_fns (s : State) (id : Nat) (f : Launch → Launch) : (s.updLaunch id f).fns = s.fns := rfl
@[simp] theorem updLaunch_held (s : State) (id : Nat) (f : Launch → Launch) : (s.updLaunch id f).held = s.held := rfl
@[simp] theorem updLaunch_entries (s : State) (id : Nat) (f : Launch → Launch) : (s.updLaunch id f).entries = s.entries := rfl
@[simp] theorem updLaunch_loads (s : State) (id : Nat) (f : Launch → Launch) : (s.updLaunch id f).loads = s.loads := rfl
@[simp] theorem updLaunch_drains (s : State) (id : Nat) (f : Launch → Launch) : (s.updLaunch id f).drains = s.drains := rfl
@[simp] theorem updLaunch_decisions (s : State) (id : Nat) (f : Launch → Launch) : (s.updLaunch id f).decisions = s.decisions := rfl
@[simp] theorem updLaunch_store (s : State) (id : Nat) (f : Launch → Launch) : (s.updLaunch id f).store = s.store := rfl
@[simp] theorem updLaunch_power (s : State) (id : Nat) (f : Launch → Launch) : (s.updLaunch id f).power = s.power := rfl
@[simp] theorem updLaunch_boot (s : State) (id : Nat) (f : Launch → Launch) : (s.updLaunch id f).boot = s.boot := rfl
@[simp] theorem updLaunch_side (s : State) (id : Nat) (f : Launch → Launch) : (s.updLaunch id f).side = s.side := rfl
@[simp] theorem updLaunch_life (s : State) (id : Nat) (f : Launch → Launch) : (s.updLaunch id f).life = s.life := rfl
@[simp] theorem updLaunch_log (s : State) (id : Nat) (f : Launch → Launch) : (s.updLaunch id f).log = s.log := rfl
@[simp] theorem updLaunch_logSeq (s : State) (id : Nat) (f : Launch → Launch) : (s.updLaunch id f).logSeq = s.logSeq := rfl
@[simp] theorem updLaunch_locusOpen (s : State) (id : Nat) (f : Launch → Launch) : (s.updLaunch id f).locusOpen = s.locusOpen := rfl
@[simp] theorem updLaunch_out (s : State) (id : Nat) (f : Launch → Launch) : (s.updLaunch id f).out = s.out := rfl

@[simp] theorem life_pending (s : State) (k n : Nat) : (s.life! k n).pending = s.pending := rfl
@[simp] theorem life_now (s : State) (k n : Nat) : (s.life! k n).now = s.now := rfl
@[simp] theorem life_freeCtr (s : State) (k n : Nat) : (s.life! k n).freeCtr = s.freeCtr := rfl
@[simp] theorem life_nextId (s : State) (k n : Nat) : (s.life! k n).nextId = s.nextId := rfl
@[simp] theorem life_positions (s : State) (k n : Nat) : (s.life! k n).positions = s.positions := rfl
@[simp] theorem life_defects (s : State) (k n : Nat) : (s.life! k n).defects = s.defects := rfl
@[simp] theorem life_retired (s : State) (k n : Nat) : (s.life! k n).retired = s.retired := rfl
@[simp] theorem life_facets (s : State) (k n : Nat) : (s.life! k n).facets = s.facets := rfl
@[simp] theorem life_reqs (s : State) (k n : Nat) : (s.life! k n).reqs = s.reqs := rfl
@[simp] theorem life_hull (s : State) (k n : Nat) : (s.life! k n).hull = s.hull := rfl
@[simp] theorem life_hbm (s : State) (k n : Nat) : (s.life! k n).hbm = s.hbm := rfl
@[simp] theorem life_ports (s : State) (k n : Nat) : (s.life! k n).ports = s.ports := rfl
@[simp] theorem life_egress (s : State) (k n : Nat) : (s.life! k n).egress = s.egress := rfl
@[simp] theorem life_remotes (s : State) (k n : Nat) : (s.life! k n).remotes = s.remotes := rfl
@[simp] theorem life_colls (s : State) (k n : Nat) : (s.life! k n).colls = s.colls := rfl
@[simp] theorem life_groupsOf (s : State) (k n : Nat) : (s.life! k n).groupsOf = s.groupsOf := rfl
@[simp] theorem life_fns (s : State) (k n : Nat) : (s.life! k n).fns = s.fns := rfl
@[simp] theorem life_held (s : State) (k n : Nat) : (s.life! k n).held = s.held := rfl
@[simp] theorem life_entries (s : State) (k n : Nat) : (s.life! k n).entries = s.entries := rfl
@[simp] theorem life_launches (s : State) (k n : Nat) : (s.life! k n).launches = s.launches := rfl
@[simp] theorem life_loads (s : State) (k n : Nat) : (s.life! k n).loads = s.loads := rfl
@[simp] theorem life_drains (s : State) (k n : Nat) : (s.life! k n).drains = s.drains := rfl
@[simp] theorem life_decisions (s : State) (k n : Nat) : (s.life! k n).decisions = s.decisions := rfl
@[simp] theorem life_store (s : State) (k n : Nat) : (s.life! k n).store = s.store := rfl
@[simp] theorem life_power (s : State) (k n : Nat) : (s.life! k n).power = s.power := rfl
@[simp] theorem life_boot (s : State) (k n : Nat) : (s.life! k n).boot = s.boot := rfl
@[simp] theorem life_side (s : State) (k n : Nat) : (s.life! k n).side = s.side := rfl
@[simp] theorem life_log (s : State) (k n : Nat) : (s.life! k n).log = s.log := rfl
@[simp] theorem life_logSeq (s : State) (k n : Nat) : (s.life! k n).logSeq = s.logSeq := rfl
@[simp] theorem life_locusOpen (s : State) (k n : Nat) : (s.life! k n).locusOpen = s.locusOpen := rfl
@[simp] theorem life_out (s : State) (k n : Nat) : (s.life! k n).out = s.out := rfl

@[simp] theorem trace_pending (s : State) (point source fn : Nat) (args : List Nat) : (s.trace point source fn args).pending = s.pending := rfl
@[simp] theorem trace_now (s : State) (point source fn : Nat) (args : List Nat) : (s.trace point source fn args).now = s.now := rfl
@[simp] theorem trace_freeCtr (s : State) (point source fn : Nat) (args : List Nat) : (s.trace point source fn args).freeCtr = s.freeCtr := rfl
@[simp] theorem trace_nextId (s : State) (point source fn : Nat) (args : List Nat) : (s.trace point source fn args).nextId = s.nextId := rfl
@[simp] theorem trace_positions (s : State) (point source fn : Nat) (args : List Nat) : (s.trace point source fn args).positions = s.positions := rfl
@[simp] theorem trace_defects (s : State) (point source fn : Nat) (args : List Nat) : (s.trace point source fn args).defects = s.defects := rfl
@[simp] theorem trace_retired (s : State) (point source fn : Nat) (args : List Nat) : (s.trace point source fn args).retired = s.retired := rfl
@[simp] theorem trace_facets (s : State) (point source fn : Nat) (args : List Nat) : (s.trace point source fn args).facets = s.facets := rfl
@[simp] theorem trace_reqs (s : State) (point source fn : Nat) (args : List Nat) : (s.trace point source fn args).reqs = s.reqs := rfl
@[simp] theorem trace_hull (s : State) (point source fn : Nat) (args : List Nat) : (s.trace point source fn args).hull = s.hull := rfl
@[simp] theorem trace_hbm (s : State) (point source fn : Nat) (args : List Nat) : (s.trace point source fn args).hbm = s.hbm := rfl
@[simp] theorem trace_ports (s : State) (point source fn : Nat) (args : List Nat) : (s.trace point source fn args).ports = s.ports := rfl
@[simp] theorem trace_egress (s : State) (point source fn : Nat) (args : List Nat) : (s.trace point source fn args).egress = s.egress := rfl
@[simp] theorem trace_remotes (s : State) (point source fn : Nat) (args : List Nat) : (s.trace point source fn args).remotes = s.remotes := rfl
@[simp] theorem trace_colls (s : State) (point source fn : Nat) (args : List Nat) : (s.trace point source fn args).colls = s.colls := rfl
@[simp] theorem trace_groupsOf (s : State) (point source fn : Nat) (args : List Nat) : (s.trace point source fn args).groupsOf = s.groupsOf := rfl
@[simp] theorem trace_fns (s : State) (point source fn : Nat) (args : List Nat) : (s.trace point source fn args).fns = s.fns := rfl
@[simp] theorem trace_held (s : State) (point source fn : Nat) (args : List Nat) : (s.trace point source fn args).held = s.held := rfl
@[simp] theorem trace_entries (s : State) (point source fn : Nat) (args : List Nat) : (s.trace point source fn args).entries = s.entries := rfl
@[simp] theorem trace_launches (s : State) (point source fn : Nat) (args : List Nat) : (s.trace point source fn args).launches = s.launches := rfl
@[simp] theorem trace_loads (s : State) (point source fn : Nat) (args : List Nat) : (s.trace point source fn args).loads = s.loads := rfl
@[simp] theorem trace_drains (s : State) (point source fn : Nat) (args : List Nat) : (s.trace point source fn args).drains = s.drains := rfl
@[simp] theorem trace_decisions (s : State) (point source fn : Nat) (args : List Nat) : (s.trace point source fn args).decisions = s.decisions := rfl
@[simp] theorem trace_store (s : State) (point source fn : Nat) (args : List Nat) : (s.trace point source fn args).store = s.store := rfl
@[simp] theorem trace_power (s : State) (point source fn : Nat) (args : List Nat) : (s.trace point source fn args).power = s.power := rfl
@[simp] theorem trace_boot (s : State) (point source fn : Nat) (args : List Nat) : (s.trace point source fn args).boot = s.boot := rfl
@[simp] theorem trace_side (s : State) (point source fn : Nat) (args : List Nat) : (s.trace point source fn args).side = s.side := rfl
@[simp] theorem trace_life (s : State) (point source fn : Nat) (args : List Nat) : (s.trace point source fn args).life = s.life := rfl
@[simp] theorem trace_locusOpen (s : State) (point source fn : Nat) (args : List Nat) : (s.trace point source fn args).locusOpen = s.locusOpen := rfl
@[simp] theorem trace_out (s : State) (point source fn : Nat) (args : List Nat) : (s.trace point source fn args).out = s.out := rfl

@[simp] theorem updPc_cells (s : State) (k : Nat) (f : PseudoChannel → PseudoChannel) :
    (s.updPc k f).hbm.cells = s.hbm.cells := rfl

/-- A function's record after its update. -/
@[simp] theorem fn_updFn (s : State) (j : Nat) (f : Fn → Fn) : (s.updFn j f).fn j = f (s.fn j) := by
  simp [State.updFn, State.fn]

theorem fn_updFn_ne (s : State) {j k : Nat} (f : Fn → Fn) (h : k ≠ j) : (s.updFn j f).fn k = s.fn k := by
  simp [State.updFn, State.fn, agetD_aput_ne _ _ _ h]

/-- A register reads as it was written. -/
@[simp] theorem reg_setReg (s : State) (j a : Nat) (v : Word) : (s.setReg j a v).reg j a = v := by
  simp [State.setReg, State.reg]

/-- Another register of the function is untouched. -/
theorem reg_setReg_ne (s : State) (j : Nat) {a b : Nat} (v : Word) (h : b ≠ a) : (s.setReg j a v).reg j b = s.reg j b := by
  simp [State.setReg, State.reg, agetD_aput_ne _ _ _ h]

/-- A register of another function is untouched. -/
theorem reg_setReg_fn (s : State) {j k : Nat} (a b : Nat) (v : Word) (h : k ≠ j) : (s.setReg j a v).reg k b = s.reg k b := by
  simp [State.setReg, State.reg, fn_updFn_ne _ _ h]

/-- Reading registers after a write, in one rule. -/
theorem reg_setReg_iff (s : State) (j k a b : Nat) (v : Word) :
    (s.setReg j a v).reg k b = if k = j ∧ b = a then v else s.reg k b := by
  by_cases hk : k = j
  · subst hk
    by_cases hb : b = a
    · subst hb; simp
    · simp [hb, reg_setReg_ne s k v hb]
  · simp [hk, reg_setReg_fn s a b v hk]

/-- A Facet's record after its update. -/
@[simp] theorem facet_updFacet (s : State) (f : Nat) (h : Facet → Facet) : (s.updFacet f h).facet f = h (s.facet f) := by
  simp [State.updFacet, State.facet]

theorem facet_updFacet_ne (s : State) {f k : Nat} (h : Facet → Facet) (hk : k ≠ f) : (s.updFacet f h).facet k = s.facet k := by
  simp [State.updFacet, State.facet, agetD_aput_ne _ _ _ hk]

/-- The group of a slot after it was stored. -/
@[simp] theorem group_setGroup (s : State) (f slot : Nat) (g : Group) : (s.setGroup f slot g).group? f slot = some g := by
  simp [State.setGroup, State.group?]

/-- The group of another slot or Facet is untouched. -/
theorem group_setGroup_ne (s : State) (f slot : Nat) (g : Group) {f' slot' : Nat} (h : f' ≠ f ∨ slot' ≠ slot) :
    (s.setGroup f slot g).group? f' slot' = s.group? f' slot' := by
  unfold State.setGroup State.group?
  by_cases hf : f' = f
  · subst hf
    have hs : slot' ≠ slot := by rcases h with h | h; exact absurd rfl h; exact h
    simp [aget_aput_ne _ _ hs]
  · rw [facet_updFacet_ne _ _ hf]

/-- Storing a group leaves its Facet's blocks, code store and clock alone. -/
@[simp] theorem block_setGroup (s : State) (f slot : Nat) (g : Group) (f' b : Nat) :
    (s.setGroup f slot g).block? f' b = s.block? f' b := by
  unfold State.setGroup State.block?
  by_cases hf : f' = f
  · subst hf; simp
  · rw [facet_updFacet_ne _ _ hf]

/-- A pseudo-channel engine after its update. -/
@[simp] theorem pc_updPc (s : State) (k : Nat) (f : PseudoChannel → PseudoChannel) : (s.updPc k f).pc k = f (s.pc k) := by
  simp [State.updPc, State.pc]

/-- A port after its update. -/
@[simp] theorem port_updPort (s : State) (p : Nat) (f : Port → Port) : (s.updPort p f).port p = f (s.port p) := by
  simp [State.updPort, State.port]

/-- A lifetime counter raised. -/
theorem life_life (s : State) (k n m : Nat) (h : tableWf 64 s.life.live = true) :
    tget (s.life! k n).life.live m =
      if m = k then BitVec.ofNat 64 (min (2 ^ 64 - 1) ((tget s.life.live k).toNat + n)) else tget s.life.live m := by
  simp only [State.life!]
  exact tget_tset _ _ _ h

end Sys2Proof.Laws
end

