-- ==== Sys2Proof/Laws/Issue.lean ====
section
/-! SUPPORT. Issue: what issuing an instruction of a group does, said once, and what the parts of it leave alone. -/

namespace Sys2Proof.Laws

open Sys2Proof.Machine

/-- What an issue that is not held back comes to. -/
def settled (s : State) (f slot : Nat) (g : Group) (i : Ins) : Issue → State
  | .hold => s
  | .fault code lanes addr =>
    s.raise f slot g code g.pc lanes addr (if code = 15 then faultInfo i.imm false false false else 0) (if code = 1 then 2 else 0) 0
  | .done t h => t.afterIssue f slot h

/-- Fewer registers owe no more. -/
theorem owes_mono {g : Group} {vs us vs' us' : List Nat} (h : g.owes vs us = false) (hv : ∀ n ∈ vs', n ∈ vs)
    (hu : ∀ n ∈ us', n ∈ us) : g.owes vs' us' = false := by
  unfold Group.owes at *
  rw [List.any_eq_false] at *
  intro w hw
  have := h w hw
  simp only [Bool.or_eq_true, List.any_eq_true, List.contains_iff_mem, not_or, not_exists, not_and] at this ⊢
  exact ⟨fun n hn hm => this.1 n hn (hv n hm), fun n hn hm => this.2 n hn (hu n hm)⟩

theorem canIssue_wait {g : Group} (h : g.canIssue = true) : g.wait = .none := by
  simp [Group.canIssue] at h; exact h.1.2

/-- A fetch that corrects no word counts none. -/
theorem fetched_intact {s : State} {f : Nat} {g : Group} {i : Ins} (h : s.codeFixes f g i = 0) : s.fetched f g i = s := by
  simp [State.fetched, h]

/-- Issuing an instruction that is no point of R127. -/
theorem issue_at {s : State} {f slot : Nat} {g : Group} {i : Ins} {accept : Ins → Bool}
    {sources dests : Ins → List Nat × List Nat} {run : State → Group → Ins → Issue}
    {chained : State → Group → Ins → List Nat}
    (h : AtIssue s f slot g i (((sources i).1 ++ (dests i).1).filter (fun r => !(chained s g i).contains r))
      ((sources i).2 ++ (dests i).2) (sources i).1 (dests i).1) (ha : accept i = true) :
    s.issue f slot accept sources dests false run chained = settled s f slot g i (run s g i) := by
  have hd : (if g.lanes i = 0 then [] else g.deferred.filter (fun d => false || d.vregs.any (sources i).1.contains)) = [] := by
    split
    · rfl
    · rename_i hl
      rw [List.filter_eq_nil_iff]
      intro d hd
      simp only [Bool.false_or, h.quiet hl d hd]
      decide
  have h2 : (decide (i.fmt = 4) && !s.inCode g (g.pc + 8)) = false := by
    by_cases hf : i.fmt = 4
    · simp [hf, h.second hf]
    · simp [hf]
  unfold State.issue
  simp only [h.resident, h.free, h.clocked, h.inside, h.fetched, ha, h.within, h.paid, h.taken, h2, hd, fetched_intact h.intact,
    Bool.not_true, Bool.or_self, Bool.false_eq_true, if_false, Bool.false_and, List.find?_nil, List.head?_nil]
  cases run s g i <;> rfl

/-- The same without a latch. -/
theorem issue_plain {s : State} {f slot : Nat} {g : Group} {i : Ins} {accept : Ins → Bool}
    {sources dests : Ins → List Nat × List Nat} {run : State → Group → Ins → Issue}
    (h : AtIssue s f slot g i ((sources i).1 ++ (dests i).1) ((sources i).2 ++ (dests i).2) (sources i).1 (dests i).1)
    (ha : accept i = true) :
    s.issue f slot accept sources dests false run = settled s f slot g i (run s g i) := by
  apply issue_at _ ha
  refine ⟨⟨h.resident, h.free, h.clocked, h.inside, h.fetched, h.second, h.within, owes_mono h.paid ?_ (fun _ h => h), h.taken,
    h.quiet⟩, h.intact⟩
  intro n hn
  exact List.mem_of_mem_filter hn

/-- Issuing FENCE, JOIN or EXIT. -/
theorem issue_point {s : State} {f slot : Nat} {g : Group} {i : Ins} {accept : Ins → Bool}
    {sources dests : Ins → List Nat × List Nat} {run : State → Group → Ins → Issue}
    (h : AtIssue s f slot g i ((sources i).1 ++ (dests i).1) ((sources i).2 ++ (dests i).2) (sources i).1 (dests i).1)
    (hp : AtPoint s g i) (ha : accept i = true) :
    s.issue f slot accept sources dests true run = settled s f slot g i (run s g i) := by
  have ho := owes_mono (vs' := ((sources i).1 ++ (dests i).1).filter (fun r => !([] : List Nat).contains r)) h.paid
    (fun n hn => List.mem_of_mem_filter hn) (fun _ h => h)
  have h2 : (decide (i.fmt = 4) && !s.inCode g (g.pc + 8)) = false := by
    by_cases hf : i.fmt = 4
    · simp [hf, h.second hf]
    · simp [hf]
  have hw : (true && g.lanes i != 0 && s.trapsOn g.vf && g.writes.any (·.traps)) = false := by
    by_cases hl : g.lanes i = 0
    · simp [hl]
    · by_cases ht : s.trapsOn g.vf = true
      · have := (hp hl).2 ht
        have : g.writes.any (·.traps) = false := by rw [List.any_eq_false]; intro w hw; simp [this w hw]
        simp [this]
      · simp [ht]
  have hd : (if g.lanes i = 0 then [] else g.deferred.filter (fun d => true || d.vregs.any (sources i).1.contains)) = [] := by
    split
    · rfl
    · rename_i hl; simp [(hp hl).1]
  unfold State.issue
  simp only [h.resident, h.free, h.clocked, h.inside, h.fetched, ha, h.within, ho, h.taken, h2, hw, hd, fetched_intact h.intact,
    Bool.not_true, Bool.or_self, Bool.false_eq_true, if_false, List.find?_nil, List.head?_nil]
  cases run s g i <;> rfl

/-- An ALU instruction whose checks pass. -/
theorem issueAlu_at {s : State} {f slot op : Nat} {g : Group} {i : Ins} {shape : Ins → Shape} {own : Ins → Bool}
    {imm : Ins → Nat} {fn : Ins → Group → List Lane → Lane → Nat}
    (h : AluAtIssue s f slot g i (shape i)) (ho : i.op = op) (hf : (shape i).formats.contains i.fmt = true)
    (hc : aluChecks s g (shape i) i (own i) = none) (hr : rlxHeld s f slot i = false) :
    issueAlu s f slot op shape own imm fn =
      (let r := aluEffect s f g (shape i) i (imm i) (fn i g)
       (r.1.takePort f slot g i ((shape i).sources i) (if (shape i).dest = 0 then [] else [(shape i).target i])).afterIssue f slot
         (r.2.next i)) := by
  unfold issueAlu
  rw [issue_plain (g := g) (i := i)]
  · simp [runAlu, hc, hr, settled]
  · exact h
  · simp [ho]; simpa using hf

/-- A reconvergence step leaves the registers of a group alone. -/
theorem reconverge_regs (n : Nat) : ∀ g : Group, (g.reconverge n).v = g.v ∧ (g.reconverge n).u = g.u ∧ (g.reconverge n).p = g.p := by
  induction n with
  | zero => intro g; exact ⟨rfl, rfl, rfl⟩
  | succ n ih =>
    intro g
    unfold Group.reconverge
    split
    · exact ⟨rfl, rfl, rfl⟩
    · split
      · split
        · exact ih _
        · exact ih _
      · split
        · split
          · exact ih _
          · exact ih _
        · exact ⟨rfl, rfl, rfl⟩

/-- Settling at a reconvergence point leaves the registers of a group alone. -/
theorem settle_regs (g : Group) : g.settle.v = g.v ∧ g.settle.u = g.u ∧ g.settle.p = g.p := by
  unfold Group.settle
  split
  · exact reconverge_regs _ _
  · exact reconverge_regs _ _

theorem onlyGroup_refl (s : State) (f slot : Nat) : OnlyGroup s s f slot :=
  ⟨rfl, fun _ _ => rfl, fun _ _ => rfl, rfl, fun _ _ h => ⟨_, h⟩⟩

theorem onlyGroup_trans {s t u : State} {f slot : Nat} (h : OnlyGroup s t f slot) (k : OnlyGroup t u f slot) :
    OnlyGroup s u f slot := by
  refine ⟨?_, fun n hn => (k.facets n hn).trans (h.facets n hn), fun n hn => (k.groups n hn).trans (h.groups n hn),
    k.code.trans h.code, fun b x hx => ?_⟩
  · have h1 := k.rest; rw [h.rest] at h1; exact h1
  · obtain ⟨m, hm⟩ := h.blocks b x hx
    obtain ⟨m', hm'⟩ := k.blocks b { x with opc := m } hm
    exact ⟨m', hm'⟩

theorem onlyGroup_setGroup (s : State) (f slot : Nat) (g : Group) : OnlyGroup s (s.setGroup f slot g) f slot := by
  refine ⟨rfl, fun k hk => facet_updFacet_ne _ _ hk, fun k hk => group_setGroup_ne _ _ _ _ (Or.inr hk), ?_, fun b x hx => ?_⟩
  · simp [State.setGroup]
  · exact ⟨x.opc, by rw [block_setGroup]; exact hx⟩

theorem onlyGroup_opc (s : State) (f slot b : Nat) (h : Ram → Ram) :
    OnlyGroup s (s.updBlock f b (fun x => { x with opc := h x.opc })) f slot := by
  unfold State.updBlock
  split
  · rename_i y hy
    refine ⟨rfl, fun k hk => facet_updFacet_ne _ _ hk, fun k _ => ?_, ?_, fun c x hx => ?_⟩
    · simp [State.group?]
    · simp
    · by_cases hc : c = b
      · subst hc
        rw [hx] at hy
        have e : x = y := Option.some.inj hy
        exact ⟨h y.opc, by rw [e]; simp [State.block?]⟩
      · refine ⟨x.opc, ?_⟩
        simp only [State.block?, facet_updFacet] at *
        rw [aget_aput_ne _ _ hc]; exact hx
  · exact onlyGroup_refl _ _ _

theorem onlyGroup_writeReg (s : State) (f slot : Nat) (g : Group) (r : Reg?) (k lane : Nat) (x : Word) :
    OnlyGroup s (writeReg s f g r k lane x).1 f slot := by
  unfold writeReg
  split
  · exact onlyGroup_refl _ _ _
  · split
    · exact onlyGroup_opc s f slot g.block (fun m => m.write (ralelleAt s g (r.n + k) lane) (leBytes 4 x.toNat))
    · split <;> exact onlyGroup_refl _ _ _

/-- A fold over a state and a group that touches only the group. -/
theorem onlyGroup_foldl (f slot : Nat) (step : State × Group → α → State × Group)
    (h : ∀ p x, OnlyGroup p.1 (step p x).1 f slot) (l : List α) :
    ∀ p : State × Group, OnlyGroup p.1 (l.foldl step p).1 f slot := by
  induction l with
  | nil => intro p; exact onlyGroup_refl _ _ _
  | cons x t ih => intro p; exact onlyGroup_trans (h p x) (ih (step p x))

theorem onlyGroup_writeOp (s : State) (f slot : Nat) (g : Group) (r : Reg?) (lane x : Nat) :
    OnlyGroup s (writeOp s f g r lane x).1 f slot := by
  unfold writeOp
  exact onlyGroup_foldl f slot _ (fun p k => onlyGroup_writeReg _ _ _ _ _ _ _ _) _ (s, g)

theorem onlyGroup_writeAll (s : State) (f slot : Nat) (g : Group) (h : Shape) (i : Ins) (res : List (Nat × Nat)) :
    OnlyGroup s (writeAll s f g h i res).1 f slot := by
  unfold writeAll
  split
  · exact onlyGroup_refl _ _ _
  · exact onlyGroup_foldl f slot _ (fun p k => onlyGroup_writeOp _ _ _ _ _ _ _) _ (s, g)

theorem onlyGroup_afterIssue (s : State) (f slot : Nat) (g : Group) : OnlyGroup s (s.afterIssue f slot g) f slot :=
  onlyGroup_setGroup _ _ _ _

/-- A place in the queue of the vector port is no change of a group. -/
theorem onlyGroup_takePort (s : State) (f slot : Nat) (g : Group) (i : Ins) (reads writes : List Reg?) :
    OnlyGroup s (s.takePort f slot g i reads writes) f slot := by
  unfold State.takePort
  split
  · exact ⟨rfl, fun k hk => facet_updFacet_ne _ _ hk, fun k _ => by simp [State.group?], by simp,
      fun b x hx => ⟨x.opc, by simpa [State.block?] using hx⟩⟩
  · exact onlyGroup_refl _ _ _

/-- An operand's value in a lane is within its span. -/
theorem readOp_lt (s : State) (f : Nat) (g : Group) (r : Reg?) (lane : Nat) : readOp s f g r lane < 2 ^ (32 * r.span) := by
  unfold readOp
  have step : ∀ n, (List.range n).foldl (fun x k => x + (readReg s f g r k lane).toNat <<< (32 * k)) 0 < 2 ^ (32 * n) := by
    intro n
    induction n with
    | zero => simp
    | succ n ih =>
      rw [List.range_succ, List.foldl_append, List.foldl_cons, List.foldl_nil, Nat.shiftLeft_eq]
      have hx := (readReg s f g r n lane).isLt
      have e : 2 ^ (32 * (n + 1)) = 2 ^ 32 * 2 ^ (32 * n) := by rw [← Nat.pow_add]; congr 1; omega
      rw [e]
      have : (readReg s f g r n lane).toNat * 2 ^ (32 * n) ≤ (2 ^ 32 - 1) * 2 ^ (32 * n) := Nat.mul_le_mul_right _ (by omega)
      have h2 : (2 ^ 32 - 1) * 2 ^ (32 * n) + 2 ^ (32 * n) = 2 ^ 32 * 2 ^ (32 * n) := by
        rw [Nat.sub_mul, Nat.one_mul]; have := Nat.le_mul_of_pos_left (2 ^ (32 * n)) (show 0 < 2 ^ 32 by decide); omega
      omega
  exact step r.span

/-- Sign extension of an immediate stays within the width. -/
theorem immInt_lt (i : Ins) (w : Nat) : immInt i w < 2 ^ w := by
  unfold immInt
  have h := Int.emod_lt_of_pos (signedN 16 i.imm) (show (0 : Int) < 2 ^ w by positivity)
  have h0 := Int.emod_nonneg (signedN 16 i.imm) (show (2 : Int) ^ w ≠ 0 by positivity)
  have : ((signedN 16 i.imm % 2 ^ w).toNat : Int) < ((2 ^ w : Nat) : Int) := by
    rw [Int.toNat_of_nonneg h0]; push_cast; exact h
  exact_mod_cast this

theorem mem_bitsOf_lt {w : BitVec n} {k : Nat} (h : k ∈ bitsOf w) : k < n :=
  List.mem_range.1 (List.mem_of_mem_filter h)

theorem lowLane_lt (m : Word) : lowLane m < 32 := by
  unfold lowLane
  cases h : bitsOf m with
  | nil => decide
  | cons a t => exact mem_bitsOf_lt (show a ∈ bitsOf m by rw [h]; simp)

/-- The lanes of an ALU instruction are lanes. -/
theorem mem_aluLanes_lt {g : Group} {i : Ins} {u : Bool} {l : Nat} (h : l ∈ aluLanes g i u) : l < 32 := by
  unfold aluLanes at h
  split at h
  · split at h
    · rw [List.mem_singleton] at h; subst h; exact lowLane_lt _
    · cases h
  · exact mem_bitsOf_lt h

/-- An ALU instruction whose lanes are independent. -/
theorem aluEffect_lanes (s : State) (f : Nat) (g : Group) (h : Shape) (i : Ins) (imm : Nat) (fn : Lane → Nat) :
    aluEffect s f g h i imm (fun _ l => fn l) =
      writeAll s f g h i ((aluLanes g i (h.dest != 0 && i.ud)).map (fun l => (l, fn (readLane s f g h i imm l)))) := by
  have e : ∀ l ∈ aluLanes g i (h.dest != 0 && i.ud),
      (l, fn ((((List.range 32).map (readLane s f g h i imm))[l]?).getD ⟨0, 0, 0, 0, l⟩)) =
        (l, fn (readLane s f g h i imm l)) := by
    intro l hl
    rw [List.getElem?_map, List.getElem?_range (mem_aluLanes_lt hl)]
    rfl
  show writeAll s f g h i _ = _
  rw [List.map_congr_left e]

/-- What an ALU instruction with independent lanes comes to. -/
theorem issueAlu_result {s : State} {f slot op : Nat} {g : Group} {i : Ins} {shape : Ins → Shape} {own : Ins → Bool}
    {imm : Ins → Nat} {fn : Ins → Group → Lane → Nat}
    (h : AluAtIssue s f slot g i (shape i)) (ho : i.op = op) (hf : (shape i).formats.contains i.fmt = true)
    (hc : aluChecks s g (shape i) i (own i) = none) (hr : rlxHeld s f slot i = false) :
    issueAlu s f slot op shape own imm (fun i g _ l => fn i g l) = aluResult s f slot g i (shape i) (imm i) (fn i g) := by
  rw [issueAlu_at h ho hf hc hr]
  unfold aluResult
  rw [aluEffect_lanes]

/-- A one-result integer instruction. -/
theorem issueInt_result {s : State} {f slot op : Nat} {g : Group} {i : Ins} {h : Shape} {fn : Ins → Lane → Nat}
    (hi : AluAtIssue s f slot g i h) (ho : i.op = op) (hf : h.formats.contains i.fmt = true)
    (hc : aluChecks s g h i (ownInt i) = none) (hr : rlxHeld s f slot i = false) :
    issueInt s f slot op h fn = aluResult s f slot g i h (immInt i (32 * h.b)) (fn i) :=
  issueAlu_result (shape := fun _ => h) (own := ownInt) (imm := fun i => immInt i (32 * h.b)) (fn := fun i _ l => fn i l)
    hi ho hf hc hr

/-- A floating-point instruction. -/
theorem issueFloat_result {s : State} {f slot op : Nat} {g : Group} {i : Ins} {nb nc : Bool}
    {fn : Nat → Fmt → Nat → Nat → Nat → Nat}
    (hi : AluAtIssue s f slot g i { a := fspan i, b := if nb then fspan i else 0, c := if nc then fspan i else 0, dest := fspan i })
    (ho : i.op = op) (hf : i.fmt ≤ 1)
    (hc : aluChecks s g { a := fspan i, b := if nb then fspan i else 0, c := if nc then fspan i else 0, dest := fspan i } i
      (floatType i && decide (i.mod ≤ 3)) = none) (hr : rlxHeld s f slot i = false) :
    issueFloat s f slot op nb nc fn = aluResult s f slot g i
      { a := fspan i, b := if nb then fspan i else 0, c := if nc then fspan i else 0, dest := fspan i } (immFloat i)
      (floatLane i (fn i.mod)) :=
  issueAlu_result
    (shape := fun i => { a := fspan i, b := if nb then fspan i else 0, c := if nc then fspan i else 0, dest := fspan i })
    (own := fun i => floatType i && decide (i.mod ≤ 3)) (imm := immFloat) (fn := fun i _ l => floatLane i (fn i.mod) l)
    hi ho (by have h : i.fmt = 0 ∨ i.fmt = 1 := by omega
              rcases h with h | h <;> simp [h]) hc hr

/-- An ALU result touches only its group. -/
theorem onlyGroup_aluResult (s : State) (f slot : Nat) (g : Group) (i : Ins) (h : Shape) (imm : Nat) (value : Lane → Nat) :
    OnlyGroup s (aluResult s f slot g i h imm value) f slot := by
  unfold aluResult
  exact onlyGroup_trans (onlyGroup_trans (onlyGroup_writeAll _ _ _ _ _ _ _) (onlyGroup_takePort _ _ _ _ _ _ _)) (onlyGroup_afterIssue _ _ _ _)

/-- Two rules that agree on the lanes read give one result. -/
theorem aluResult_congr (s : State) (f slot : Nat) (g : Group) (i : Ins) (h : Shape) (imm : Nat) {v v' : Lane → Nat}
    (e : ∀ l, v (readLane s f g h i imm l) = v' (readLane s f g h i imm l)) :
    aluResult s f slot g i h imm v = aluResult s f slot g i h imm v' := by
  unfold aluResult
  simp only [e]

/-- The values an ALU instruction reads lie within their spans. -/
theorem readLane_lt (s : State) (f : Nat) (g : Group) (h : Shape) (i : Ins) (imm l : Nat) (himm : imm < 2 ^ (32 * h.b)) :
    (readLane s f g h i imm l).a < 2 ^ (32 * h.a) ∧ (readLane s f g h i imm l).b < 2 ^ (32 * h.b) ∧
    (readLane s f g h i imm l).c < 2 ^ (32 * h.c) := by
  have r (n um span : _) := readOp_lt s f g (operand i um n span) l
  refine ⟨?_, ?_, ?_⟩
  · show (if h.a = 0 then 0 else _) < _
    split
    · positivity
    · exact r _ _ _
  · show (if h.b = 0 then 0 else _) < _
    split
    · positivity
    · split
      · exact himm
      · exact r _ _ _
  · show (if h.c = 0 then 0 else _) < _
    split
    · positivity
    · exact r _ _ _

end Sys2Proof.Laws
end

