-- ==== Sys2Proof/Laws/Ram.lean ====
section
/-! SUPPORT. Memory: every operation keeps the canonical form, and what a read gives after a write. -/

namespace Sys2Proof.Laws

open Sys2Proof.Machine

theorem wf_iff (m : Ram) : Memory.wf m = true ↔ tableWf 8 m.cells = true ∧ tableWf 16 m.marks = true := by
  simp [Memory.wf]

@[simp] theorem wf_empty : Memory.wf {} = true := rfl

theorem wf_poke (l : List Byte) : ∀ (m : Ram) (a : Nat), Memory.wf m = true → Memory.wf (m.poke a l) = true := by
  induction l with
  | nil => intro m a h; exact h
  | cons b t ih =>
    intro m a h
    rw [Ram.poke]
    apply ih
    rw [wf_iff] at h ⊢
    exact ⟨tableWf_tset _ _ h.1, h.2⟩

theorem wf_setWord {m : Ram} (w : Nat) (d : BitVec 128) (s : BitVec 16) (h : Memory.wf m = true) :
    Memory.wf (m.setWord w d s) = true := by
  have h1 := (wf_iff _).1 (wf_poke (leBytes 16 d.toNat) m (16 * w) h)
  rw [wf_iff]
  exact ⟨h1.1, tableWf_tset _ _ h1.2⟩

theorem wf_poison {m : Ram} (w : Nat) (h : Memory.wf m = true) : Memory.wf (m.poison w) = true := wf_setWord _ _ _ h

theorem wf_mergeWord {m : Ram} (w o : Nat) (l : List Byte) (h : Memory.wf m = true) : Memory.wf (m.mergeWord w o l) = true := by
  unfold Ram.mergeWord
  split
  · exact wf_setWord _ _ _ h
  · split
    · exact wf_poison _ h
    · exact wf_setWord _ _ _ h

theorem wf_mergeN (n : Nat) : ∀ (m : Ram) (a : Nat) (l : List Byte), Memory.wf m = true → Memory.wf (m.mergeN n a l) = true := by
  induction n with
  | zero => intro m a l h; exact h
  | succ n ih =>
    intro m a l h
    unfold Ram.mergeN
    split
    · exact h
    · exact ih _ _ _ (wf_mergeWord _ _ _ h)

theorem wf_write {m : Ram} (a : Nat) (l : List Byte) (h : Memory.wf m = true) : Memory.wf (m.write a l) = true :=
  wf_mergeN _ _ _ _ h

theorem wf_erase {m : Ram} (a n : Nat) (h : Memory.wf m = true) : Memory.wf (m.erase a n) = true := by
  rw [wf_iff] at h ⊢
  exact ⟨tableWf_filter _ h.1, tableWf_filter _ h.2⟩

theorem wf_putCodes (l : List Code) : ∀ (m : Ram) (w : Nat), Memory.wf m = true → Memory.wf (m.putCodes w l) = true := by
  induction l with
  | nil => intro m w h; exact h
  | cons c t ih => intro m w h; exact ih _ _ (wf_setWord _ _ _ h)

/-- A fold of steps that keep the form keeps it. -/
theorem wf_foldl (f : Ram → α → Ram) (hf : ∀ m x, Memory.wf m = true → Memory.wf (f m x) = true) (l : List α) :
    ∀ m : Ram, Memory.wf m = true → Memory.wf (l.foldl f m) = true := by
  induction l with
  | nil => intro m h; exact h
  | cons x t ih => intro m h; exact ih _ (hf _ _ h)

theorem wf_putSector {m : Ram} (n : Nat) (x : Sector) (h : Memory.wf m = true) : Memory.wf (m.putSector n x) = true := by
  refine wf_foldl _ (fun m i hm => ?_) _ _ h
  split
  · exact wf_poison _ hm
  · exact wf_setWord _ _ _ hm

/-- A byte after bytes were laid down without touching the codes. -/
theorem byte_poke (l : List Byte) : ∀ (m : Ram) (a k : Nat), Memory.wf m = true →
    (m.poke a l).byte k = if a ≤ k ∧ k < a + l.length then l.getD (k - a) 0 else m.byte k := by
  induction l with
  | nil => intro m a k _; simp [Ram.poke, show ¬(a ≤ k ∧ k < a) by omega]
  | cons b t ih =>
    intro m a k h
    have h' : Memory.wf { m with cells := tset m.cells a b } = true := by
      rw [wf_iff] at h ⊢; exact ⟨tableWf_tset _ _ h.1, h.2⟩
    rw [Ram.poke, ih _ _ _ h']
    have hc := ((wf_iff m).1 h).1
    simp only [Ram.byte, tget_tset a k b hc, List.length_cons]
    by_cases h1 : k = a
    · subst h1; simp [show ¬(k + 1 ≤ k) by omega]
    · by_cases h2 : a + 1 ≤ k ∧ k < a + 1 + t.length
      · rw [if_pos h2, if_pos (by omega), show k - a = k - (a + 1) + 1 by omega, List.getD_cons_succ]
      · rw [if_neg h2, if_neg h1, if_neg (by omega)]

@[simp] theorem length_leBytes (n x : Nat) : (leBytes n x).length = n := by
  induction n generalizing x with
  | zero => rfl
  | succ n ih => simp [leBytes, ih]

/-- Byte `i` of a little-endian string. -/
theorem leBytes_getD (n : Nat) : ∀ (x i : Nat), i < n → (leBytes n x).getD i 0 = BitVec.ofNat 8 (x / 256 ^ i) := by
  induction n with
  | zero => intro x i h; omega
  | succ n ih =>
    intro x i h
    cases i with
    | zero => simp [leBytes]
    | succ i => rw [leBytes, List.getD_cons_succ, ih _ _ (by omega), Nat.div_div_eq_div_mul, Nat.pow_succ, Nat.mul_comm]

/-- A byte after a word was stored: those of the word, every other as before. -/
theorem byte_setWord {m : Ram} (w : Nat) (d : BitVec 128) (s : BitVec 16) (k : Nat) (h : Memory.wf m = true) :
    (m.setWord w d s).byte k = if k / 16 = w then BitVec.ofNat 8 (d.toNat / 256 ^ (k % 16)) else m.byte k := by
  have e : (m.setWord w d s).byte k = (m.poke (16 * w) (leBytes 16 d.toNat)).byte k := by
    simp only [Ram.byte, Ram.setWord]
  rw [e, byte_poke _ _ _ _ h, length_leBytes]
  by_cases hw : k / 16 = w
  · rw [if_pos hw, if_pos (by omega), leBytes_getD _ _ _ (by omega), show k - 16 * w = k % 16 by omega]
  · rw [if_neg hw, if_neg (by omega)]

/-- Laying bytes down leaves the codes alone. -/
theorem marks_poke (l : List Byte) : ∀ (m : Ram) (a : Nat), (m.poke a l).marks = m.marks := by
  induction l with
  | nil => intro m a; rfl
  | cons b t ih => intro m a; rw [Ram.poke, ih]

theorem marks_setWord (m : Ram) (w : Nat) (d : BitVec 128) (s : BitVec 16) :
    (m.setWord w d s).marks = tset m.marks w s := by
  simp only [Ram.setWord, marks_poke]

theorem mark_tset (m : Ram) (w k : Nat) (s : BitVec 16) (h : Memory.wf m = true) :
    tget (tset m.marks w s) k = if k = w then s else m.mark k := by
  have hm := ((wf_iff m).1 h).2
  unfold Ram.mark
  exact tget_tset w k s hm

/-- The syndrome of a word after a word was stored. -/
theorem mark_setWord {m : Ram} (w : Nat) (d : BitVec 128) (s : BitVec 16) (k : Nat) (h : Memory.wf m = true) :
    (m.setWord w d s).mark k = if k = w then s else m.mark k := by
  have e : (m.setWord w d s).mark k = tget (tset m.marks w s) k := by rw [Ram.mark, marks_setWord]
  exact e.trans (mark_tset m w k s h)

/-- The bytes of one word after another word was stored are as before. -/
theorem word_setWord_ne {m : Ram} {w k : Nat} (d : BitVec 128) (s : BitVec 16) (h : Memory.wf m = true) (hk : k ≠ w) :
    (m.setWord w d s).word k = m.word k := by
  have e : (m.setWord w d s).bytes (16 * k) 16 = m.bytes (16 * k) 16 := by
    apply List.map_congr_left
    intro i hi
    have := List.mem_range.1 hi
    exact (byte_setWord w d s _ h).trans (if_neg (by omega))
  unfold Ram.word Ram.nat
  rw [e]

theorem leNat_leBytes (n : Nat) : ∀ x, leNat (leBytes n x) = x % 256 ^ n := by
  induction n with
  | zero => intro x; simp [leBytes, leNat, Nat.mod_one]
  | succ n ih =>
    intro x
    have e : (BitVec.ofNat 8 x).toNat = x % 256 := by simp
    rw [leBytes, leNat, ih, e, Nat.pow_succ, Nat.mul_comm (256 ^ n), Nat.mod_mul]

/-- The word just stored reads back. -/
theorem word_setWord_self {m : Ram} (w : Nat) (d : BitVec 128) (s : BitVec 16) (h : Memory.wf m = true) :
    (m.setWord w d s).word w = d := by
  have e : (m.setWord w d s).bytes (16 * w) 16 = leBytes 16 d.toNat := by
    apply List.ext_getElem
    · simp [Ram.bytes]
    · intro i h1 h2
      have hi : i < 16 := by simpa [Ram.bytes] using h1
      have hb := leBytes_getD 16 d.toNat i hi
      rw [List.getD_eq_getElem _ _ h2] at hb
      rw [hb]
      simp only [Ram.bytes, List.getElem_map, List.getElem_range]
      rw [byte_setWord _ _ _ _ h, if_pos (by omega), show (16 * w + i) % 16 = i by omega]
  unfold Ram.word Ram.nat
  rw [e, leNat_leBytes]
  have hd : d.toNat % 256 ^ 16 = d.toNat := Nat.mod_eq_of_lt (by have := d.isLt; simpa using this)
  rw [hd, BitVec.ofNat_toNat, BitVec.setWidth_eq]

end Sys2Proof.Laws
end

