-- ==== Sys2Proof/WellFormed.lean ====
section
/-! DEFINITION. Well-formed commands: every operand within the range the manual gives it. -/

namespace Sys2Proof

/-- A start report gives the 8 KiB of the PUF array, and names Facets, pins of pseudo-channels, stacks, dies and NAND blocks that
exist. -/
def StartReport.wf (x : StartReport) : Bool :=
  decide (x.puf.length = 8192) &&
  x.badFacets.all (fun f => decide (f < 208)) && x.badPins.all (fun k => decide (k.1 < 768 ∧ k.2 < 36)) &&
  x.badStacks.all (fun k => decide (k < 12)) && x.badDies.all (fun d => decide (d < 6)) &&
  x.badBlocks.all (fun b => decide (b.1 < 64 ∧ b.2.1 < 4 ∧ b.2.2 < 4096))

/-- A command whose operands are all in range. -/
def Instr.wf : Instr → Bool
  | .mov f slot | .movs f slot | .iadd f slot | .isub f slot | .imul f slot | .imulh f slot | .imad f slot
  | .imin f slot | .imax f slot | .iabs f slot | .and f slot | .or f slot | .xor f slot | .not f slot | .shl f slot
  | .shr f slot | .sar f slot | .popc f slot | .clz f slot | .icmp f slot | .sel f slot | .iadd64 f slot
  | .imad64 f slot | .fadd f slot | .fmul f slot | .ffma f slot | .fmin f slot | .fmax f slot | .fcmp f slot
  | .fabs f slot | .rcp f slot | .rsq f slot | .sqrt f slot | .exp2 f slot | .log2 f slot | .sin f slot | .cos f slot
  | .exp f slot | .act f slot | .actd f slot | .cvt f slot | .i2i f slot | .shfl f slot | .shflP f slot
  | .bswz f slot | .pack f slot | .unpk f slot | .vote f slot | .ld f slot | .lds f slot | .st f slot | .hint f slot
  | .atom f slot | .acq f slot | .rel f slot | .fence f slot | .bra f slot | .exit f slot | .groupSlotRelease f slot
  | .joinWait f slot | .joinPass f slot | .trap f slot | .fretRetry f slot | .fretSkip f slot | .fretAbort f slot
  | .nop f slot | .tmLd f slot | .tmSt f slot | .tmWait f slot | .mmaH f slot | .mmaB f slot | .mmaQ f slot
  | .mmaF f slot | .mmaSr f slot | .mmaSw f slot | .redg f slot | .redb f slot | .redR f slot | .old f slot
  | .ost f slot | .progressStall f slot | .haltTakesEffect f slot | .unassignedOpcode f slot | .fetchPastRange f slot =>
    decide (f < 208) && decide (slot < 64)
  | .tmLineRequest f | .vectorPortServe f | .rduAccept f | .facetFault f =>
    decide (f < 208)
  | .prismAccept f q | .prismLastBeat f q | .outputStageAccept f q =>
    decide (f < 208) && decide (q < 4)
  | .opcRequestAged f client bank _ =>
    decide (f < 208) && decide (client < 6) && decide (bank < 32)
  | .blockDispatch _ | .lineDataReturn _ | .storeAck _ | .dbgHalt | .dbgResume | .dbgStep | .dbgDataRead
  | .dbgDataWrite _ | .dbgEnableWrite _ | .hullRepresent _ | .agentRead _ _ | .agentWrite _ _ | .pinCmdRun
  | .memVerifyWrite _ | .hbmInjectWrite _ | .egressAccept _ | .cxlMemRead _ _ | .birsp _ _ | .launchComplete _
  | .flrPf0 | .storeScrubPass | .gnGenSelWrite _ | .gnRestore _ | .gnRestoreCancel | .restoreComplete
  | .decAnswerWrite _ | .spareTakeWrite _ | .edgeUeRateExceeded | .moduleFault | .lifePersist | .lifeSample
  | .lifeSelWrite _ | .xtalStable | .xtalTimeout | .xtalLoss | .chordRefclkLoss | .refclkLoss | .inletLimit _
  | .fastCurrentClamp _ | .clampRelease _ | .limiterPeriod _ _ _ | .windowPeriod _ | .levelWindowEnd _ | .ppHeartbeat
  | .ppHeartbeatTimeout | .deratingStep _ | .supplyWarning _ | .supplyRelease _ | .nRampStep | .supplyHold
  | .supplyReset _ | .pwrCmdP0 | .pwrCmdS1 | .pwrCmdS2 | .powerEntryComplete | .wakeSense | .inletWake _
  | .wakeComplete | .gateCmdWrite _ | .levelCfgWrite _ | .supplyFirst47v | .inrushLimitEnd | .modResetAssert
  | .modResetRelease | .hostPerstAssert | .hostPerstRelease | .warmEntryComplete | .fwStageComplete | .fwActivate
  | .handoverPhaseDone | .fwCommitSvn | .fwDataWrite _ | .fwRecoveryEnd | .resetCtrlWarm | .resetCtrlCold
  | .logSelWrite _ | .i3cOffsetWrite _ | .i3cRead _ | .rstdaa | .getpid | .getbcr | .getdcr | .getstatus | .cxlLinkUp
  | .doeRequest _ =>
    true
  | .hullRequestAccept _ tag way =>
    decide (tag < 3) && decide (way < 16)
  | .fillSectorArrival _ sector =>
    decide (sector < 16)
  | .pinCmdPin j | .pinCmdUnpin j | .tgPeriodEnd j | .hullQuotaWrite j _ | .hullTgCfgWrite j _ | .frontEndWake j
  | .tenEnable j | .tenDisable j | .tenCtrlReset j | .tenSelfReset j | .flrVf j | .tenantResetComplete j
  | .srSeedHiWrite j _ | .drainAbortStore j | .tenantRecoveryReset j =>
    decide (1 ≤ j ∧ j ≤ 16)
  | .sinkWrite k pc | .serviceWindowStart k pc _ | .remapCopyDone k pc | .nmaApply k pc =>
    decide (k < 12) && decide (pc < 64)
  | .demandRead k pc noise | .scrubStep k pc noise =>
    decide (k < 12) && decide (pc < 64) && noise.all (fun e => decide (e.1 < 8 ∧ e.2.1 < 36 ∧ e.2.2 < 16))
  | .refresh k pc bank =>
    decide (k < 12) && decide (pc < 64) && decide (bank < 16)
  | .refreshRateChange k _ =>
    decide (k < 12)
  | .rowRemapStart k pc bank row =>
    decide (k < 12) && decide (pc < 64) && decide (bank < 16) && decide (row < 40960)
  | .portTraining p | .trainingComplete p _ _ _ | .flitTransmit p | .portDown p | .positionClaim p | .portUp p
  | .rdReq p | .wrReq p | .ingressWriteAccept p | .nmaReq p | .rdResp p | .ack p | .coll p | .ckpt p
  | .linkSilenceTimeout p | .failoverDecision p | .retrainAttempt p | .portCmdRetrainFull p
  | .portCmdRetrainReduced p | .portCmdKeepOut p | .resetCtrlPort p =>
    decide (p < 36)
  | .dataFlit p bytes fec | .idleFlit p bytes fec | .retryReq p bytes fec =>
    decide (p < 36) && (bytes.length == 256) && decide (fec < 545 * 545)
  | .laneSignalLoss p lane =>
    decide (p < 36) && decide (lane < 4)
  | .chordFnPosWrite j _ | .remoteTimeout j _ | .drainComplete j | .hifSelectWrite j _ | .pageProgramDone j _ =>
    decide (j ≤ 16)
  | .collTimeout j g =>
    decide (j ≤ 16) && decide (g < 8)
  | .windowWrite j addr _ _ =>
    decide (j ≤ 16) && decide (addr < 65536)
  | .cxlMemWrite _ bytes _ _ =>
    (bytes.length == 64)
  | .launch j r | .codeLoad j r | .drain j r | .allreduce j r | .reduceScatter j r | .allgather j r | .alltoall j r
  | .broadcast j r | .send j r | .recv j r | .lowrank j r | .lowrankCont j r | .remoteRd j r | .remoteWr j r
  | .remoteNma j r | .mark j r | .lower j r | .locusCfgWrite j r _ =>
    decide (1 ≤ j ∧ j ≤ 16) && decide (r < 64)
  | .codeLoadComplete j r seq | .lowerComplete j r seq =>
    decide (1 ≤ j ∧ j ≤ 16) && decide (r < 64) && decide (seq < 65536)
  | .decisionWaitExpire fn _ =>
    decide (1 ≤ fn ∧ fn ≤ 9)
  | .pllLock pll | .pllUnlock pll =>
    decide (pll < 12)
  | .originRelockTimeout die | .junctionThrottle _ die | .throttleRelease _ die | .junctionTrip _ die
  | .thermalRelease _ die _ =>
    decide (die < 6)
  | .pllRetune island _ _ =>
    decide (island < 10)
  | .startComplete x =>
    x.wf
  | .procCrash proc _ | .procRestart proc | .procRestartTimeout proc =>
    decide (proc < 3)
  | .fwStage slot | .fwRecoveryBegin slot =>
    decide (slot < 2)
  | .resetCtrlFacet die mm =>
    decide (die < 4) && decide (mm < 52)
  | .entdaa addr | .setdasa addr =>
    decide (addr < 128)
  | .windowBadSizeRead j addr size =>
    decide (j ≤ 16) && decide (addr < 65536) && (size != 4 || addr % 4 != 0)
  | .blockEraseDone die plane block _ =>
    decide (die < 64) && decide (plane < 4) && decide (block < 4096)
  | .pageReadDone die plane block page retries _ bad =>
    decide (die < 64) && decide (plane < 4) && decide (block < 4096) && decide (page < 1024) && decide (retries < 9) && bad.all (fun b => decide (b < 4))

end Sys2Proof
end

