-- ==== Sys2Proof/Tests/Slice0.lean ====
section
/-! SUPPORT. Tests: well-formedness refuses an ill-formed term for each of its checks; results the manual's rules give by hand
on small states; and, for each statement with hypotheses, states and operands that meet them. -/

namespace Sys2Proof.Tests

open Sys2Proof Sys2Proof.Machine

set_option Elab.async false

/-! Well-formedness. Each check refuses a term that fails it alone. -/

/-- A start report in which nothing is wrong. -/
def cleanStart : StartReport :=
  { puf := List.replicate 8192 0, badFacets := [], badPins := [], badStacks := [], badDies := [], badBlocks := [] }

theorem test_wf_accepts : Instr.wf (.iadd 207 63) = true ∧ Instr.wf (.prismAccept 207 3) = true ∧
    Instr.wf (.opcRequestAged 207 5 31 true) = true ∧ Instr.wf (.hullRequestAccept 0 2 15) = true ∧
    Instr.wf (.pinCmdPin 16) = true ∧ Instr.wf (.sinkWrite 11 63) = true ∧
    Instr.wf (.rowRemapStart 11 63 15 40959) = true ∧ Instr.wf (.startComplete cleanStart) = true ∧
    Instr.wf (.launch 1 63) = true ∧ Instr.wf (.windowWrite 16 65532 4 0) = true := by decide +kernel

theorem test_wf_refuses_group : Instr.wf (.iadd 208 0) = false ∧ Instr.wf (.iadd 0 64) = false ∧
    Instr.wf (.facetFault 208) = false ∧ Instr.wf (.prismAccept 208 0) = false ∧ Instr.wf (.prismAccept 0 4) = false ∧
    Instr.wf (.opcRequestAged 208 0 0 true) = false ∧ Instr.wf (.opcRequestAged 0 6 0 true) = false ∧
    Instr.wf (.opcRequestAged 0 0 32 true) = false := by decide

theorem test_wf_refuses_hull : Instr.wf (.hullRequestAccept 0 3 0) = false ∧ Instr.wf (.hullRequestAccept 0 0 16) = false ∧
    Instr.wf (.fillSectorArrival 0 16) = false ∧ Instr.wf (.pinCmdPin 0) = false ∧ Instr.wf (.pinCmdPin 17) = false := by decide

theorem test_wf_refuses_memory : Instr.wf (.sinkWrite 12 0) = false ∧ Instr.wf (.sinkWrite 0 64) = false ∧
    Instr.wf (.demandRead 12 0 []) = false ∧ Instr.wf (.demandRead 0 64 []) = false ∧
    Instr.wf (.demandRead 0 0 [(8, 0, 0)]) = false ∧ Instr.wf (.demandRead 0 0 [(0, 36, 0)]) = false ∧
    Instr.wf (.demandRead 0 0 [(0, 0, 16)]) = false ∧ Instr.wf (.refresh 12 0 0) = false ∧ Instr.wf (.refresh 0 64 0) = false ∧
    Instr.wf (.refresh 0 0 16) = false ∧ Instr.wf (.refreshRateChange 12 0) = false ∧
    Instr.wf (.rowRemapStart 12 0 0 0) = false ∧ Instr.wf (.rowRemapStart 0 64 0 0) = false ∧
    Instr.wf (.rowRemapStart 0 0 16 0) = false ∧ Instr.wf (.rowRemapStart 0 0 0 40960) = false := by decide

theorem test_wf_refuses_chord : Instr.wf (.portTraining 36) = false ∧ Instr.wf (.laneSignalLoss 36 0) = false ∧
    Instr.wf (.laneSignalLoss 0 4) = false ∧ Instr.wf (.dataFlit 36 (List.replicate 256 0) 0) = false ∧
    Instr.wf (.dataFlit 0 (List.replicate 255 0) 0) = false ∧ Instr.wf (.dataFlit 0 (List.replicate 256 0) (545 * 545)) = false ∧
    Instr.wf (.chordFnPosWrite 17 0) = false ∧ Instr.wf (.collTimeout 17 0) = false ∧ Instr.wf (.collTimeout 0 8) = false := by
  decide +kernel

theorem test_wf_refuses_host : Instr.wf (.windowWrite 17 0 4 0) = false ∧ Instr.wf (.windowWrite 0 65536 4 0) = false ∧
    Instr.wf (.cxlMemWrite 0 [] 0 false) = false ∧ Instr.wf (.launch 0 0) = false ∧ Instr.wf (.launch 17 0) = false ∧
    Instr.wf (.launch 1 64) = false ∧ Instr.wf (.codeLoadComplete 0 0 0) = false ∧ Instr.wf (.codeLoadComplete 1 64 0) = false ∧
    Instr.wf (.codeLoadComplete 1 0 65536) = false ∧ Instr.wf (.decisionWaitExpire 0 0) = false ∧
    Instr.wf (.decisionWaitExpire 10 0) = false ∧ Instr.wf (.windowBadSizeRead 17 0 2) = false ∧
    Instr.wf (.windowBadSizeRead 0 65536 2) = false ∧ Instr.wf (.windowBadSizeRead 0 0 4) = false ∧
    Instr.wf (.entdaa 128) = false := by decide

theorem test_wf_refuses_module : Instr.wf (.pllLock 12) = false ∧ Instr.wf (.junctionThrottle 0 6) = false ∧
    Instr.wf (.pllRetune 10 0 0) = false ∧ Instr.wf (.procCrash 3 0) = false ∧ Instr.wf (.fwStage 2) = false ∧
    Instr.wf (.resetCtrlFacet 4 0) = false ∧ Instr.wf (.resetCtrlFacet 0 52) = false ∧
    Instr.wf (.blockEraseDone 64 0 0 true) = false ∧ Instr.wf (.blockEraseDone 0 4 0 true) = false ∧
    Instr.wf (.blockEraseDone 0 0 4096 true) = false ∧ Instr.wf (.pageReadDone 64 0 0 0 0 0 []) = false ∧
    Instr.wf (.pageReadDone 0 4 0 0 0 0 []) = false ∧ Instr.wf (.pageReadDone 0 0 4096 0 0 0 []) = false ∧
    Instr.wf (.pageReadDone 0 0 0 1024 0 0 []) = false ∧ Instr.wf (.pageReadDone 0 0 0 0 9 0 []) = false ∧
    Instr.wf (.pageReadDone 0 0 0 0 0 0 [4]) = false := by decide

theorem test_wf_refuses_start : Instr.wf (.startComplete { cleanStart with badFacets := [208] }) = false ∧
    Instr.wf (.startComplete { cleanStart with badPins := [(768, 0)] }) = false ∧
    Instr.wf (.startComplete { cleanStart with badStacks := [12] }) = false ∧
    Instr.wf (.startComplete { cleanStart with badBlocks := [(64, 0, 0)] }) = false ∧
    Instr.wf (.startComplete { cleanStart with badBlocks := [(0, 4, 0)] }) = false ∧
    Instr.wf (.startComplete { cleanStart with badBlocks := [(0, 0, 4096)] }) = false ∧
    Instr.wf (.startComplete { cleanStart with puf := [] }) = false := by decide +kernel

/-- The table gives no row a bit: a word spells no command, and nothing is put in the queue. -/
theorem test_no_word_spells_a_command : decodeTableWord 0 0 = none ∧ State.reset.withFetchWord 64 0x1234 = State.reset := by
  decide

/-! A group about to issue. -/

/-- An instruction word from its fields (R97, R98). -/
def ins (fmt op type mod d a b c ext : Nat) (w1 : DWord := 0) (guard : Nat := 0) : Ins where
  w0 := BitVec.ofNat 64 (guard <<< 59 ||| fmt <<< 56 ||| op <<< 48 ||| type <<< 44 ||| mod <<< 40 ||| d <<< 32 ||| a <<< 24 |||
    b <<< 16 ||| c <<< 8 ||| ext)
  w1 := w1

/-- A launch of function 1 with 1 KiB of code at offset 0, v0 to v63 and 64 KiB of OPC; Ralelle where asked. -/
def kernel (ralelle : Bool := false) : Launch :=
  { id := 0, fn := 1, ring := 0, seq := 0, codeBase := 0, codeLen := 1024, h := 63, g := 2, o := 65536, ralelle := ralelle
    nblocks := 1, param := 0, seedLo := 0, seedHi := 0, seeded := false, next := 1, live := 1 }

/-- Group 0 of block 0, with the values of v2, v6 and v8 in lane 0 given. -/
def grp (a b c : Word := 0) (active : Word := 1) : Group :=
  { vf := 1, launch := 0, block := 0, gidx := 0, pc := 32, active := active
    v := [(64, a), (192, b), (256, c)].filter (fun e => e.2 != 0) }

/-- Facet 0 holds the group in slot 0, its code store the instruction at the group's offset. -/
def at' (i : Ins) (g : Group := grp) (k : Launch := kernel) (b : Block := { vf := 1, launch := 0, index := 0, g := 2, granules := 4 }) :
    State := { State.reset with
  now := 1000
  power := { xtalOk := true, rcActive := false, originLock := 0x3F }
  boot := { phase := .running, mpUp := true, ppUp := true, spUp := true, seen47 := true, sealed := true }
  side := { cxlUp := true }
  hbm := { trained := true }
  locusOpen := true
  positions := [some 0, some 1]
  launches := [k]
  facets := [(0, { groups := [(0, g)], blocks := [(0, b)]
                   code := ({} : Ram).poke 32 (leBytes 8 i.w0.toNat ++ leBytes 8 i.w1.toNat) })]
  fns := [(0, { regs := [(Reg.tenCtrl 1, 0x80000000), (Reg.tenFacets 1 0, 3), (Reg.tenRegionA 1 0, 0x80000000), (Reg.tenRegionB 1 0, 0x4000)] })] }

/-- The conditions of AtIssue as one test. -/
def ready (s : State) (f slot : Nat) (g : Group) (i : Ins) (vs us dv : List Nat) (ds : List Nat := []) : Bool :=
  s.group? f slot == some g && g.canIssue && s.facetRuns f && s.inCode g g.pc && s.fetchIns f g == some i &&
    (i.fmt != 4 || s.inCode g (g.pc + 8)) && !s.stallDue g && !g.owes vs us && !g.unread ds && s.codeFixes f g i == 0 &&
    (g.lanes i == 0 || g.deferred.all (fun d => !d.vregs.any dv.contains))

theorem atIssue_of_ready {s : State} {f slot : Nat} {g : Group} {i : Ins} {vs us dv ds : List Nat}
    (h : ready s f slot g i vs us dv ds = true) : AtIssue s f slot g i vs us dv ds := by
  simp only [ready, Bool.and_eq_true, beq_iff_eq, Bool.or_eq_true, Bool.not_eq_true', bne_iff_ne, ne_eq, List.all_eq_true] at h
  obtain ⟨⟨⟨⟨⟨⟨⟨⟨⟨⟨h1, h2⟩, h3⟩, h4⟩, h5⟩, h6⟩, h9⟩, h7⟩, h10⟩, h11⟩, h8⟩ := h
  exact ⟨⟨h1, h2, h3, h4, h5, fun hf => h6.resolve_left (fun hn => hn hf), h9, h7, h10, fun hn d hd => h8.resolve_left hn d hd⟩, h11⟩

/-- The conditions of AluAtIssue as one test. -/
def aluReady (s : State) (f slot : Nat) (g : Group) (i : Ins) (h : Shape) : Bool :=
  let src := regSets (h.sources i)
  let dst := if h.dest = 0 then ([], []) else regSets [h.target i]
  ready s f slot g i (src.1 ++ dst.1) (src.2 ++ dst.2) src.1 dst.1

theorem aluAtIssue_of_ready {s : State} {f slot : Nat} {g : Group} {i : Ins} {h : Shape}
    (hr : aluReady s f slot g i h = true) : AluAtIssue s f slot g i h := atIssue_of_ready hr

/-- The state after a command that answers a next state. -/
def after (c : Instr) (s : State) : State :=
  match exec c s with
  | .next t => t
  | _ => { s with now := 0 }

/-- v4 of the group after one instruction on v2, v6, v8. -/
def v4After (c : Nat → Nat → Instr) (i : Ins) (a b d : Word := 0) : Word :=
  match (after (c 0 0) (at' i (grp a b d))).group? 0 0 with
  | some g => tget g.v 128
  | none => 0xDEAD

/-! Results by hand, one lane. The instruction words are `ins format op type mod d a b c ext`; v2, v6 and v8 are A, B and C. -/

theorem test_moves : v4After .mov (ins 0 0x00 0 0 4 2 0 0 0) 0x89ABCDEF = 0x89ABCDEF ∧
    v4After .mov (ins 0 0x00 0 0 4 255 0 0 0) 7 = 0 ∧ v4After .movs (ins 0 0x01 0 0 4 2 0 0 0) = 2 := by decide +kernel

theorem test_adders : v4After .iadd (ins 0 0x02 0 0 4 2 6 0 0) 0xFFFFFFFF 2 = 1 ∧
    v4After .iadd (ins 1 0x02 0 0 4 2 0xFF 0xFE 0) 5 = 3 ∧ v4After .isub (ins 0 0x03 0 0 4 2 6 0 0) 1 2 = 0xFFFFFFFF ∧
    v4After .imad (ins 0 0x06 0 0 4 2 6 8 0) 0x10000 0x10000 9 = 9 := by decide +kernel

theorem test_products : v4After .imul (ins 0 0x04 0 0 4 2 6 0 0) 0x10001 0x10001 = 0x20001 ∧
    v4After .imulh (ins 0 0x05 0 0 4 2 6 0 0) 0xFFFFFFFF 2 = 1 ∧
    v4After .imulh (ins 0 0x05 1 0 4 2 6 0 0) 0xFFFFFFFF 2 = 0xFFFFFFFF := by decide +kernel

theorem test_extremes : v4After .imin (ins 0 0x07 0 0 4 2 6 0 0) 0xFFFFFFFF 1 = 1 ∧
    v4After .imin (ins 0 0x07 1 0 4 2 6 0 0) 0xFFFFFFFF 1 = 0xFFFFFFFF ∧
    v4After .imax (ins 0 0x08 0 0 4 2 6 0 0) 0xFFFFFFFF 1 = 0xFFFFFFFF ∧ v4After .imax (ins 0 0x08 1 0 4 2 6 0 0) 0xFFFFFFFF 1 = 1 ∧
    v4After .iabs (ins 0 0x09 1 0 4 2 0 0 0) 0x80000000 = 0x80000000 ∧ v4After .iabs (ins 0 0x09 1 0 4 2 0 0 0) 0xFFFFFFF9 = 7 := by
  decide +kernel

theorem test_bits : v4After .and (ins 0 0x0A 0 0 4 2 6 0 0) 0xFF00FF00 0x0FF00FF0 = 0x0F000F00 ∧
    v4After .or (ins 0 0x0B 0 0 4 2 6 0 0) 0xFF00FF00 0x0FF00FF0 = 0xFFF0FFF0 ∧
    v4After .xor (ins 0 0x0C 0 0 4 2 6 0 0) 0xFF00FF00 0x0FF00FF0 = 0xF0F0F0F0 ∧
    v4After .not (ins 0 0x0D 0 0 4 2 0 0 0) 0xFF00FF00 = 0x00FF00FF := by decide +kernel

theorem test_shifts : v4After .shl (ins 0 0x0E 0 0 4 2 6 0 0) 3 33 = 6 ∧ v4After .shr (ins 0 0x0F 0 0 4 2 6 0 0) 0x80000000 31 = 1 ∧
    v4After .sar (ins 0 0x10 0 0 4 2 6 0 0) 0x80000000 31 = 0xFFFFFFFF ∧ v4After .sar (ins 0 0x10 0 0 4 2 6 0 0) 0x80000000 32 = 0x80000000 := by
  decide +kernel

theorem test_counts : v4After .popc (ins 0 0x11 0 0 4 2 0 0 0) 0xF000000F = 8 ∧ v4After .clz (ins 0 0x12 0 0 4 2 0 0 0) 0 = 32 ∧
    v4After .clz (ins 0 0x12 0 0 4 2 0 0 0) 1 = 31 := by decide +kernel

/-- p0 in lane 0 after a compare of v2 with v6. -/
def p0After (c : Nat → Nat → Instr) (i : Ins) (a b : Word := 0) : Bool :=
  match (after (c 0 0) (at' i (grp a b))).group? 0 0 with
  | some g => (tget g.p 0).getLsbD 0
  | none => false

theorem test_icmp : p0After .icmp (ins 0 0x13 0 2 0 2 6 0 0) 0xFFFFFFFF 1 = false ∧
    p0After .icmp (ins 0 0x13 1 2 0 2 6 0 0) 0xFFFFFFFF 1 = true ∧ p0After .icmp (ins 0 0x13 0 3 0 2 6 0 0) 5 5 = true := by
  decide +kernel

theorem test_fcmp : p0After .fcmp (ins 0 0x25 2 0 0 2 6 0 0) 0x80000000 0 = true ∧
    p0After .fcmp (ins 0 0x25 2 6 0 2 6 0 0) 0x7FC00000 0 = true ∧ p0After .fcmp (ins 0 0x25 2 5 0 2 6 0 0) 0x7FC00000 0 = false := by
  decide +kernel

/-- SEL takes B where the predicate is clear, A where it is set. -/
theorem test_sel : v4After .sel (ins 0 0x14 0 0 4 2 6 0 0) 1 2 = 2 ∧
    ((after (.sel 0 0) (at' (ins 0 0x14 0 0 4 2 6 7 0) { grp 1 2 with p := [(7, 1)] })).group? 0 0).map (fun g => tget g.v 128) = some 1 := by
  decide +kernel

theorem test_pairs : ((after (.iadd64 0 0) (at' (ins 0 0x15 0 0 4 2 6 0 0) (grp 0xFFFFFFFF 1))).group? 0 0).map
      (fun g => (tget g.v 128, tget g.v 160)) = some (0, 1) ∧
    ((after (.imad64 0 0) (at' (ins 0 0x16 0 0 4 2 6 8 0) (grp 0xFFFFFFFF 0xFFFFFFFF 1))).group? 0 0).map
      (fun g => (tget g.v 128, tget g.v 160)) = some (2, 0xFFFFFFFE) ∧
    ((after (.imad64 0 0) (at' (ins 0 0x16 1 0 4 2 6 8 0) (grp 0xFFFFFFFF 0xFFFFFFFF 1))).group? 0 0).map
      (fun g => (tget g.v 128, tget g.v 160)) = some (2, 0) := by decide +kernel

/-- 1 + 1; 1 + 2^-24 ties to even, and rounds up toward plus infinity; 3 x 0.5; -(2^-24) + 1 x 1 fused and negated. -/
theorem test_float_sums : v4After .fadd (ins 0 0x20 2 0 4 2 6 0 0) 0x3F800000 0x3F800000 = 0x40000000 ∧
    v4After .fadd (ins 0 0x20 2 0 4 2 6 0 0) 0x3F800000 0x33800000 = 0x3F800000 ∧
    v4After .fadd (ins 0 0x20 2 2 4 2 6 0 0) 0x3F800000 0x33800000 = 0x3F800001 ∧
    v4After .fmul (ins 0 0x21 2 0 4 2 6 0 0) 0x40400000 0x3F000000 = 0x3FC00000 ∧
    v4After .ffma (ins 0 0x22 2 0 4 2 6 8 4) 0x3F800000 0x3F800000 0x33800000 = 0x3F7FFFFF := by decide +kernel

theorem test_float_picks : v4After .fmin (ins 0 0x23 2 0 4 2 6 0 0) 0x80000000 0 = 0x80000000 ∧
    v4After .fmax (ins 0 0x24 2 0 4 2 6 0 0) 0x7FC00000 0x3F800000 = 0x3F800000 ∧
    v4After .fabs (ins 0 0x26 2 0 4 2 0 0 0) 0xBF800000 = 0x3F800000 := by decide +kernel

theorem test_special : v4After .rcp (ins 0 0x40 2 0 4 2 0 0 0) 0x40000000 = 0x3F000000 ∧
    v4After .sqrt (ins 0 0x42 2 0 4 2 0 0 0) 0x40800000 = 0x40000000 ∧ v4After .rsq (ins 0 0x41 2 0 4 2 0 0 0) 0xBF800000 = 0x7FC00000 ∧
    v4After .log2 (ins 0 0x44 2 0 4 2 0 0 0) 0xBF800000 = 0x7FC00000 ∧ v4After .sin (ins 0 0x45 2 0 4 2 0 0 0) 0x7F800000 = 0x7FC00000 ∧
    v4After .cos (ins 0 0x46 2 0 4 2 0 0 0) 0x7F800000 = 0x7FC00000 ∧ v4After .exp2 (ins 0 0x43 2 0 4 2 0 0 0) 0x7FC00000 = 0x7FC00000 ∧
    v4After .exp (ins 0 0x47 2 0 4 2 0 0 0) 0x7FC00000 = 0x7FC00000 := by decide +kernel

/-- ReLU of -1 and of 2; the gradient of ReLU at 2 is the incoming one, -1.5. -/
theorem test_act : v4After .act (ins 0 0x48 2 2 4 2 0 0 0) 0xBF800000 = 0 ∧ v4After .act (ins 0 0x48 2 2 4 2 0 0 0) 0x40000000 = 0x40000000 ∧
    v4After .actd (ins 0 0x49 2 2 4 2 6 0 0) 0x40000000 0xBFC0 = 0xBFC0 := by decide +kernel

/-- F32 to BF16 ties to even; S8 to S32 sign-extends; the byte reversal of R113; PACK of a byte; UNPK of a byte. -/
theorem test_conversions : v4After .cvt (ins 0 0x50 5 0 4 2 2 0 0) 0x3F808000 = 0x3F80 ∧
    v4After .i2i (ins 0 0x51 1 0 4 2 10 0 0) 0x80 = 0xFFFFFF80 ∧ v4After .bswz (ins 1 0x5A 0 0 4 2 0x00 0x53 0) 0x11223344 = 0x44332211 ∧
    v4After .pack (ins 0 0x5B 10 1 4 2 0 0 0) 0x1FF = 0xFF00 ∧ v4After .unpk (ins 0 0x5C 10 1 4 2 0 0 0) 0x8000 = 0xFFFFFF80 := by decide +kernel

/-- A group with all lanes, v2 holding the lane number. -/
def full : Group := { grp (active := 0xFFFFFFFF) with v := (List.range 32).map (fun l => (64 + l, BitVec.ofNat 32 l)) |>.drop 1 }

theorem test_shuffles : ((after (.shfl 0 0) (at' (ins 1 0x58 0 3 4 2 0 31 0) full)).group? 0 0).map (fun g => (tget g.v 128, tget g.v 159)) = some (31, 0) ∧
    ((after (.shflP 0 0) (at' (ins 1 0x59 0 2 4 2 0 1 0) { full with active := 0x7FFFFFFF })).group? 0 0).map
      (fun g => (tget g.v 128, tget g.v 158)) = some (1, 30) ∧
    ((after (.vote 0 0) (at' (ins 0 0x5D 0 2 4 1 0 0 0x80) { full with p := [(1, 0x80000001)] })).group? 0 0).map (fun g => tget g.u 4) =
      some 0x80000001 := by decide +kernel

/-! Witnesses of the instruction statements. -/

theorem witness_IntegerResults : (∀ e ∈ wordRules, let i := ins 0 e.op 1 0 4 2 6 8 0
      aluReady (at' i) 0 0 grp i e.shape = true ∧ i.op = e.op ∧ i.fmt ≤ 1 ∧
        aluChecks (at' i) grp e.shape i (ownInt i) = none ∧ rlxHeld (at' i) 0 0 i = false) ∧
    (∀ e ∈ [((0x15, { a := 2, b := 2, dest := 2 }) : Nat × Shape), (0x16, { a := 1, b := 1, c := 2, dest := 2 })],
      let i := ins 0 e.1 1 0 4 2 6 8 0
      aluReady (at' i) 0 0 grp i e.2 = true ∧ aluChecks (at' i) grp e.2 i (ownInt i) = none ∧ rlxHeld (at' i) 0 0 i = false) := by
  decide +kernel

theorem witness_IntegerResults_others :
    (let i := ins 0 0x13 1 5 7 2 6 0 0
     let h : Shape := { a := 1, b := 1, dest := 0 }
     aluReady (at' i) 0 0 grp i h = true ∧
       aluChecks (at' i) grp h i (decide (i.type ≤ 1) && decide (i.mod ≤ 5) && i.ext3 == 0) = none ∧ rlxHeld (at' i) 0 0 i = false) ∧
    (let i := ins 0 0x14 13 0 4 2 6 7 0
     let h : Shape := { a := 1, b := 1 }
     aluReady (at' i) 0 0 grp i h = true ∧ aluChecks (at' i) grp h i
       (decide (i.type ≤ 13) && i.mod == 0 && i.ext3 == 0 && !i.isI && decide (i.c < 8) && !i.uc && !i.ud) = none) ∧
    (let i := ins 0 0x01 0 0 4 11 0 0 0
     aluReady (at' i) 0 0 grp i {} = true ∧
       aluChecks (at' i) grp {} i (ownInt i && (specialValue (at' i) 0 0 grp i.a 0).isSome && !i.ua) = none) := by decide +kernel

theorem witness_IntegerResults_illegal :
    (∀ e ∈ [(8, 0), (0, 0x80)], let i := ins 0 0x13 0 0 e.1 2 6 0 e.2
      aluReady (at' i) 0 0 grp i { a := 1, b := 1, dest := 0 } = true ∧ i.fmt ≤ 1 ∧ (8 ≤ i.d ∨ i.ud = true)) ∧
    (∀ e ∈ [(0, 8, 0), (0, 0, 0x10), (0, 0, 0x80), (1, 0, 0)], let i := ins e.1 0x14 0 0 4 2 6 e.2.1 e.2.2
      aluReady (at' i) 0 0 grp i { a := 1, b := 1 } = true ∧ i.fmt ≤ 1 ∧ (8 ≤ i.c ∨ i.uc = true ∨ i.ud = true ∨ i.fmt = 1)) ∧
    (let i := ins 1 0x06 0 0 4 2 6 8 0
     aluReady (at' i) 0 0 grp i { a := 1, b := 1, c := 1 } = true ∧ i.fmt = 1) ∧
    (let i := ins 1 0x16 0 0 4 2 6 8 0
     aluReady (at' i) 0 0 grp i { a := 1, b := 1, c := 2, dest := 2 } = true ∧ i.fmt = 1) := by decide +kernel

/-- With the fields these rules ask for: F32, ACT and ACTD of ReLU. -/
theorem witness_FloatResultsAndRounding : (∀ e ∈ floatRules, let i := ins 0 e.op 2 3 4 2 6 8 0
      aluReady (at' i) 0 0 grp i (e.shape i) = true ∧ i.op = e.op ∧ i.fmt ≤ 1 ∧
        aluChecks (at' i) grp (e.shape i) i (e.own i) = none ∧ rlxHeld (at' i) 0 0 i = false) ∧
    (let i := ins 0 0x25 3 7 7 2 6 0 0
     let h : Shape := { a := fspan i, b := fspan i, dest := 0 }
     aluReady (at' i) 0 0 grp i h = true ∧ aluChecks (at' i) grp h i (floatType i && decide (i.mod ≤ 7)) = none) := by decide +kernel

theorem witness_SpecialFunctionResults : (∀ e ∈ specialRules, let i := ins 0 e.op 2 0 4 2 0 0 0
      aluReady (at' i) 0 0 grp i (e.shape i) = true ∧ i.op = e.op ∧ i.fmt ≤ 1 ∧
        aluChecks (at' i) grp (e.shape i) i (e.own i) = none ∧ rlxHeld (at' i) 0 0 i = false) ∧
    f32.decode 0x7FC00000 = .nan ∧ negative (f32.decode 0xBF800000) = true := by decide +kernel

theorem witness_MoveResults : ∀ e ∈ moveRules, let i := ins 0 e.op (if e.op = 0x5A then 0 else 10) 0 4 2 (if e.op = 0x51 then 1 else 6) 0 0
    aluReady (at' i) 0 0 grp i (e.shape i) = true ∧ i.op = e.op ∧ (e.shape i).formats.contains i.fmt = true ∧
      aluChecks (at' i) grp (e.shape i) i (e.own i) = none ∧ rlxHeld (at' i) 0 0 i = false := by decide +kernel

/-- SEL with TYPE F64; MOVS of LANE to a uniform register. -/
theorem witness_MoveResults_choices :
    (let i := ins 0 0x14 3 0 4 2 6 7 0
     aluReady (at' i) 0 0 grp i { a := 1, b := 1 } = true ∧ i.op = 0x14 ∧ i.fmt = 0 ∧ i.type = 3 ∧ i.mod = 0 ∧ i.ext3 = 0 ∧
       i.c < 8 ∧ i.uc = false ∧ i.ud = false ∧ aluChecks (at' i) grp { a := 1, b := 1 } i true = none ∧ rlxHeld (at' i) 0 0 i = false) ∧
    (let i := ins 0 0x01 0 0 4 0 0 0 0x80
     aluReady (at' i) 0 0 grp i {} = true ∧ i.op = 0x01 ∧ i.fmt ≤ 1 ∧ i.ud = true ∧ i.a = 0 ∧ i.ua = false ∧
       aluChecks (at' i) grp {} i (ownInt i) = none ∧ rlxHeld (at' i) 0 0 i = false) := by decide +kernel

theorem witness_ConversionResult : let i := ins 0 0x50 5 4 4 2 2 0 0
    aluReady (at' i) 0 0 grp i (cvtShape i) = true ∧ i.op = 0x50 ∧ i.fmt = 0 ∧
      aluChecks (at' i) grp (cvtShape i) i (decide (i.type ≤ 13) && decide (i.b ≤ 13) && !i.ub && i.ext3 == 0 && decide (i.mod % 8 ≤ 4) &&
        (i.mod % 8 != 4 || (decide (4 ≤ i.type) && decide (i.type ≤ 7)))) = none ∧
      rlxHeld (at' i) 0 0 i = false ∧ tableWf 32 grp.lfsr = true := by decide +kernel

theorem witness_ShuffleAndVote : (∀ e ∈ [((0, full) : Nat × Machine.Group), (0x10, full), (0x10, { full with p := [(0, 0xFFFFFFFF)] }),
        (0x10, { full with p := [(0, 1)] }), (0, { full with active := 1 })],
      let i := ins 1 0x58 0 3 4 2 0 31 0 0 e.1
      aluReady (at' i e.2) 0 0 e.2 i { a := 1, b := 1 } = true ∧ aluChecks (at' i e.2) e.2 { a := 1, b := 1 } i (ownShuffle i) = none) ∧
    full.uniformGuard (ins 1 0x58 0 3 4 2 0 31 0 0 0x10) = some false ∧
    full.uniformGuard (ins 1 0x58 0 3 4 2 0 31 0) = some true ∧ full.fullConverged = true ∧ full.lanes (ins 1 0x58 0 3 4 2 0 31 0) = BitVec.allOnes 32 ∧
    { full with p := [(0, 1)] }.uniformGuard (ins 1 0x58 0 3 4 2 0 31 0 0 0x10) = none ∧
    ({ full with active := 1 } : Machine.Group).fullConverged = false ∧
    (let i := ins 1 0x59 0 3 4 2 0 31 0
     aluReady (at' i full) 0 0 full i { a := 1, b := 1 } = true ∧ aluChecks (at' i full) full { a := 1, b := 1 } i (ownShuffle i) = none) ∧
    (let i := ins 0 0x5D 0 2 63 7 0 0 0x80
     ready (at' i full) 0 0 full i [] [i.d] [] = true ∧ (i.type == 0 && decide (i.mod ≤ 2) && i.ext == 0x80 && decide (i.a < 8) && i.b == 0 &&
       i.c == 0 && decide (i.d < 64)) = true ∧ full.lanes i ≠ 0) := by decide +kernel

/-- A Ralelle register of a kernel with OPC, read back. -/
theorem witness_RegisterForms : tableWf 32 grp.v = true ∧ tableWf 32 grp.u = true ∧
    (∃ b, (at' (ins 0 0 0 0 4 2 0 0 8) grp (kernel true)).block? 0 0 = some b ∧ Memory.wf b.opc = true ∧
      b.opc.bad (ralelleAt (at' (ins 0 0 0 0 4 2 0 0 8) grp (kernel true)) grp 31 31 / 16) = false) :=
  ⟨by decide, by decide, _, rfl, by decide +kernel, by decide +kernel⟩

/-! Memory instructions and control. -/

/-- The conditions of MemAtIssue as one test. -/
def memReady (s : State) (f slot : Nat) (g : Group) (i : Ins) (h : MemShape) : Bool :=
  let src := regSets (addrOp i :: (h.data.toList ++ h.cmp.toList))
  let dst := regSets h.dest.toList
  ready s f slot g i (src.1 ++ dst.1) (src.2 ++ dst.2) src.1 dst.1

theorem memAtIssue_of_ready {s : State} {f slot : Nat} {g : Group} {i : Ins} {h : MemShape}
    (hr : memReady s f slot g i h = true) : MemAtIssue s f slot g i h := atIssue_of_ready hr

/-- An instruction of each kind: the address in v2 and v3, four bytes. -/
def memIns (op type guard : Nat) : Ins := ins 2 op type 0 (if op = 0x63 then 0 else 4) 2 (if op = 0x70 then 6 else 0) 0 2 0 guard

theorem witness_MemoryInstructionsFormRequests : ∀ e ∈ memRules, ∀ guard ∈ [0, 0x10], let i := memIns e.op 0 guard
    let s := at' i (grp 0x40)
    memReady s 0 0 (grp 0x40) i (e.shape i) = true ∧ i.op = e.op ∧ i.fmt = 2 ∧ (e.shape i).checks s (grp 0x40) i (e.own i) = none ∧
      (guard = 0x10 → (grp 0x40).lanes i = 0) ∧ (guard = 0 → (grp 0x40).lanes i ≠ 0) ∧
      addrCheck s 1 (e.shape i).width (laneAddrs s 0 (grp 0x40) i (e.shape i).off) = none ∧ rlxHeld s 0 0 i = false ∧
      s.slotsFor 0 (linesOf ((e.shape i).accs s 0 (grp 0x40) (laneAddrs s 0 (grp 0x40) i (e.shape i).off))).length = true := by
  decide +kernel

theorem witness_MemoryInstructionsFormRequests_hint : ∃ e ∈ memRules, e.op = 0x63 ∧ let i := memIns e.op 0 0
    let s := at' i (grp 0x04000000)
    memReady s 0 0 (grp 0x04000000) i (e.shape i) = true ∧ i.fmt = 2 ∧ (e.shape i).checks s (grp 0x04000000) i (e.own i) = none ∧
      (grp 0x04000000).lanes i ≠ 0 ∧
      addrCheck s 1 (e.shape i).width (laneAddrs s 0 (grp 0x04000000) i (e.shape i).off) = some (13, 1, 0x04000000) := by decide +kernel

theorem witness_MemoryFaults : ∀ e ∈ memRules,
    (let i := memIns e.op 3 0
     memReady (at' i) 0 0 grp i (e.shape i) = true ∧ (e.shape i).checks (at' i) grp i (e.own i) = some 4) ∧
    (let i := memIns e.op 0 0
     let s := at' i (grp 0x41)
     memReady s 0 0 (grp 0x41) i (e.shape i) = true ∧ (e.shape i).checks s (grp 0x41) i (e.own i) = none ∧
       laneAddrs s 0 (grp 0x41) i (e.shape i).off = [(0, 0x41)] ∧ 0x41 % (e.shape i).width ≠ 0) ∧
    (let i := memIns e.op 0 0
     let s := at' i (grp 0x04000000)
     memReady s 0 0 (grp 0x04000000) i (e.shape i) = true ∧ laneAddrs s 0 (grp 0x04000000) i (e.shape i).off = [(0, 0x04000000)] ∧
       s.translate 1 0x03FFFFFF = some 0x03FFFFFF ∧ s.translate 1 0x04000000 = none) := by decide +kernel

theorem witness_MemoryInstructionsFormRequests_locks : ∀ acquire : Bool, let i := ins 2 (if acquire then 0x71 else 0x72) 0 0 0 2 0 0 2
    let s := at' i (grp 0x40)
    let h : MemShape := { kind := if acquire then .acq else .rel, width := 4, off := 0 }
    ready s 0 0 (grp 0x40) i (regSets [addrOp i]).1 (regSets [addrOp i]).2 (regSets [addrOp i]).1 = true ∧ i.fmt = 2 ∧
      h.checks s (grp 0x40) i (ownLock i && (if acquire then decide (i.d < 8) else i.d == 0 && i.imm == 0)) = none ∧
      (grp 0x40).lanes i ≠ 0 ∧ addrCheck s 1 4 (laneAddrs s 0 (grp 0x40) i 0) = none ∧
      s.slotsFor 0 (linesOf (h.accs s 0 (grp 0x40) (laneAddrs s 0 (grp 0x40) i 0))).length = true := by decide +kernel

/-- A load of one word puts the word's line and sector in a request. -/
theorem test_ld_forms_a_request : (after (.ld 0 0) (at' (memIns 0x60 0 0) (grp 0x1080))).reqs.map (fun r => (r.line, r.sectors, r.slot)) =
    [(2, 2, 0)] := by decide +kernel

/-- A misaligned store forms none, and faults with code 12. -/
theorem test_st_misaligned : let t := after (.st 0 0) (at' (memIns 0x62 0 0) (grp 0x42))
    t.reqs = [] ∧ t.regF 1 Reg.execFaultLast 29 22 = 12 := by decide +kernel

/-- A request of the group in slot 0 of Facet 0 for one word of a line. -/
def request (kind : ReqKind) (line : Nat) (stage : ReqStage) : LineReq :=
  { id := 7, f := 0, slot := 0, vf := 1, launch := 0, kind := kind, line := line, sectors := 1
    lanes := [{ lane := 0, addr := 2048 * line, taddr := 2048 * line, reg := 4, data := 5, cmp := 0 }]
    bytes := if kind = .store then (leBytes 4 5).mapIdx (fun k b => (k, b)) else [], pois := [], width := 4, signed := false, op := 0
    type := 0, use := 15, cls := 0, dead := false, token := 9, stage := stage
    result := if stage = .served then [(0, 5, false)] else [] }

theorem witness_FenceNopTrapAndIllegal : (let i := ins 0 0x73 0 0 0 0 0 0 0
     ready (at' i) 0 0 grp i [] [] [] = true ∧ i.fmt = 0 ∧ AtPoint (at' i) grp i ∧ field i.w0 47 0 = 0 ∧ grp.lanes i ≠ 0 ∧
       (at' i).storesOut 0 0 0 = false ∧ { at' i with reqs := [request .store 0 .served] }.storesOut 0 0 0 = true ∧
       ready { at' i with reqs := [request .store 0 .served] } 0 0 grp i [] [] [] = true) ∧
    (∀ ext ∈ [0, 1], let i := ins 0 0x86 0 0 0 0 0 0 ext
     ready (at' i) 0 0 grp i [] [] [] = true ∧ i.fmt = 0 ∧ (field i.w0 47 0 = 0 ↔ ext = 0)) ∧
    (∀ guard ∈ [0, 0x10], let i := ins 1 0x84 0 0 0 0 0x12 0x34 0 0 guard
     ready (at' i) 0 0 grp i [] [] [] = true ∧ i.fmt = 1 ∧ field i.w0 47 24 = 0 ∧ i.ext = 0 ∧ (grp.lanes i = 0 ↔ guard = 0x10)) ∧
    (let i := ins 0 0x17 0 0 0 0 0 0 0
     ready (at' i) 0 0 grp i [] [] [] = true ∧ assigned i = false) ∧
    (let g := { grp with pc := 1056 }
     (at' (ins 0 0 0 0 0 0 0 0 0) g).group? 0 0 = some g ∧ g.canIssue = true ∧ (at' (ins 0 0 0 0 0 0 0 0 0) g).facetRuns 0 = true ∧
       (at' (ins 0 0 0 0 0 0 0 0 0) g).inCode g 1056 = false ∧ (at' (ins 0 0 0 0 0 0 0 0 0) g).inCode g 1055 = true) := by
  refine ⟨⟨by decide +kernel, by decide +kernel, ?_, by decide +kernel, by decide +kernel, by decide +kernel, by decide +kernel, by decide +kernel⟩, by decide +kernel,
    by decide +kernel, by decide +kernel, by decide +kernel⟩
  intro _; exact ⟨rfl, fun _ w hw => absurd hw (by simp [grp])⟩

/-- TRAP 0x1234 leaves its immediate in the upper half of FAULT_INFO: R126. -/
theorem test_trap : let g := { grp with handler := none }
    let s := { at' (ins 1 0x84 0 0 0 0 0x12 0x34 0) g with fns := [(1, { regs := [(Reg.execFaultEntry, 0x80000100)] })] }
    ((after (.trap 0 0) s).group? 0 0).map (fun h => (h.pc, h.handler.map (fun x => (x.code, x.pc, x.info)))) =
      some (0x100, some (15, 32, 0x12340000)) := by decide +kernel

/-- Lane 0 of 32 takes the branch; the offsets are signed multiples of 8 from the instruction. -/
def branch (target meet guard : Nat) : Ins := ins 3 0x80 0 0 (target / 256) (target % 256) (meet / 256) (meet % 256) 0 0 guard

def thirtyTwo : List StackEntry := List.replicate 32 { join := false, parked := false, rcv := 64, target := 48, mask := 1, eventsAt := 0 }

theorem witness_BranchResults : let inside (i : Ins) (g : Group) (x : Int) : Bool := decide (0 ≤ x) && (at' i g).inCode g x.toNat
    let near (g : Group) (i : Ins) : Bool := ready (at' i g) 0 0 g i [] [] [] && i.fmt == 3 && field i.w0 47 40 == 0 && i.ext == 0
    let target (i : Ins) : Int := codeOffset grp (field i.w0 39 24)
    let meet (i : Ins) : Int := codeOffset grp (field i.w0 23 8)
    let some1 : Group := { full with p := [(0, 1)] }
    (∀ e ∈ [((full, 0x10) : Group × Nat), (full, 0), (some1, 0x10), ({ some1 with stack := thirtyTwo }, 0x10)], let i := branch 2 4 e.2
      near e.1 i = true ∧ inside i e.1 (target i) = true ∧ inside i e.1 (meet i) = true) ∧
    full.lanes (branch 2 4 0x10) = 0 ∧ full.lanes (branch 2 4 0) = full.live ∧ some1.lanes (branch 2 4 0x10) = 1 ∧
    some1.depth < 32 ∧ 32 ≤ ({ some1 with stack := thirtyTwo } : Group).depth ∧
    (near full (branch 128 0 0) = true ∧ target (branch 127 0 0) = 1048 ∧ inside (branch 127 0 0) full 1048 = true ∧ inside (branch 128 0 0) full (target (branch 128 0 0)) = false) ∧
    near full (branch 0xFFFF 0 0) = true ∧ target (branch 0xFFFF 0 0) = 24 ∧ inside (branch 0xFFFF 0 0) full 24 = false ∧
    near full (branch 2 128 0x10) = true ∧ inside (branch 2 128 0x10) full (meet (branch 2 128 0x10)) = false := by decide +kernel

/-- The lanes that do not take the branch run on. -/
theorem test_bra_diverges : ((after (.bra 0 0) (at' (branch 2 4 0x10) { full with p := [(0, 1)] })).group? 0 0).map
    (fun g => (g.pc, g.active, g.stack.map (fun e => (e.target, e.rcv, e.mask)))) = some (40, 0xFFFFFFFE, [(48, 64, 1)]) := by decide +kernel

theorem witness_ExitRemovesLanes : let i := ins 0 0x81 0 0 0 0 0 0 0
    ready (at' i) 0 0 grp i [] [] [] = true ∧ AtPoint (at' i) grp i ∧ i.fmt = 0 ∧ field i.w0 47 0 = 0 ∧
      (∃ b, (at' i).block? 0 0 = some b ∧ b.barriers = []) ∧ grp.lanes i = grp.live :=
  ⟨by decide +kernel, fun _ => ⟨rfl, fun _ w hw => absurd hw (by simp [grp])⟩, by decide +kernel, by decide +kernel, ⟨_, rfl, rfl⟩, by decide +kernel⟩

theorem test_exit : ((after (.exit 0 0) (at' (ins 0 0x81 0 0 0 0 0 0 0))).group? 0 0).map (fun g => (g.exited, g.done)) = some (1, true) := by
  decide +kernel

/-- Inside a handler that was entered at a TRAP at offset 32 with an empty stack. -/
def handling (info : Word := 0) (stack : List StackEntry := []) : Group :=
  { grp with handler := some { code := 15, pc := 32, mask := 0xFF, lanes := 0xFF, addr := 0, info := info, depth := 0 }, stack := stack }

theorem witness_FaultEntry : (∀ g ∈ [grp, handling], (at' (ins 0 0 0 0 0 0 0 0 0) g).group? 0 0 = some g ∧ (at' (ins 0 0 0 0 0 0 0 0 0) g).debugOn 1 = false ∧
      ((((at' (ins 0 0 0 0 0 0 0 0 0) g).facet 0).groups.map (·.1)).Pairwise (· < ·))) ∧
    (((at' (ins 0 0 0 0 0 0 0 0 0)).setReg 1 Reg.execFaultEntry 0x80000100).reg 1 Reg.execFaultEntry).getLsbD 31 = true ∧
    ((at' (ins 0 0 0 0 0 0 0 0 0)).reg 1 Reg.execFaultEntry).getLsbD 31 = false ∧ handling.handler.isSome = true ∧
    (at' (ins 0 0 0 0 0 0 0 0 0)).launches = [kernel] ∧ kernel.id = grp.launch := by decide +kernel

/-- Two groups of one block, the second in slot 1. -/
def two (i : Ins) (g : Group) : State := let s := at' i g
  s.setGroup 0 1 { full with gidx := 1 }

theorem witness_JoinArrivals : ∀ waits : Bool, let i := ins 1 (if waits then 0x82 else 0x83) 0 0 0 63 0 15 0x40
    ready (two i full) 0 0 full i [] [i.a] [] = true ∧ i.fmt = 1 ∧
      (field i.w0 47 32 == 0 && i.ext == 0x40 && decide (i.imm < 16) && decide (i.a < 64)) = true ∧
      ((two i full).block? 0 0).map (·.barriers) = some [] ∧ full.uniformGuard i = some true ∧ full.joinConverged = true ∧
      (two i full).joinHeld 0 0 full = false ∧ (participants (tget full.u 63).toNat 2).testBit 0 = true ∧
      (participants 2 2).testBit 0 = false ∧ (participants 0 2).testBit 1 = true ∧ (1, { full with gidx := 1 }) ∈ (two i full).blockGroups 0 0 ∧
      full.deferred = [] ∧ full.writes = [] ∧ ({ full with active := 1 } : Group).joinConverged = false ∧
      { full with u := [(63, 2)] }.uniformGuard i = some true ∧
      ready (two i { full with active := 1 }) 0 0 { full with active := 1 } i [] [i.a] [] = true ∧
      ready (two i { full with u := [(63, 2)] }) 0 0 { full with u := [(63, 2)] } i [] [i.a] [] = true := by decide +kernel

theorem test_join_waits : ((after (.joinWait 0 0) (two (ins 1 0x82 0 0 0 63 0 15 0x40) full)).group? 0 0).map (·.wait) = some (.barrier 15) ∧
    ((after (.joinPass 0 0) (two (ins 1 0x83 0 0 0 63 0 15 0x40) full)).group? 0 0).map (fun g => (g.wait, g.pc)) = some (.none, 40) := by
  decide +kernel

theorem witness_HandlerReturns : (∀ g ∈ [grp, handling, handling 0 (thirtyTwo.take 1)], ∀ n ∈ [0, 1, 2], let i := ins 1 0x85 0 0 0 0 0 n 0
      ready (at' i g) 0 0 g i [] [] [] = true ∧ i.fmt = 1 ∧ field i.w0 47 24 = 0 ∧ i.ext = 0 ∧ i.imm = n ∧ g.lanes i ≠ 0) ∧
    grp.handler = none ∧ (∀ h, handling.handler = some h → handling.handlerDepth h = 0 ∧ h.info.getLsbD 1 = false) ∧
    (∀ h, (handling 0 (thirtyTwo.take 1)).handler = some h → (handling 0 (thirtyTwo.take 1)).handlerDepth h ≠ 0) := by
  refine ⟨by decide +kernel, rfl, ?_, ?_⟩ <;> (intro h hh; cases hh; decide)

theorem test_fret : ((after (.fretSkip 0 0) (at' (ins 1 0x85 0 0 0 0 0 1 0) handling)).group? 0 0).map (fun g => (g.pc, g.active, g.handler.isNone)) =
    some (40, 0xFF, true) ∧ ((after (.fretRetry 0 0) (at' (ins 1 0x85 0 0 0 0 0 0 0) handling)).group? 0 0).map (·.pc) = some 32 ∧
    (after (.fretAbort 0 0) (at' (ins 1 0x85 0 0 0 0 0 2 0) handling)).group? 0 0 = none := by decide +kernel

/-- THRESH 1 is 1,024 Facet cycles, 2,048 half cycles. -/
theorem witness_WatchdogDispatchAndFacetFault : let s (g : Group) : State := (at' (ins 0 0 0 0 0 0 0 0 0) g).setReg 1 Reg.execWdt 1
    (∀ g ∈ [{ grp with progress := 2047 }, { grp with progress := 2048 }, { grp with progress := 2048, wait := .barrier 3 }],
      (s g).group? 0 0 = some g ∧ (s g).reg 1 Reg.execWdt = 1 ∧ g.done = false ∧ g.halt = .running ∧ (s g).facetRuns 0 = true) ∧
    (s { grp with done := true }).group? 0 0 = some { grp with done := true } ∧ (s grp).requestsOut 0 0 0 = false ∧
    { s { grp with done := true } with reqs := [request .load 0 .served] }.requestsOut 0 0 0 = true := by decide +kernel

theorem witness_WatchdogDispatchAndFacetFault_dispatch : let l := { kernel with nblocks := 2 }
    let s := at' (ins 0 0 0 0 0 0 0 0 0) grp l
    s.launch? 0 = some l ∧ l.next < l.nblocks ∧ (s.withReserved l).placeFor l = some 0 ∧
      (at' (ins 0 0 0 0 0 0 0 0 0)).launch? 0 = some kernel ∧ kernel.nblocks ≤ kernel.next ∧
      0 ∉ s.defects ∧ (s.facet 0).failed = false ∧ (s.facet 0).blocks.map (fun b => (b.1, b.2.ended)) = [(0, false)] := by decide +kernel

/-! Tiles, Prisms, reductions and the vector port. -/

/-- Uniform registers: a memory descriptor M1 (16 by 16 words from tenant address 0x1000, pitch 64), the OPC descriptor D0 for
it, and D4 to D7: 64 by 64 elements of 4, 8, 16 and 32 bits. -/
def tileRegs : Cells 32 :=
  let words : List Word := [0x300000, 0x100010, 64, 1, 0, 0, 0, 0, 0x1000, 0, 64, 0x100010, 0x100010, 3, 0, 0,
    0, 0x400040, 32, 1, 0x100000, 0x400040, 64, 1, 0x200000, 0x400040, 128, 1, 0x300000, 0x400040, 256, 1]
  (words.zipIdx.map (fun e => (e.2, e.1))).filter (fun e => e.2 != 0)

/-- A whole group with them. -/
def tiler : Group := { full with u := tileRegs }

theorem witness_TileMoverQueuesAndRequests : (∀ store : Bool, let i := ins 4 (if store then 0x91 else 0x90) 0 0 0 0 0 0 0 0x2000000000000000
      let d := MemDesc.of ((List.range 8).map (fun k => tget tiler.u (8 * field i.w1 63 61 + k)))
      let q := Desc.of (tiler.desc (field i.w1 60 57))
      ready (at' i tiler) 0 0 tiler i (tmSources i).1 (tmSources i).2 (tmSources i).1 = true ∧ i.fmt = 4 ∧ field i.w0 47 0 = 0 ∧
        field i.w1 47 0 = 0 ∧ field i.w1 50 49 ≠ 3 ∧ tiler.onceTrue i = true ∧ tileDesc store d q = false ∧
        q.fits ((at' i tiler).granules 0 0) = true ∧ d.addr < 2 ^ 48 ∧ (at' i tiler).inOneRegion 1 d.range.1 d.range.2 = true ∧
        d.lines = [2] ∧ ((at' i tiler).facet 0).transfers.length < 16) ∧
    (let t : Transfer := { id := 3, slot := 0, vf := 1, launch := 0, block := 0, store := false, tag := 3, mem := [], opc := []
                           use := 0, cls := 0, dead := false, after := [], lines := [2] }
     let s := (at' (ins 0 0 0 0 0 0 0 0 0)).updFacet 0 (fun x => { x with transfers := [t] })
     (s.facet 0).transfers = [t] ∧ t.lines = [2] ∧ s.facetRuns 0 = true ∧ t.after = [] ∧
       (s.slotsUsed 0).1 - (s.slotsUsed 0).2 < 224 ∧ (s.slotsUsed 0).1 < 256) := by decide +kernel

/-- TM.WAIT names tags in IMM16: 8 is tag 3. -/
theorem witness_TileMover_tmWait : ∀ tags ∈ [0, 8], let i := ins 1 0x92 0 0 0 0 0 tags 0
    let t : Transfer := { id := 3, slot := 0, vf := 1, launch := 0, block := 0, store := false, tag := 3, mem := [], opc := []
                          use := 0, cls := 0, dead := false, after := [], lines := [2] }
    let s := (at' i).updFacet 0 (fun x => { x with transfers := [t] })
    ready s 0 0 grp i [] [] [] = true ∧ i.op = 0x92 ∧ i.fmt = 1 ∧ field i.w0 47 24 = 0 ∧ field i.w0 23 12 = 0 ∧ i.ext = 0 ∧ grp.onceTrue i = true ∧
      (s.facet 0).transfers.any (fun t => t.slot == 0 && t.launch == 0 && i.imm.testBit t.tag) = (tags == 8) := by decide +kernel

/-- The transfer of the descriptors above asks for both sectors of each of its rows' words: 1,024 bytes from 0x1000. -/
theorem test_tmLd : let i := ins 4 0x90 0 0 0 0 0 0 0 0x2000000000000000
    let t := after (.tmLineRequest 0) (after (.tmLd 0 0) (at' i tiler))
    t.reqs.map (fun r => (r.line, r.sectors)) = [(2, 0xFF)] ∧ ((t.facet 0).transfers.map (fun x => (x.lines, x.out))) = [([], 1)] := by
  decide +kernel

/-- An MMA of each form on tiles of its element size, accumulating in v8 on; ZA 0. -/
def mmaIns (op : Nat) : Ins :=
  let e := match op with | 0xA0 => (5, 6, 0) | 0xA1 => (6, 5, 1) | 0xA2 => (8, 4, 2) | _ => (2, 7, 0)
  ins 4 op e.1 0 8 (if op = 0xA2 then 2 else 0) 0 0 0 (BitVec.ofNat 64 (e.2.1 <<< 60 ||| e.2.1 <<< 56 ||| e.1 <<< 14 ||| e.2.2 <<< 12))

theorem witness_MmaIssuesAndScaleRegister : (∀ e ∈ mmaForms, ∀ g ∈ [tiler, { tiler with active := 1 }], let i := mmaIns e.1
      let a := Desc.of (g.desc i.ad)
      let b := Desc.of (g.desc i.bd)
      let s := at' i g
      ready s 0 0 g i (((mmaSources i).1 ++ (mmaDests i).1).filter (fun r => !(mmaChained 0 0 s g i).contains r)) ((mmaSources i).2 ++ (mmaDests i).2)
          (mmaSources i).1 (mmaDests i).1 = true ∧ i.op = e.1 ∧ i.fmt = 4 ∧ mmaLegal i = true ∧
        (i.accRegs ++ i.extraRegs).all (fun r => r == 255 || decide (r ≤ s.topReg g)) = true ∧ g.uniformGuard i = some true ∧
        a.malformed (some (mmaBits i).1) = false ∧ b.malformed (some (mmaBits i).2) = false ∧
        (a.holds (mmaCorners i).1.1 (mmaCorners i).1.2 && b.holds (mmaCorners i).2.1 (mmaCorners i).2.2 &&
          a.fits (s.granules 0 g.block) && b.fits (s.granules 0 g.block)) = true ∧ ((s.facet 0).prism 0).queue.length < 4) ∧
    tiler.fullConverged = true ∧ ({ tiler with active := 1 } : Group).fullConverged = false := by decide +kernel

theorem witness_MmaIssuesAndScaleRegister_scale : (let i := ins 4 0xBE 0 0 63 0 0 0 0x80
      ready (at' i) 0 0 grp i [] [i.d] [] = true ∧ i.fmt = 4 ∧ (at' i).mmaOut 0 0 = false ∧ grp.onceTrue i = true ∧
        (field i.w0 47 40 == 0 && field i.w0 31 8 == 0 && i.ext == 0x80 && i.w1 == 0 && decide (i.d < 64)) = true) ∧
    (∀ w1 ∈ [0x138, 0], let i := ins 4 0xBF 0 0 0 0 0 0 0 (BitVec.ofNat 64 w1)
      ready (at' i) 0 0 grp i [] [] [] = true ∧ field i.w0 47 0 = 0 ∧ field i.w1 63 9 = 0 ∧ field i.w1 7 6 = 0 ∧
        (i.w1.getLsbD 5 = true → field i.w1 4 0 % 8 = 0 ∧ field i.w1 4 0 ≤ 24)) := by decide +kernel

/-- SHIFT 24 with OVF: 24 + 256. -/
theorem test_scale_register : ((after (.mmaSr 0 0) (at' (ins 4 0xBE 0 0 63 0 0 0 0x80) { grp with shift := 24, ovf := true })).group? 0 0).map
      (fun g => tget g.u 63) = some 280 ∧
    ((after (.mmaSw 0 0) (at' (ins 4 0xBF 0 0 0 0 0 0 0 0x130) { grp with shift := 24, ovf := true })).group? 0 0).map
      (fun g => (g.shift, g.ovf)) = some (16, false) := by decide +kernel

/-- The MMA.H above in shape 5, one row, accepted: its A and B are both D6. -/
def product (za : Bool := false) (stat : Nat := 0) : MmaOp :=
  let i := mmaIns 0xA0
  { slot := 0, block := 0, w0 := i.w0 ||| 0x50000000000 ||| (if za then 0x80000000000 else 0), w1 := i.w1 ||| BitVec.ofNat 64 (stat <<< 8), adesc := tiler.desc 6
    bdesc := tiler.desc 6, pbase := 0, acc := some (List.replicate 16 0), token := 5 }

/-- The same in flight, its operands read when the pass began. -/
def flying (s : State) (o : MmaOp) : MmaOp := { o with early := o.operands (s.opc 0 0) }

/-- Facet 0 with a Prism, its OPC beginning with a word. -/
def prismAt (p : Prism) (g : Group := tiler) (w : Nat := 0) : State :=
  (at' (mmaIns 0xA0) g (b := { vf := 1, launch := 0, index := 0, g := 2, granules := 4, opc := ({} : Ram).poke 0 (leBytes 2 w) })).updFacet 0
    (fun x => { x with prisms := [(0, p)] })

theorem witness_PrismAccepts : ∀ za : Bool, let s := prismAt { queue := [product za] }
    ((s.facet 0).prism 0).queue = [product za] ∧ s.facetRuns 0 = true ∧ (product za).za = za ∧ ((s.facet 0).prism 0).flight = [] ∧
      s.group? 0 (product za).slot = some tiler ∧ tiler.vf ≠ 0 ∧ (tiler.tileBad (product za)).length = 0 ∧
      ({ tiler with vbad := [64] }.tileBad (product za)).length = 1 := by decide +kernel

/-- BF16 1.0 at (0, 0) of both operands: no overflow; the largest BF16 there: overflow. -/
theorem witness_PrismLastBeat : ∀ e ∈ [((0x3F80, 0, false) : Nat × Nat × Bool), (0x3F80, 1, false), (0x7F7F, 0, true)],
    let o := flying (prismAt {} tiler e.1) (product false e.2.1)
    let s := prismAt { flight := [o] } tiler e.1
    ((s.facet 0).prism 0).flight = [o] ∧ s.group? 0 o.slot = some tiler ∧ s.facetRuns 0 = true ∧ o.acc = some (List.replicate 16 0) ∧
      tiler.vf ≠ 0 ∧ o.early = o.operands (s.opc 0 0) ∧ (∀ w ∈ o.words, (s.opc 0 0).bad w = false) ∧ tiler.shift ≠ 24 ∧
      (o.pass (o.operand (s.opc 0 0) true) (o.operand (s.opc 0 0) false) (List.replicate 16 0) tiler.shift).2 = e.2.2 := by decide +kernel

/-- 1.0 x 1.0 in element (0, 0), zero beside it. -/
theorem test_mma : ((after (.prismLastBeat 0 0) (prismAt { flight := [flying (prismAt {} tiler 0x3F80) product] } tiler 0x3F80)).group? 0 0).map
    (fun g => (tget g.v 256, tget g.v 257)) = some (0x3F800000, 0) := by decide +kernel

theorem witness_OutputStage : let o := product false 1
    let s := prismAt { out := [(o, List.replicate 16 0)] }
    ((s.facet 0).prism 0).out = [(o, List.replicate 16 0)] ∧ s.group? 0 o.slot = some tiler ∧ s.facetRuns 0 = true ∧
      (mmaDims o.op o.shape).1 ≤ 16 ∧ tableWf 32 tiler.v = true ∧ (tileStats tiler o (List.replicate 16 0)).length = 1 ∧
      o.ins.b ≠ 255 ∧ o.ins.b + 1 ≠ 255 := by decide +kernel

theorem witness_ReductionsQueue : (let i := ins 0 0xC0 1 4 4 2 6 0 0x04
      let g := tiler
      ready (at' i g) 0 0 g i ((redSources i).1 ++ (regSets [redDest i]).1) ((redSources i).2 ++ (regSets [redDest i]).2) (redSources i).1 (regSets [redDest i]).1 = true ∧
        ownRed i = true ∧ ((at' i g).facet 0).rdu.length < 8 ∧ i.fmt = 0 ∧ g.uniformGuard i = some true ∧ g.fullConverged = true ∧ i.uc = false ∧
        i.idx = true ∧ i.c = 0 ∧ (redDest i :: redSrc i.a :: (if i.idx then [redSrc i.b] else [])).all (Reg?.inRange · ((at' i g).topReg g)) = true) ∧
    (let i := ins 0 0xC1 1 0 4 2 0 15 0
     let s := two i full
     ready s 0 0 full i ((redSources i).1 ++ (regSets [redDest i]).1) ((redSources i).2 ++ (regSets [redDest i]).2) (redSources i).1 (regSets [redDest i]).1 = true ∧
       ownRed i = true ∧ i.b = 0 ∧ i.c < 16 ∧ s.joinHeld 0 0 full = false ∧ (s.block? 0 0).map (fun b => (b.barriers, b.g)) = some ([], 2) ∧
       full.gidx < 2 ∧ (1, { full with gidx := 1 }) ∈ s.blockGroups 0 0) ∧
    (∀ ud ∈ [0, 0x80], let i := ins 4 0xC2 1 0 4 0 0 0 ud (BitVec.ofNat 64 (7 <<< 60 ||| 64 <<< 20))
      let g := tiler
      let q := Desc.of (g.desc i.od)
      ready (at' i g) 0 0 g i ((redRSources i).1 ++ (regSets [redDest i]).1) ((redRSources i).2 ++ (regSets [redDest i]).2) (redRSources i).1 (regSets [redDest i]).1 = true ∧
        ownRed i = true ∧ i.a = 0 ∧ i.b = 0 ∧ i.idx = false ∧ i.uc = false ∧ i.c = 0 ∧ field i.w1 19 0 = 0 ∧ i.len = 64 ∧
        (redDest i).inRange ((at' i g).topReg g) = true ∧ g.lanes i ≠ 0 ∧ q.malformed (some 32) = false ∧ q.fits ((at' i g).granules 0 0) = true ∧
        ∀ l < 32, q.holds (i.rowoff + l) (i.coloff + i.len - 1) = true) := by decide +kernel

/-- Rows 0 to 31 and rows 33 to 64 of the 64 rows of D7. -/
theorem witness_VectorPortQueues : ∀ store : Bool, ∀ e ∈ [((0, 0) : Nat × Word), (33, 0x80000000)],
    let i := ins 4 (if store then 0xC9 else 0xC8) 0 0 4 2 255 0 0 (BitVec.ofNat 64 (7 <<< 60 ||| e.1 <<< 47 ||| 63 <<< 34))
    let g := tiler
    let dst := if store then ([], []) else regSets [({ uniform := false, rlx := false, n := i.d, span := i.cnt } : Reg?)]
    let q := Desc.of (g.desc i.od)
    ready (at' i g) 0 0 g i ((vectorSources store i).1 ++ dst.1) ((vectorSources store i).2 ++ dst.2) (vectorSources store i).1 dst.1 = true ∧
      (i.type == 0 && i.mod == 0 && i.c == 0 && !i.ud && field i.w0 4 0 == 0 && decide (field i.w1 33 32 ≤ 2) &&
        field i.w1 31 0 == 0 && (operand i i.ua i.a 1).legal && (operand i i.ub i.b 1).legal) = true ∧
      ((operand i i.ua i.a 1).inRange ((at' i g).topReg g) && (operand i i.ub i.b 1).inRange ((at' i g).topReg g) &&
        Reg?.inRange { uniform := false, rlx := false, n := i.d, span := i.cnt } ((at' i g).topReg g)) = true ∧ g.lanes i ≠ 0 ∧
      (q.esize == 4 && (i.cnt == 1 || i.d % 2 == 1)) = false ∧ q.malformed none = false ∧ q.fits ((at' i g).granules 0 0) = true ∧
      ((at' i g).facet 0).port.length < 8 ∧
      maskOf (fun l => (g.lanes i).getLsbD l && !(q.holds (readOp (at' i g) 0 g (operand i i.ua i.a 1) l + i.rowoff)
        (readOp (at' i g) 0 g (operand i i.ub i.b 1) l + i.coloff + elemsOf i.cnt q.bits - 1))) = e.2 := by decide +kernel

/-- Lane 0 at row 1, column 2 of D7. -/
def portOp (store : Bool) : PortOp :=
  { slot := 0, block := 0, store := store, desc := tiler.desc 7, lanes := 1, rows := [1], cols := [2], reg := 4, regs := 1, data := [(128, 77)], token := 5 }

def rduOp : RduOp :=
  { scope := 0, block := 0, mod := 0, type := 1, outs := [{ slot := 0, token := 5, uniform := false, reg := 4 }], values := [3, 0xFFFFFFFF]
    indices := [0, 1], order := 5 }

theorem witness_PortAndReductionServe : (∀ store : Bool, let s := (at' (mmaIns 0xA0) tiler).updFacet 0 (fun x => { x with port := [portOp store] })
      s.facetRuns 0 = true ∧ (s.facet 0).port = [portOp store] ∧ (portOp store).store = store ∧ s.portWaits 0 (portOp store) = false ∧
        (s.block? 0 0).isSome = true ∧ s.group? 0 0 = some tiler ∧ tableWf 32 tiler.v = true ∧ (portOp store).reg + (portOp store).regs ≤ 255 ∧
        (portOp store).ralelle = false ∧ (∀ w ∈ (portOp store).words, (s.opc 0 0).mark w = 0 ∧ (s.opc 0 0).bad w = false)) ∧
    (let o := { portOp false with ralelle := true }
     let s := (at' (mmaIns 0xA0) tiler).updFacet 0 (fun x => { x with port := [o] })
     (s.facet 0).port = [o] ∧ o.ralelle = true ∧ s.portWaits 0 o = false) ∧
    (let s := (at' (mmaIns 0xA0) tiler).updFacet 0 (fun x => { x with rdu := [rduOp] })
     s.facetRuns 0 = true ∧ (s.facet 0).rdu = [rduOp] ∧ rduOp.scope = 0 ∧ rduOp.mod < 3 ∧ s.group? 0 0 = some tiler ∧ tableWf 32 tiler.v = true) ∧
    ((5, 31, true) ∉ ((at' (mmaIns 0xA0)).facet 0).aged ∧ (at' (mmaIns 0xA0)).facetRuns 0 = true) := by decide +kernel

/-- The stored element is at byte 256 x 1 + 4 x 2 of the allocation; the sum of 3 and -1 is 2 in every lane. -/
theorem test_port_and_rdu : let s := (at' (mmaIns 0xA0) tiler).updFacet 0 (fun x => { x with port := [portOp true], rdu := [rduOp] })
    ((after (.vectorPortServe 0) s).block? 0 0).map (fun b => b.opc.nat 264 4) = some 77 ∧
    ((after (.rduAccept 0) s).group? 0 0).map (fun g => (tget g.v 128, tget g.v 159)) = some (2, 2) := by decide +kernel

theorem witness_InstructionsStayOnTheirFacet : exec (.iadd 0 0) State.reset = .next (after (.iadd 0 0) State.reset) := rfl

/-! The remaining conditions of the instruction statements. -/

/-- -1 of S32 is below U32's range, 2^31 of U32 above S32's; F32 is no integer type, 1.5 and infinity its values. -/
theorem witness_ConversionResult_ranges : (fmtOf 2).isSome = true ∧ (fmtOf 0).isNone = true ∧ intOf 0 = some (32, false) ∧ intOf 1 = some (32, true) ∧
    intOf 2 = none ∧ typeVal 2 0x7F800000 = .inf false ∧ typeVal 2 0x3FC00000 ≠ .inf false ∧ typeVal 2 0x3FC00000 ≠ .inf true ∧
    intVal 32 true 0xFFFFFFFF = -1 ∧ intVal 32 false 0x80000000 = 2 ^ 31 ∧ intVal 32 false 7 = 7 := by decide +kernel

/-- VOTE that no lane executes. -/
theorem witness_ShuffleAndVote_noLane : let i := ins 0 0x5D 0 2 63 7 0 0 0x80 0 0x10
    ready (at' i full) 0 0 full i [] [i.d] [] = true ∧ (i.type == 0 && decide (i.mod ≤ 2) && i.ext == 0x80 && decide (i.a < 8) && i.b == 0 &&
      i.c == 0 && decide (i.d < 64)) = true ∧ full.lanes i = 0 := by decide +kernel

theorem witness_FenceNopTrapAndIllegal_fields : (let i := ins 0 0x73 0 0 0 0 0 0 1
     ready (at' i) 0 0 grp i [] [] [] = true ∧ i.fmt = 0 ∧ field i.w0 47 0 ≠ 0) ∧
    (∀ e ∈ [((1, 0) : Nat × Nat), (0, 1)], let i := ins 1 0x84 0 0 0 e.1 0 0 e.2
     ready (at' i) 0 0 grp i [] [] [] = true ∧ i.fmt = 1 ∧ (field i.w0 47 24 ≠ 0 ∨ i.ext ≠ 0)) := by decide +kernel

/-- The slot of the faulting group is idle, or a request of it is outstanding. -/
theorem witness_FaultEntry_slots : (at' (ins 0 0 0 0 0 0 0 0 0)).slotIdle 0 0 grp = true ∧
    ({ at' (ins 0 0 0 0 0 0 0 0 0) with reqs := [request .load 0 .served] } : State).slotIdle 0 0 grp = false := by decide +kernel

/-- A use of barrier 15 for both groups of a block, or for other groups, in which the second group has arrived. -/
def useOf (mask : Nat) (arrived : List Nat) : Barrier := { mask := mask, arrived := arrived, redb := none, entries := arrived.map (fun k => (k, [], [])) }

def barred (i : Ins) (g : Group) (u : Barrier) : State := (two i g).updBlock 0 0 (fun b => { b with barriers := [(15, u)] })

theorem witness_JoinArrivals_uses : ∀ waits : Bool, let i := ins 1 (if waits then 0x82 else 0x83) 0 0 0 63 0 15 0x40
    (∀ e ∈ [((3, [1]) : Nat × List Nat), (1, []), (3, [0])], let s := barred i full (useOf e.1 e.2)
      ready s 0 0 full i [] [i.a] [] = true ∧ s.joinHeld 0 0 full = false ∧ participants (tget full.u 63).toNat 2 = 3 ∧
        (s.block? 0 0).map (fun b => aget? b.barriers i.imm) = some (some (useOf e.1 e.2))) ∧
    (let s := { two i full with reqs := [request .store 0 .served] }
     ready s 0 0 full i [] [i.a] [] = true ∧ s.joinHeld 0 0 full = true) ∧
    (let i := ins 1 (if waits then 0x82 else 0x83) 0 0 0 63 0 15 0x40 0 0x10
     ready (two i full) 0 0 full i [] [i.a] [] = true ∧ full.uniformGuard i = some false) ∧
    (let g := { full with p := [(0, 1)] }
     let i := ins 1 (if waits then 0x82 else 0x83) 0 0 0 63 0 15 0x40 0 0x10
     ready (two i g) 0 0 g i [] [i.a] [] = true ∧ g.uniformGuard i = none) := by decide +kernel

/-- A use that every participant has reached, and one that waits for the group in slot 1. -/
theorem witness_JoinArrivals_release : let i := ins 1 0x82 0 0 0 63 0 15 0x40
    let g := { full with wait := .barrier 15 }
    ∀ e ∈ [((3, [0, 1]) : Nat × List Nat), (1, [0]), (3, [0])], let s := barred i g (useOf e.1 e.2)
      (s.block? 0 0).map (·.barriers) = some [(15, useOf e.1 e.2)] ∧ ((s.facet 0).groups.map (·.1)).Nodup ∧ s.fetchIns 0 g = some i ∧
        s.group? 0 0 = some g ∧ g.block = 0 ∧
        ((List.range 32).all (fun k => !(useOf e.1 e.2).mask.testBit k || e.2.contains k ||
          (s.blockGroups 0 0).all (fun x => x.2.gidx != k || x.2.done)) = (e.2.length == 2 || e.1 == 1)) := by decide +kernel

/-- A handler entered at a barrier: the group's arrival is still waited for, or was released; and FRET in no lane. -/
theorem witness_HandlerReturns_barrier : (∀ a ∈ [none, some 3], let g := { handling 2 with awaiting := a }
      let i := ins 1 0x85 0 0 0 0 0 0 0
      ready (at' i g) 0 0 g i [] [] [] = true ∧ g.handler.map (fun h => h.info.getLsbD 1) = some true ∧ g.handler.map g.handlerDepth = some 0 ∧ g.awaiting = a) ∧
    (∀ n ∈ [0, 1, 2], let i := ins 1 0x85 0 0 0 0 0 n 0 0 0x10
      ready (at' i handling) 0 0 handling i [] [] [] = true ∧ i.imm = n ∧ handling.lanes i = 0) := by decide +kernel

theorem witness_WatchdogDispatchAndFacetFault_states : (let s (g : Group) : State := (at' (ins 0 0 0 0 0 0 0 0 0) g).setReg 1 Reg.execWdt 1
     ∀ g ∈ [{ grp with progress := 2048, halt := .stepping }, { grp with progress := 2048, wait := .lock }, { grp with progress := 2048, wait := .barrier 3, halt := .stepped }],
      (s g).group? 0 0 = some g ∧ 2048 * ((s g).reg 1 Reg.execWdt).toNat ≤ g.progress ∧ g.done = false ∧ (s g).facetRuns 0 = true) ∧
    (let s := at' (ins 0 0 0 0 0 0 0 0 0) { grp with done := true }
     (s.facet 0).unitsIdle 0 = true ∧ s.requestsOut 0 0 0 = false ∧ s.slotIdle 0 0 { grp with done := true } = true ∧ (s.block? 0 0).map (·.ended) = some false ∧
       (s.launch? 0).isSome = true ∧ (s.facet 0).groups.all (fun e => e.1 == 0) = true) := by decide +kernel

/-- The MMA of the latch's own tile and shape, after one that left its result there. -/
theorem witness_PrismAccepts_chained : let s := prismAt { queue := [product], flight := [product] }
    ((s.facet 0).prism 0).queue = [product] ∧ (product).za = false ∧ ((s.facet 0).prism 0).flight.getLast? = some product ∧
      chainsTo product (product).slot (product).ins = true ∧ s.facetRuns 0 = true ∧ s.group? 0 (product).slot = some tiler := by decide +kernel

/-- The accumulator from the latch; overflow under the last shift. -/
theorem witness_PrismLastBeat_latch : (let o := { product with acc := none }
     let l : Latch := { slot := 0, op := 0xA0, shape := 5, dst := 8, tile := List.replicate 16 0 }
     let s := prismAt { flight := [o], latch := some l }
     ((s.facet 0).prism 0).flight = [o] ∧ o.acc = none ∧ ((s.facet 0).prism 0).latch = some l ∧ s.group? 0 o.slot = some tiler ∧ s.facetRuns 0 = true) ∧
    (let g := { tiler with shift := 24 }
     let o := flying (prismAt {} g 0x7F7F) product
     let s := prismAt { flight := [o] } g 0x7F7F
     s.group? 0 0 = some g ∧ ((s.facet 0).prism 0).flight = [o] ∧ o.early = o.operands (s.opc 0 0)) ∧
    (([[1, 2]] : List (List Nat))[0]? = some [1, 2] ∧ ([[1, 3]] : List (List Nat))[0]? = some [1, 3] ∧ ([1, 2] : List Nat)[1]? = some 2) := by decide +kernel

/-- REDB of the only group left of its block. -/
theorem witness_ReductionsQueue_lastArrival : let i := ins 0 0xC1 1 0 4 2 0 15 0
    let s := at' i full
    ready s 0 0 full i ((redSources i).1 ++ (regSets [redDest i]).1) ((redSources i).2 ++ (regSets [redDest i]).2) (redSources i).1 (regSets [redDest i]).1 = true ∧
      ownRed i = true ∧ (s.facet 0).rdu.length < 8 ∧ i.fmt = 0 ∧ full.uniformGuard i = some true ∧ full.fullConverged = true ∧ i.uc = false ∧ i.b = 0 ∧ i.c = 15 ∧
      s.joinHeld 0 0 full = false ∧ (s.block? 0 0).map (fun b => (b.barriers, b.g)) = some ([], 2) ∧ full.gidx < 2 ∧ (s.facet 0).redb = [] ∧
      (s.blockGroups 0 0).all (fun e => e.1 == 0) = true ∧ full.stack = [] ∧
      (redDest i :: redSrc i.a :: (if i.idx then [redSrc i.b] else [])).all (Reg?.inRange · (s.topReg full)) = true := by decide +kernel

/-- A RED.R and the last arrival of a REDB before the RDU; a client with a request of each kind. -/
theorem witness_PortAndReductionServe_scopes : (let o := { rduOp with scope := 2, desc := tiler.desc 7, lanes := 3, len := 64, values := [], indices := [] }
     let s := (at' (mmaIns 0xA0) tiler).updFacet 0 (fun x => { x with rdu := [o] })
     (s.facet 0).rdu = [o] ∧ o.outs = [{ slot := 0, token := 5, uniform := false, reg := 4 }] ∧ o.lanes ≠ 0 ∧ (s.facet 0).port = [] ∧
       (∀ l < 32, o.lanes.getLsbD l = true → ∀ w ∈ o.rowWords l, (s.opc 0 o.block).mark w = 0) ∧ s.group? 0 0 = some tiler ∧ tableWf 32 tiler.v = true ∧ tableWf 32 tiler.u = true) ∧
    (let o := { rduOp with scope := 3, outs := [], values := [], indices := [] }
     let x := { rduOp with groups := [(0, [1, 2], [])], values := [], indices := [] }
     let s := (at' (mmaIns 0xA0) tiler).updFacet 0 (fun y => { y with rdu := [o], redb := [x] })
     (s.facet 0).rdu = [o] ∧ o.scope = 3 ∧ (s.facet 0).redb = [x] ∧ x.use = o.use ∧ x.outs = [{ slot := 0, token := 5, uniform := false, reg := 4 }]) ∧
    (∀ store : Bool, let s := (at' (mmaIns 0xA0) tiler).updFacet 0 (fun x => { x with port := [portOp store] })
      (s.facet 0).asks 4 8 store = true ∧ (4, 8, store) ∉ (s.facet 0).aged ∧ s.facetRuns 0 = true) := by decide +kernel

/-! Clauses that need states of their own. -/

theorem witness_IntegerResults_types : ∀ e ∈ wordRules, let i := ins 0 e.op 2 0 4 2 6 8 0
    aluReady (at' i) 0 0 grp i e.shape = true ∧ i.op = e.op ∧ i.fmt ≤ 1 ∧ 2 ≤ i.type := by decide +kernel

/-- A misaligned address; a malformed descriptor. -/
theorem witness_FaultingMemoryFormsNothing :
    (∀ e ∈ [((Instr.ld, 0x60) : (Nat → Nat → Instr) × Nat), (.lds, 0x61), (.st, 0x62), (.hint, 0x63), (.atom, 0x70)],
      ((after (e.1 0 0) (at' (memIns e.2 0 0) (grp 0x41))).fn 1).faultNo ≠ ((at' (memIns e.2 0 0) (grp 0x41)).fn 1).faultNo) ∧
    (∀ e ∈ [((Instr.acq, 0x71) : (Nat → Nat → Instr) × Nat), (.rel, 0x72)], let s := at' (ins 2 e.2 0 0 0 2 0 0 2) (grp 0x41)
      ((after (e.1 0 0) s).fn 1).faultNo ≠ (s.fn 1).faultNo) ∧
    ∀ e ∈ [((Instr.tmLd, 0x90) : (Nat → Nat → Instr) × Nat), (.tmSt, 0x91)], let s := at' (ins 4 e.2 0 0 0 0 0 0 0 0x2000000000000000) { tiler with u := tset tiler.u 14 1 }
      ((after (e.1 0 0) s).fn 1).faultNo ≠ (s.fn 1).faultNo := by decide +kernel

/-- A word of the code store with one bad symbol. -/
theorem witness_FenceNopTrapAndIllegal_corrected : let i := ins 0 0x86 0 0 0 0 0 0 0
    let s := (at' i).updFacet 0 (fun x => { x with code := let w := addSymbol (x.code.word 2) 0 5 3; x.code.setWord 2 w.1 w.2 })
    s.group? 0 0 = some grp ∧ s.fetchIns 0 grp = some i ∧ s.codeFixes 0 grp i = 1 ∧ s.facetRuns 0 = true ∧ s.inCode grp grp.pc = true ∧
      field i.w0 47 0 = 0 ∧ i.fmt = 0 ∧ grp.canIssue = true ∧ s.stallDue grp = false := by decide +kernel

theorem witness_FaultEntry_debug : let s := (at' (ins 0 0 0 0 0 0 0 0 0)).setReg 0 Reg.dbgEnable 2
    s.group? 0 0 = some grp ∧ s.debugOn 1 = true ∧ grp.vf = 1 ∧ grp.handler = none ∧ ((s.facet 0).groups.map (·.1)).Pairwise (· < ·) := by
  decide +kernel

/-- FRET with mode 3, and modes 0 to 2 with a nonzero unused field. -/
theorem witness_HandlerReturns_illegal : (let i := ins 1 0x85 0 0 0 0 0 3 0
     ready (at' i handling) 0 0 handling i [] [] [] = true ∧ i.imm % 4 = 3) ∧
    ∀ n ∈ [0, 1, 2], (∀ e ∈ [((1, 0) : Nat × Nat), (0, 1)], let i := ins 1 0x85 0 0 0 e.1 0 n e.2
      ready (at' i handling) 0 0 handling i [] [] [] = true ∧ i.imm % 4 = n ∧ (field i.w0 47 24 ≠ 0 ∨ i.ext ≠ 0)) ∧
      (let i := ins 1 0x85 0 0 0 0 0 (n + 4) 0
       ready (at' i handling) 0 0 handling i [] [] [] = true ∧ i.imm % 4 = n ∧ 4 ≤ i.imm) := by decide +kernel

/-- A descriptor with a reserved bit, one past the allocation, a valid region outside the tenant's and one above 2^48. -/
theorem witness_TileMoverQueuesAndRequests_faults : ∀ store : Bool, let i := ins 4 (if store then 0x91 else 0x90) 0 0 0 0 0 0 0 0x2000000000000000
    let check (g : Machine.Group) (malformed fits region low : Bool) : Bool :=
      let d := MemDesc.of ((List.range 8).map (fun k => tget g.u (8 * field i.w1 63 61 + k)))
      let q := Desc.of (g.desc (field i.w1 60 57))
      ready (at' i g) 0 0 g i (tmSources i).1 (tmSources i).2 (tmSources i).1 && tileDesc store d q == malformed &&
        (malformed || q.fits ((at' i g).granules 0 0) == fits) && (malformed || !d.isEmpty && ((at' i g).inOneRegion 1 d.range.1 d.range.2 == region)) &&
        decide (d.addr < 2 ^ 48) == low
    check { tiler with u := tset tiler.u 14 1 } true true true true = true ∧ check { tiler with u := tset tiler.u 0 0x3FF000 } false false true true = true ∧
      check { tiler with u := tset tiler.u 8 0x04000000 } false true false true = true ∧
      check { tiler with u := tset tiler.u 9 0x10000 } false true false false = true := by decide +kernel

/-- An element of four bits and its neighbour, and one of 32 bits. -/
theorem witness_TileMoverQueuesAndRequests_bytes : ∀ z ∈ [0, 3],
    let t : Transfer := { id := 3, slot := 0, vf := 1, launch := 0, block := 0, store := true, tag := 3
                          mem := [0x1000, 0, 64, 0x100010, 0x100010, BitVec.ofNat 32 z, 0, 0], opc := [BitVec.ofNat 32 (z <<< 20), 0x100010, 64, 1]
                          use := 0, cls := 0, dead := false, after := [], lines := [2] }
    let d := MemDesc.of t.mem
    let q := Desc.of t.opc
    0 < d.vrows ∧ 0 < d.vcols ∧ d.bit 0 0 / 8 / 2048 = 2 ∧ d.esize = z ∧ (({} : Ram).bitsAt (q.bit 0 0) d.bits).isSome = true ∧
      (({} : Ram).bitsAt (q.bit 0 1) d.bits).isSome = true := by decide +kernel

/-- A mixed guard, a guard that is false, descriptors without extents, and an allocation that holds nothing. -/
theorem witness_MmaIssuesAndScaleRegister_faults : ∀ e ∈ mmaForms, let i := mmaIns e.1
    let j : Ins := { i with w0 := i.w0 ||| (0x10 <<< 59) }
    let once (s : State) (g : Machine.Group) (i : Ins) : Bool :=
      ready s 0 0 g i (((mmaSources i).1 ++ (mmaDests i).1).filter (fun r => !(mmaChained 0 0 s g i).contains r)) ((mmaSources i).2 ++ (mmaDests i).2)
        (mmaSources i).1 (mmaDests i).1 && mmaLegal i
    let mixed : Machine.Group := { tiler with p := [(0, 1)] }
    let empty : Machine.Group := { tiler with u := [] }
    let none' : State := at' i tiler (b := { vf := 1, launch := 0, index := 0, g := 2, granules := 0 })
    once (at' j tiler) tiler j = true ∧ tiler.uniformGuard j = some false ∧ once (at' j mixed) mixed j = true ∧ mixed.uniformGuard j = none ∧
      once (at' i empty) empty i = true ∧ empty.uniformGuard i = some true ∧ empty.fullConverged = true ∧
      (Desc.of (empty.desc i.ad)).malformed (some (mmaBits i).1) = true ∧
      once none' tiler i = true ∧ (Desc.of (tiler.desc i.ad)).fits (none'.granules 0 0) = false := by decide +kernel

/-! The memory system. -/

/-- Facet 0 with a group that owes v4 to the request, the request, and line 1 of set 128 in way 0 of the Hull. -/
def line1 (kind : ReqKind) (stage : ReqStage) (g : Group := grp) : State :=
  let s := at' (ins 0 0x86 0 0 0 0 0 0 0) { g with writes := [{ token := 9, vregs := [4], uregs := [], traps := true, lanes := 1 }] }
  { s with
    reqs := [request kind 1 stage]
    hull := { s.hull with sets := [(setOf 1, { valid := 0xFFFF, tenant := 1 } :: freshSet.drop 1)] } }

theorem witness_LineReturns : (∀ kind ∈ [ReqKind.load, .store, .hint], let s := line1 kind .served
      let r := request kind 1 .served
      s.req? 7 = some r ∧ r.stage = .served ∧ (s.reqGroup r).isSome = true ∧ (s.reg 1 Reg.deltaCtrl).getLsbD 31 = false) ∧
    (let r := request .load 1 .served
     tableWf 32 grp.v = true ∧ r.width ≤ 4 ∧ r.reread = false ∧ (∀ a ∈ r.lanes, a.lane < 32 ∧ a.reg < 255) ∧ (r.lanes.map (·.lane)).Nodup ∧
       r.result.map (·.1) = r.lanes.map (·.lane) ∧ (∀ x ∈ r.result, x.2.2 = false)) := by decide +kernel

theorem test_line_return : ((after (.lineDataReturn 7) (line1 .load .served)).group? 0 0).map (fun g => (tget g.v 128, g.writes)) = some (5, []) ∧
    ((after (.storeAck 7) (line1 .store .served)).group? 0 0).map (fun g => g.events) = some 1 := by decide +kernel

/-- A transfer of the tile mover whose line has returned. -/
theorem witness_LineReturns_tile : let x : Transfer := { id := 9, slot := 0, vf := 1, launch := 0, block := 0, store := false, tag := 3, mem := [0x800, 0, 64, 0x100010, 0x100010, 3, 0, 0], opc := [0x300000, 0x100010, 64, 1], use := 0, cls := 0, dead := false, after := [], lines := [2], out := 1 }
    let s := (line1 .tmLoad .served).updFacet 0 (fun y => { y with transfers := [x] })
    s.req? 7 = some (request .tmLoad 1 .served) ∧ (s.facet 0).transfers = [x] ∧ x.id = 9 ∧ x.store = false ∧
      ((s.block? 0 0).map (·.ended)) = some false ∧ (request .tmLoad 1 .served).token = 9 := by decide +kernel

/-- Element (0, 0) of a tile of 32-bit elements with memory in place. -/
theorem witness_LineReturns_element : let x : Transfer := { id := 9, slot := 0, vf := 1, launch := 0, block := 0, store := false, tag := 3, mem := [0x800, 0, 64, 0x10002, 0x10002, 3, 0, 0], opc := [0x300000, 0x10002, 64, 1], use := 0, cls := 0, dead := false, after := [], lines := [2], out := 1 }
    let d := MemDesc.of x.mem
    let q := Desc.of x.opc
    let n := q.bit 0 0 / 1024
    Memory.wf ({} : Ram) = true ∧ (0, 0) ∈ x.granule n ∧ q.esize = d.esize ∧ d.esize ≤ 4 ∧ d.bits ∣ q.bit 0 0 ∧
      (∀ a ∈ x.granule n, a ≠ (0, 0) → q.bit a.1 a.2 + d.bits ≤ q.bit 0 0 ∨ q.bit 0 0 + d.bits ≤ q.bit a.1 a.2) ∧
      ∀ a ∈ x.granule n, d.bits ∣ q.bit a.1 a.2 ∧ x.back.bitsAt (d.bit a.1 a.2) d.bits ≠ none := by decide +kernel

/-- A request of each kind, presented for the first time or again, for a line that is resident. -/
theorem witness_ResidentLineServes : ∀ kind ∈ [ReqKind.load, .tmLoad, .store, .tmStore, .hint, .atomic, .acq, .rel],
    ∀ stage ∈ [ReqStage.formed, .busy], let s := line1 kind stage
    let r := request kind 1 stage
    s.req? 7 = some r ∧ (s.reqs.map (·.id)).Nodup ∧ s.hullClocked 1 = true ∧ s.behind r = false ∧ s.hcLine 1 = false ∧
      (s.lineWay 1).map (fun w => r.needs &&& ~~~ w.valid) = some 0 ∧ r.bypass = false ∧
      (∀ q ∈ s.reqs, q.line = r.line → q.stage ≠ .accepted ∧ q.late = false) ∧
      r.pois = [] ∧ Memory.wf s.hull.data = true ∧ (∀ b ∈ r.bytes, b.1 < 2048) ∧
      (∀ b ∈ r.bytes, s.hull.data.mark ((2048 * r.line + b.1) / 16) = 0) ∧ (r.lanes.map (·.lane)).Pairwise (· < ·) ∧ (∀ a ∈ r.lanes, a.lane < 32) := by
  decide +kernel

/-- A REL of a lane that owns its word, and of one that does not. -/
theorem witness_ResidentLineServes_owner : ∀ old ∈ [5, 4], let s := line1 .rel .formed
    let s := { s with hull := { s.hull with data := s.hull.data.poke 2048 (leBytes 4 old) } }
    (s.atomLane (request .rel 1 .formed) { lane := 0, addr := 2048, taddr := 2048, reg := 4, data := 5, cmp := 0 }).2 =
      (0, if old = 5 then 1 else 0, false) := by decide +kernel

/-- A request that misses, given the first way of its line's set. -/
def missing (kind : ReqKind) (w : Way) (busyEngine : Bool := false) : State := let s := line1 kind .formed
  { s with hull := { s.hull with
      sets := [(setOf 1, w :: List.replicate 15 { valid := 1, tag := 8, off := true })]
      fills := if busyEngine then List.replicate 32 { line := 1, sectors := 1 } else [] } }

/-- A miss without a victim; with one whose line has requests, or no room, or no tracker; with a free way; with a dirty one. -/
theorem witness_ResidentLineServes_miss : (∀ kind ∈ [ReqKind.load, .store], let r := request kind 1 .formed
      let chosen (s : State) : Option Nat := victim (s.waysFor (setOf 1) r) r.vf (s.quota r.vf) false
      let open' (s : State) : Bool := s.req? 7 == some r && s.hullClocked 1 && !s.behind r && !s.hcLine 1 && (s.lineWay 1).isNone && !s.bypasses r
      let s (w : Way) : State := missing kind w
      let dirty : Way := { valid := 0xFFFF, tag := 7, tenant := 2, dirty := 1 }
      let waiting : State := { s dirty with reqs := (s dirty).reqs ++ [{ request .load (lineOf (setOf 1) 7) .accepted with id := 8 }] }
      let fullSink : State := { s dirty with hbm := { (s dirty).hbm with
        pcs := [(engineOf (16 * lineOf (setOf 1) 7), { sink := (List.range 256).map (fun i => { sector := i, mask := 1, data := {} }) })] } }
      (open' (s { valid := 1, off := true }) && (chosen (s { valid := 1, off := true })).isNone) = true ∧
      (open' waiting && chosen waiting == some 0 && waiting.victimWaits (setOf 1) 0) = true ∧
      (open' fullSink && chosen fullSink == some 0 && !fullSink.victimWaits (setOf 1) 0 && !fullSink.victimRoom (setOf 1) 0) = true ∧
      (open' (missing kind {} true) && chosen (missing kind {} true) == some 0 && !(missing kind {} true).trackerFree 1 7) = true ∧
      (∀ w ∈ [{}, dirty], (open' (s w) && chosen (s w) == some 0 && (s w).victimRoom (setOf 1) 0 && (s w).trackerFree 1 7 &&
        !(s w).victimWaits (setOf 1) 0) = true) ∧ r.cls < 3 ∧ r.sectors ≠ 0 ∧ r.kind ≠ .hint ∧ (kind = .load → r.needs ≠ 0)) ∧
    (let r := { request .store 1 .formed with bytes := (List.range 128).map (fun k => (k, 0)) }
     r.isRead = false ∧ r.needs = 0) := by decide +kernel

theorem test_store_serves : let t := after (.hullRequestAccept 7 0 0) (line1 .store .formed)
    t.hull.data.byte 2048 = 5 ∧ (t.lineWay 1).map (·.dirty) = some 1 := by decide +kernel

theorem witness_FillArrivalIsInvisible : let s := { line1 .load .served with reqs := [] }
    let s := { s with hull := { s.hull with fills := [{ line := 1, sectors := 0x8000, read := true }] } }
    s.memoryWf = true ∧ s.hull.fills.find? (fun f => f.line == 1 && f.read && f.sectors.getLsbD 15) = some { line := 1, sectors := 0x8000, read := true } ∧
      (s.pc (engineOf 16)).nma = [] ∧ s.headOf 1 = none := by decide +kernel

/-- Address 0x7F is the last byte of its sector. -/
theorem witness_AgentsAreCoherent : let s := line1 .load .served
    s.memoryWf = true ∧ s.hcLine 0 = false ∧ (sectorWrites 0x7F [1] false).length = 1 ∧ 0x7F % 128 + 1 ≤ 128 ∧ s.drains = [] ∧
      (s.pc (engineOf 0)).failedPins = [] ∧ s.lineWay 0 = none := by decide +kernel

theorem test_agents : let t := after (.agentWrite 0x7F [1]) (line1 .load .served)
    ((t.coherent 0).bytes.getD 127 0, (t.coherent 0).bytes.getD 126 0) = (1, 0) ∧
      (after (.agentRead 0x7E 2) t).out.answers = [(2, 0x7E, [0, 1])] := by decide +kernel

theorem witness_PinsQuotaAndThrashGuard : (∀ busy : Bool, let s := line1 .load .served
      let s := if busy then s.setReg 1 Reg.hullPinStatus 0x80000000 else s
      s.side.cxlUp = true ∧ s.serves 1 = true ∧ (s.reg 1 Reg.hullPinStatus).getLsbD 31 = busy) ∧
    (∀ c ∈ [({ vf := 1, pin := true, addr := 2048, lines := 0 } : PinCmd), { vf := 1, pin := true, addr := 2048, lines := 1 },
        { vf := 1, pin := false, addr := 2048, lines := 32767 }, { vf := 1, pin := false, addr := 2048, lines := 32768 }],
      let s := line1 .load .served
      let s := { s with hull := { s.hull with pins := [c] } }
      s.hull.pins = [c] ∧ s.translate 1 2048 = some 2048 ∧
        (decide (0 < c.lines ∧ c.lines ≤ 65536) && s.inOneRegion 1 2048 (2048 * c.lines)) = (c.lines == 1 || c.lines == 32767)) ∧
    (let s := line1 .load .served
     (s.lineWay 1).map (·.filling) = some false ∧ (s.quota 1 = 16) ∧
       (s.pinSets 1 1).find? (fun e => decide (s.quota 1 - 1 < pinnedBy (s.set e.1) 1 + e.2.2)) = none ∧
       (s.pinSets 1 1).find? (fun e => decide (12 - disabledWays (s.set e.1) < pinnedAll (s.set e.1) + e.2.2)) = none) := by decide +kernel

/-- The limits of R285 and R287 met: a quota of 1 leaves no pin, and twelve lines of other tenants fill the pinnable ways. -/
theorem witness_PinsQuotaAndThrashGuard_limits : let s := line1 .load .served
    (let s := s.setReg 0 (Reg.hullQuota 1) 1
     ((s.pinSets 1 1).find? (fun e => decide (s.quota 1 - 1 < pinnedBy (s.set e.1) 1 + e.2.2))).isSome = true) ∧
    (let s := { s with hull := { s.hull with sets := [(setOf 1, { valid := 1, tenant := 1 } :: List.replicate 12 { valid := 1, tag := 9, tenant := 2, cls := 3 })] } }
     (s.pinSets 1 1).find? (fun e => decide (s.quota 1 - 1 < pinnedBy (s.set e.1) 1 + e.2.2)) = none ∧
       ((s.pinSets 1 1).find? (fun e => decide (12 - disabledWays (s.set e.1) < pinnedAll (s.set e.1) + e.2.2))).isSome = true) := by decide +kernel

theorem witness_PinsQuotaAndThrashGuard_guard : let s := line1 .load .served
    s.side.cxlUp = true ∧ s.serves 0 = true ∧ s.maxPins 1 = 0 ∧
      (let s := s.updGuard 1 (fun g => { g with cfg := 0x80401008, requests := 256, hits := 63 })
       (s.guard 1).cfg.getLsbD 31 = true ∧ 256 ≤ (s.guard 1).requests ∧ (s.guard 1).engaged = false ∧ 63 * 256 < 64 * 256) ∧
      (let s := s.updGuard 1 (fun g => { g with cfg := 0x80401008, requests := 256, hits := 80, engaged := true })
       (s.guard 1).engaged = true ∧ min 256 (64 + 16) * 256 ≤ (s.guard 1).hits * 256) := by decide +kernel

/-- An engine and the state that has it as engine 0: pseudo-channel 0 of stack 0. -/
def engine (p : PseudoChannel) : State := let s := line1 .load .served
  { s with reqs := [], hbm := { s.hbm with pcs := [(0, p)] } }

/-- A write of one byte to sector 0, the first of engine 0. -/
def write0 : SinkWrite := { sector := 0, mask := 1, data := { data := 0x5A } }

theorem witness_SinkAndCells : engineOf 0 = 0 ∧
    (let s := engine { inbound := [write0] }
     ((s.pc 0).sink.map (·.sector)).Nodup ∧ (s.pc 0).inbound = [write0] ∧ s.hbm.selfRefresh = false ∧
       (s.pc 0).sink.length < 256 ∧ (s.hbm.cells.sector 0).pois = 0 ∧ write0.data.pois = 0) ∧
    (let s := engine { sink := [write0] }
     ((s.pc 0).sink.map (·.sector)).Nodup ∧ (s.pc 0).sink = [write0] ∧ (s.pc 0).copy = none ∧ s.demand 0 = none ∧ s.engineUp 0 = true ∧
       (s.reg 0 Reg.hbmInject).getLsbD 31 = false ∧ (s.pc (engineOf 0)).failedPins = []) ∧
    (let s := engine {}
     let s := { s with hull := { s.hull with fills := [{ line := 0, sectors := 1 }] } }
     s.demand 0 = some { line := 0, sectors := 1 } ∧ s.engineUp 0 = true ∧ s.memoryWf = true ∧ (s.pc (engineOf 0)).failedPins = [] ∧
       (s.pc 0).sink = [] ∧ (s.pc 0).nma = []) := by decide +kernel

/-- The write reaches the sink, then the cells. -/
theorem test_sink : let t := after (.sinkWrite 0 0) (engine { inbound := [write0] })
    (t.pc 0).sink = [write0] ∧ (after (.serviceWindowStart 0 0 1) t).hbm.cells.byte 0 = 0x5A := by decide +kernel

theorem witness_ScrubRefreshRemap : (let s := (engine {}).setReg 0 Reg.frustumCfg 0xC0000000
     (s.reg 0 Reg.frustumCfg).getLsbD 31 = true ∧ s.inService 0 = true ∧ (s.pc 0).copy = none ∧ (s.pc 0).failedPins = [] ∧ s.memoryWf = true ∧
       (s.pc 0).hasEntry (sectorAt 0 0 (s.pc 0).scrub) = false ∧ s.engineUp 0 = true) ∧
    ((engine {}).setReg 0 Reg.frustumCfg 0 |>.reg 0 Reg.frustumCfg).getLsbD 31 = false ∧
    (let s := (engine { rowUe := [15 * 40960 + 40959] }).setReg 0 Reg.frustumCfg 0xC0000000
     s.remapDue 0 15 40959 = true ∧ ((s.remapsOf 0).filter (fun x => x.1 == 0 && x.2.1 == 15)).length < 128 ∧ (s.remapsOf 0).length < 4096) ∧
    (let s := (engine { rowUe := [1] }).setReg 0 Reg.frustumCfg 0xC0000000
     let s := { s with hbm := { s.hbm with remaps := [(0, (List.range 128).map (fun i => (0, 0, 2 + i, i)))] } }
     s.remapDue 0 0 1 = true ∧ 128 ≤ ((s.remapsOf 0).filter (fun x => x.1 == 0 && x.2.1 == 0)).length) ∧
    (let s := engine { copy := some { bank := 1, row := 2, spare := 3 } }
     (s.pc 0).copy = some { bank := 1, row := 2, spare := 3 } ∧ s.inService 0 = true ∧ s.boot.spUp = true) := by decide +kernel

theorem test_refresh_rate : ((after (.refreshRateChange 11 85) (engine {})).regF 0 (Reg.hbmScrub 11) 31 31 = 1) ∧
    ((after (.refreshRateChange 11 84) (engine {})).regF 0 (Reg.hbmScrub 11) 31 31 = 0) := by decide +kernel

/-- An S32 sum in element 0 of granule 0. -/
def add5 : Nma := { addr := 0, op := 0, type := 1, mask := 1, data := { data := 5 }, ordered := false, vf := 1, reply := none }

theorem witness_AccumulateApplies : (let s := engine { nma := [add5] }
     (s.pc 0).nma = [add5] ∧ s.inService 0 = true ∧ add5.ahead = 0 ∧ (s.pc 0).copy = none ∧ engineOf (add5.addr / 128) = 0 ∧
       (s.pc 0).sink.any (fun w => w.sector == add5.addr / 128) = false ∧ add5.reply = none ∧ (s.pc 0).failedPins = []) ∧
    add5.type = 1 ∧ add5.op ≤ 2 ∧ add5.data.pois = 0 ∧ ({} : Sector).pois = 0 := by decide +kernel

/-- The largest S32 plus 5 wraps. -/
theorem test_accumulate : let s := engine { nma := [add5] }
    let s := { s with hbm := { s.hbm with cells := s.hbm.cells.poke 0 [0xFF, 0xFF, 0xFF, 0x7F] } }
    (after (.nmaApply 0 0) s).hbm.cells.nat 0 4 = 0x80000004 := by decide +kernel

/-! The Chord fabric. Function 1 holds position 5; port 0 is up. -/

def chord (x : Port) : State := let s := line1 .load .served
  { s with
    reqs := [], ports := [(0, x)]
    fns := [(0, { regs := [(Reg.tenCtrl 1, 0x80000000), (Reg.tenFacets 1 0, 3), (Reg.tenRegionA 1 0, 0x80000000), (Reg.tenRegionB 1 0, 0x4000)] })] }.setReg
      0 (Reg.chordFnPos 1) 0x80000005 |>.setReg 0 (Reg.chordFnPeerLimit 1) 0xFFFFF |>.setReg 0 (Reg.chordFnWeightA 1) 0x11111111

/-- Port 0 up at version 0x12 with four credits a VC. -/
def upPort : Port := { state := .up, version := 0x12, lanes := 15, credits := (List.range 12).map (fun v => (v, 4)) }

/-- A message of position 9 to position 5. -/
def message (kind vc : Nat) (hdr : BitVec 128) (n : Nat) : Msg :=
  { fn := 0, dst := 5, src := 9, kind := kind, vc := vc, hdr := hdr, words := List.replicate n 0, stripe := stripeOf kind hdr }

/-- It waits in the ingress buffer. -/
def received (m : Msg) (checked : Bool := false) : RxMsg := { msg := m, flits := 1, shared := 0, checked := checked }

theorem witness_DataFlitsArrive : (((chord upPort).port 0).isUp = true) ∧
    (∀ e ∈ [((1, 1, 0, 0) : Nat × Nat × Nat × Nat), (2, 1, 0, 8), (3, 1, 1 <<< 74, 9), (4, 2, 0, 8), (5, 2, 0, 0), (6, 10, 0, 12), (7, 11, 0, 8)],
      let m := message e.1 e.2.1 (BitVec.ofNat 128 e.2.2.1) e.2.2.2
      m.kind ≠ 0 ∧ m.kind < 8 ∧ m.words.length ≤ 12 ∧ m.dst < 2 ^ 20 ∧ m.src < 2 ^ 20 ∧ m.vc < 12 ∧ kindVc m.kind m.vc = true ∧
        kindWords m.kind m.hdr m.words.length = true ∧ m.hdr.toNat &&& hdrMask m.kind = m.hdr.toNat ∧
        m.words.all (fun c => verdict (codeMark c) == .clean) = true ∧ ((chord upPort).port 0).part = []) ∧
    flitGood [] true = false ∧ ((chord upPort).decodeFlit 0 0).2 = true ∧ ((chord upPort).port 0).discarding = false := by decide +kernel

set_option maxRecDepth 100000 in
/-- DATA flit number 0 of a RD_REQ. -/
theorem test_data_flit : let m := message 1 1 0 0
    let t := after (.dataFlit 0 (flitBytes (flitHeader 1 1 0 none []) (segmentBytes m 0 false)) 0) (chord upPort)
    ((t.port 0).rx.map (·.msg.kind), (t.port 0).rxNext, (t.port 0).ackSeq) = ([1], 1, some 0) := by decide +kernel

theorem witness_LinkTraffic : (let s := chord { upPort with retryDue := true }
     (s.port 0).isUp = true ∧ s.power.state = 0 ∧ (s.port 0).retryDue = true ∧ (s.port 0).replay = []) ∧
    (let s := chord { upPort with replay := [3] }
     (s.port 0).isUp = true ∧ (s.port 0).replay ≠ []) ∧
    (let y : TxMsg := { msg := message 1 1 0 0 }
     let s := chord { upPort with tx := [y] }
     (s.port 0).tx = [y] ∧ y.sent < y.msg.segs ∧ y.unacked.length < 64 ∧ (s.port 0).retryDue = false) ∧
    (let m := { message 1 1 0 0 with fn := 1 }
     let s := { chord upPort with egress := [m] }
     0 ∈ s.upPorts ∧ m.moved = false ∧ s.weight m.fn m.vc ≠ 0 ∧ s.portFor m = some 0 ∧ s.canAccept 0 m = true ∧ (s.port 0).hasVc m.vc = true ∧
       ({ s with egress := [{ m with fn := 2 }] } : State).weight 2 0 = 15 ∧ (s.setReg 0 (Reg.chordFnWeightA 1) 0).weight 1 1 = 0) ∧
    (let m := { message 1 1 0 0 with fn := 1 }
     let s := { chord { upPort with credits := [] } with egress := [m] }
     s.portFor m = some 0 ∧ s.canAccept 0 m = false ∧ (s.port 0).hasVc m.vc = true) := by decide +kernel

theorem witness_PortStates : (let s := chord { trainDue := true }
     (s.port 35).trainDue = false ∧ (s.port 0).trainDue = true ∧ (s.port 0).isUp = false ∧ (s.port 0).state ≠ .training ∧ s.boot.phase = .running ∧
       (s.port 0).retrain = false ∧ s.side.cxlUp = true ∧ s.serves 0 = true) ∧
    (let s := chord { trainDue := true, retrain := true }
     (s.port 0).retrain = true ∧ s.hostAssisted 2 0 = false) ∧
    (let s := chord { state := .training }
     (s.port 0).state = .training ∧ s.failingOver = false ∧ (s.port 0).adv &&& 4 ≠ 0) ∧
    (let s := chord upPort
     (s.port 0).isUp = true ∧ s.failingOver = false ∧ s.upPorts.filter (· != 0) = [] ∧ (s.port 0).lanes.testBit 3 = true) ∧
    (let s := { chord upPort with ports := [(0, upPort), (35, upPort)] }
     s.upPorts.filter (· != 0) = [35]) ∧
    (let s := chord { state := .failed, deciding := true, faultLane := some 3 }
     (s.port 0).state = .failed ∧ (s.port 0).deciding = true ∧ s.failingOver = false ∧ s.hostAssisted 1 0 = false ∧ s.decisions = [] ∧
       (s.port 0).isUp = false) := by decide +kernel

/-- Lanes 0 and 1 carry on after a fault of lane 2. -/
theorem test_failover : let t := after (.failoverDecision 0) (chord { state := .failed, deciding := true, faultLane := some 2 })
    ((t.port 0).trainDue, (t.port 0).reduced, (t.port 0).reducedHi) = (true, true, false) := by decide +kernel

theorem witness_ChordRequests : (∀ e ∈ [((1, 0, 0) : Nat × Nat × Nat), (2, 0, 8), (3, 1 <<< 74, 9)],
      let m := message e.1 1 (BitVec.ofNat 128 e.2.1) e.2.2
      let s := chord { upPort with rx := [received m] }
      s.headRx 0 1 = some (received m) ∧ s.fnOfPos m.dst = some 1 ∧ (s.fn 1).resetting = false ∧ s.regF 0 (Reg.chordFnPeerBase 1) 19 0 ≤ 9 ∧
        9 ≤ s.regF 0 (Reg.chordFnPeerLimit 1) 19 0 ∧ s.sectorAddrs 1 0 1 = some [0] ∧ s.sectorAddrs 1 (2 ^ 26) 1 = none ∧
        (s.updFn 1 (fun f => { f with resetting := true })).fnOfPos 5 = some 1 ∧ s.translate 1 0 = some 0 ∧ s.hcLine 0 = false) ∧
    (let m := message 3 1 0 9
     nmaValid (field m.hdr 79 78) (field m.hdr 77 74) = false) ∧
    (let s := chord { upPort with rx := [received (message 2 1 0 8) true] }
     s.headRx 0 1 = some (received (message 2 1 0 8) true) ∧ s.sinksFor 0 1 = true ∧ s.memoryWf = true) ∧
    (let m := message 1 1 0 0
     let s := chord { upPort with rx := [received m] }
     let a := response m 1 4 0 (s.agentCodes 0 128).2
     s.portFor a = some 0 ∧ s.canAccept 0 a = true) ∧
    (let m := message 3 1 (1 <<< 74) 9
     let s := chord { upPort with rx := [received m] }
     nmaValid (field m.hdr 79 78) (field m.hdr 77 74) = true ∧ s.chordNmas (engineOf 0) < 16) := by decide +kernel

/-- A refused position, and a WR_REQ of zeros and its ACK. -/
theorem test_chord_requests : let s := chord { upPort with rx := [received (message 1 1 0 0)] }
    (after (.rdReq 0) (s.setReg 0 (Reg.chordFnPeerLimit 1) 8)).egress.map (fun m => (m.kind, m.dst, field m.hdr 47 40)) = [(4, 9, 2)] ∧
    (after (.ingressWriteAccept 0) (chord { upPort with rx := [received (message 2 1 0 8) true] })).egress.map (fun m => (m.kind, m.dst)) = [(5, 9)] := by
  decide +kernel

def remote (kind : Nat) : Remote := { fn := 1, tag := 0, kind := kind, len := 0, laddr := 0, since := 0, ring := 0, seq := 0 }

theorem witness_ChordArrivals : (∀ code ∈ [1, 2, 3], let m := message 0 0 (BitVec.ofNat 128 (code <<< 120)) 0
      let s := chord { upPort with rx := [received m] }
      s.fnOfPos 5 = some 1 ∧ s.headRx 0 0 = some (received m) ∧ field m.hdr 127 120 = code) ∧
    (∀ kind ∈ [4, 5], let m := message kind 2 0 (if kind = 4 then 8 else 0)
      let s := chord { upPort with rx := [received m] }
      s.headRx 0 2 = some (received m) ∧ s.remote? 1 (field m.hdr 63 48) = none ∧
        ({ s with remotes := [remote (if kind = 4 then 1 else 2)] } : State).remote? 1 (field m.hdr 63 48) = some (remote (if kind = 4 then 1 else 2)) ∧
        field m.hdr 47 40 = 0 ∧ field (1 <<< 40 : BitVec 128) 47 40 ≠ 0 ∧ s.translate 1 0 = some 0 ∧ s.memoryWf = true) ∧
    (let m := message 7 11 0 8
     let s := (chord { upPort with rx := [received m] }).setReg 0 (Reg.buddyRxLen 1) 1
     s.headRx 0 11 = some (received m) ∧ (s.rxRegion 1).2 = 65536 ∧ (s.sectorAddrs 1 ((s.rxRegion 1).1 + 0) 1).isSome = true) ∧
    (let m := message 7 11 (BitVec.ofNat 128 (65536 <<< 80)) 8
     field m.hdr 127 80 = 65536) ∧
    (∀ id ∈ [0, 1, 2], let m := message 6 3 (BitVec.ofNat 128 (id <<< 96)) 1
      let s := chord { upPort with rx := [received m] }
      (s.port 0).rx.find? (fun x => x.msg.kind == 6) = some (received m) ∧ s.running 1 0 = none ∧ field m.hdr 127 96 = id ∧
        (s.collGroup 1 0).nextId = 0 ∧ (s.collGroup 1 0).seen = []) := by decide +kernel

theorem hcLine_none {s : State} (h : s.tenants.all (fun j => (s.regions j).all (fun r => !r.hc)) = true) (line : Nat) :
    s.hcLine line = false := by
  simp only [List.all_eq_true, Bool.not_eq_true'] at h
  simp only [State.hcLine, List.any_eq_false, Bool.and_eq_true, List.any_eq_true, not_exists, not_and]
  intro j hj r hr hc _
  simp [h j hj r hr] at hc

theorem witness_ChordArrivals_noHostLine : ∀ line, (chord upPort).hcLine line = false := hcLine_none (by decide +kernel)

theorem test_ack_ends_a_remote : let s := { chord { upPort with rx := [received (message 5 2 0 0)] } with remotes := [remote 2] }
    (after (.ack 0) s).remotes = [] := by decide +kernel

def collective : Collective :=
  { fn := 1, g := 0, id := 0, op := 0, alg := 0, red := 0, bf16 := false, count := 0, src := 0, dst := 0, peer := 0, tag := 0, rank := 0
    members := [5], ring := 0, seq := 0 }

theorem witness_PositionsAndTimeouts : (∀ e ∈ [((0, 1023, false) : Nat × Nat × Bool), (1, 1023, false), (1, 1024, true)],
      let s := { (chord upPort).setReg 1 Reg.collTimeout (BitVec.ofNat 32 e.1) with now := e.2.1, remotes := [remote 2], colls := [collective] }
      s.remote? 1 0 = some (remote 2) ∧ s.running 1 0 = some collective ∧ (s.reg 1 Reg.collTimeout).toNat = e.1 ∧
        (e.2.2 = true ↔ e.1 ≠ 0 ∧ (remote 2).since + 1024 * e.1 ≤ s.now)) ∧
    (let s := chord upPort
     s.side.cxlUp = true ∧ s.serves 0 = true ∧ s.reg 0 (Reg.chordFnPos 2) &&& 0x800FFFFF ≠ 0x80000005 &&& 0x800FFFFF ∧
       s.posOf 1 = some 5 ∧ (∀ k ≤ 16, k ≠ 2 → s.posOf k ≠ some 6) ∧ (s.reg 0 (Reg.chordFnPos 2)).getLsbD 31 = false ∧
       (s.reg 0 (Reg.chordFnPos 1)).getLsbD 31 = true ∧ s.enabled 1 = true ∧ s.upPorts = [0]) := by decide +kernel

theorem test_position : let s := chord upPort
    (after (.chordFnPosWrite 2 0x80000005) s).posOf 2 = none ∧ (after (.chordFnPosWrite 2 0x80000006) s).posOf 2 = some 6 ∧
      (after (.chordFnPosWrite 2 0x80000006) s).egress.map (·.pin) = [some 0] := by decide +kernel

/-! The Locus path: ring 0 of function 1, its head slot at 0x10000. -/

/-- The judged head entry of an opcode, with sequence number 0, given its bytes from 16 on. Group 0 has the positions 5 and 9; an
IKF module's header is at 0x30000. -/
def ringed (op body : Nat) (minor : Nat := 4) : State := let s := chord upPort
  let h : Nat := 0x00464B49 + 1 <<< 32 + minor <<< 40 + 1 <<< 128
  let x := s.facet 0
  { s with
    hbm := { s.hbm with cells := ((({} : Ram).poke 0x10000 (leBytes 16 (op <<< 16) ++ leBytes 48 body)).poke 0x20000 [5, 0, 0, 0, 9]).poke 0x30000 (leBytes 64 h) }
    facets := [(0, { x with code := x.code.poke 0 (leBytes 32 (1 + 63 <<< 32 + 2 <<< 40 + 65536 <<< 64 + 1024 <<< 96)) })]
    store := { s.store with starting := false }
    fns := s.fns ++ [(1, { rings := [(0, { judged := true })]
                           regs := [(Reg.hifSelect, 0x80000002), (Reg.locusCfg 0, 0x80000004), (Reg.locusRingLo 0, 0x10000),
                             (Reg.locusCqLo 0, 0x1000), (Reg.collGroupLo 0, 0x20000), (Reg.collGroupSize 0, 0x80000002),
                             (Reg.wsetCtrl, 0x80000001), (Reg.wsetBaseB, 2)] })] }

/-- The entry at its head. -/
def headOf (s : State) : List Byte := (s.headEntry 1 0).getD []

/-- The conditions of AtHead as one test. -/
def headReady (s : State) (opcode : Nat) : Bool := let b := headOf s
  (s.ring 1 0).judged && s.registered 1 0 && s.frontEndRuns 1 && s.headEntry 1 0 == some b && (s.atOnce 1 b).isNone && s.entryReady 1 0 b &&
    byteField b 2 1 == opcode && (s.entry? 1 0 (byteField b 0 2)).isNone && (opcode == 8 || s.inTurn 1 0)

theorem atHead_of_ready {s : State} {op : Nat} (h : headReady s op = true) : AtHead s 1 0 (headOf s) op := by
  simp only [headReady, Bool.and_eq_true, Bool.or_eq_true, beq_iff_eq, Option.isNone_iff_eq_none] at h
  obtain ⟨⟨⟨⟨⟨⟨⟨⟨h1, h2⟩, h3⟩, h4⟩, h5⟩, h6⟩, h7⟩, h8⟩, h9⟩ := h
  exact ⟨h1, h2, h3, fun hn => h9.resolve_left hn, h4, h5, h6, h7, h8⟩

theorem witness_FrontEndJudges : ∀ op ∈ [0, 7], let s := (ringed op 0).updFn 1 (fun f => { f with rings := [(0, { woken := true })] })
    s.frontEndRuns 1 = true ∧ s.registered 1 0 = true ∧ (s.ring 1 0).woken = true ∧ (∀ k < 64, k ≠ 0 → (s.ring 1 k).woken = false) ∧
      s.headAddr 1 0 = some 0x10000 ∧ s.headEntry 1 0 = some (headOf s) ∧ s.atOnce 1 (headOf s) = (if op = 0 then some 1 else none) ∧
      (let s := { s with hull := { s.hull with sets := [(setOf 32, { valid := 1, tag := 0, tenant := 1 } :: freshSet.drop 1)] } }
       (s.lineWay 32).map (fun w => w.valid.getLsbD (0x10000 / 128 % 16)) = some true ∧ (s.updRing 1 0 (fun q => { q with nextSeq := 1 })).headEntry 1 0 = none) := by
  decide +kernel

theorem witness_EntriesAccepted_mark : headReady (ringed 7 0) 7 = true := by decide +kernel

/-- An entry is refused or taken within one command: MARK completes with status 0, a reserved opcode gives status 1. -/
theorem test_mark : (after (.mark 1 0) (ringed 7 0)).out.records.map (fun r => (r.fn, r.addr)) = [(1, 0x1000)] ∧
    ((after (.mark 1 0) (ringed 7 0)).ring 1 0).nextSeq = 1 := by decide +kernel

theorem witness_EntriesAccepted_launch : let s := ringed 1 (1 <<< 32)
    let b := headOf s
    let k := kernelHeader ((s.facet 0).code.fetch 0 32)
    headReady s 1 = true ∧ s.codeFacets 1 = [0, 1] ∧ (s.facet 0).code.badIn 0 32 = false ∧ s.loading 1 0 32 = false ∧ s.loading 1 0 (32 + k.codeLen) = false ∧
      k.check 0 = none ∧ k.codeLen = 1024 ∧ ((kernelHeader [2]).check 0 = some 4) ∧
      (let l : Launch := { id := s.nextId, fn := 1, ring := 0, seq := 0, codeBase := byteField b 16 4, codeLen := k.codeLen, h := k.h, g := k.g, o := k.o
                           ralelle := k.ralelle, nblocks := byteField b 20 4, param := byteField b 24 8, seedLo := 0, seedHi := 0, seeded := false }
       l.nblocks = 1 ∧ ((s.withReserved l).placeFor l).isSome = true) := by decide +kernel

theorem test_launch : ((after (.launch 1 0) (ringed 1 (1 <<< 32))).launches.map (fun l => (l.codeLen, l.h, l.g, l.o))).drop 1 = [(1024, 63, 2, 65536)] := by
  decide +kernel

theorem witness_EntriesAccepted_codeLoad : (∀ dest ∈ [0, 2048], let s := ringed 2 (dest + 8 <<< 32)
      let b := headOf s
      headReady s 2 = true ∧ s.launches.any (fun (l : Launch) => l.fn == 1 && decide (l.codeBase < byteField b 16 4 + byteField b 20 4) &&
        decide (byteField b 16 4 < l.codeBase + 32 + l.codeLen)) = (dest == 0)) := by decide +kernel

theorem witness_EntriesAccepted_drain : headReady (ringed 3 4) 3 = true ∧ entryBits (headOf (ringed 3 4)) 16 2 1 = 2 ∧ (ringed 3 4).drainCheck 1 2 = none ∧
    ((ringed 3 4).setReg 1 Reg.wsetCtrl 0).drainCheck 1 2 = some 8 ∧ headReady ((ringed 3 4).setReg 1 Reg.wsetCtrl 0) 3 = true := by decide +kernel

theorem witness_EntriesAccepted_collectives : let s := ringed 4 (1 <<< 32 + 1 <<< 192)
    (s.posOf 1).isSome = true ∧ s.weight 1 3 ≠ 0 ∧ (s.setReg 0 (Reg.chordFnPos 1) 0).posOf 1 = none ∧
      ({ s with colls := [{ collective with wait := true }] } : State).running 1 0 = some { collective with wait := true } := by decide +kernel

/-- COUNT 1 for the operations that have one; M, N and R of 1 for LOWRANK. -/
theorem witness_EntriesAccepted_collectivesAtHead : ∀ op < 8, headReady (ringed 4 (op + 1 <<< 32 + 1 <<< 192 + if op = 7 then 1 <<< 224 + 1 <<< 256 else 0)) 4 = true ∧
    (let s := ringed 4 (op + 1 <<< 32 + 1 <<< 192 + if op = 7 then 1 <<< 224 + 1 <<< 256 else 0)
     let b := headOf s
     (s.makeColl 1 (entryBits b 17 7 5) 0 (byteField b 0 2) op (entryBits b 17 1 0) (entryBits b 17 3 2) (entryBits b 17 4 4 == 1) (byteField b 40 8)
       (byteField b 24 8) (byteField b 32 8) (entryBits b 20 19 0) (BitVec.ofNat 32 (byteField b 52 4)) (byteField b 40 4) (byteField b 44 4)
       (byteField b 48 1)).2.1.isSome = true) := by decide +kernel

theorem witness_EntriesAccepted_lowrankCont : let s := { ringed 5 3 with colls := [{ collective with wait := true, id := 3 }] }
    headReady s 5 = true ∧ entryBits (headOf s) 20 2 0 = 0 ∧ byteField (headOf s) 16 4 = 3 ∧
      s.waitingLowrank 1 0 3 = some { collective with wait := true, id := 3 } ∧ (ringed 5 3).waitingLowrank 1 0 3 = none ∧ headReady (ringed 5 3) 5 = true := by
  decide +kernel

theorem witness_EntriesAccepted_remotes : ∀ kind ∈ [1, 2, 3], let s := ringed 6 (kind + 1 <<< 8)
    headReady s 6 = true ∧ entryBits (headOf s) 16 1 0 = kind ∧ s.posOf 1 = some 5 ∧ s.weight 1 1 ≠ 0 ∧
      (s.setReg 0 (Reg.chordFnPos 1) 0).posOf 1 = none ∧ headReady (s.setReg 0 (Reg.chordFnPos 1) 0) 6 = true := by decide +kernel

theorem witness_EntriesAccepted_noHostLineAtRing : (∀ line, (ringed 8 0x30000).hcLine line = false) ∧ (∀ line, (ringed 6 0x101).hcLine line = false) :=
  ⟨hcLine_none (by decide +kernel), hcLine_none (by decide +kernel)⟩

theorem witness_EntriesAccepted_lower : ∀ minor ∈ [4, 5], let s := ringed 8 0x30000 minor
    let h := s.agentRead 0x30000 64
    headReady s 8 = true ∧ s.boot.mpUp = true ∧ s.translate 1 0x30000 = some 0x30000 ∧ byteField (headOf s) 16 8 = 0x30000 ∧ h.2.2 = [] ∧
      byteField h.2.1 0 4 = 0x00464B49 ∧ ikfAccepted h.2.1 = (minor == 4) ∧ byteField (headOf s) 24 4 < byteField h.2.1 16 4 ∧
      s.inOneRegion 1 0x30000 (moduleLength h.2.1) = true ∧ (h.1.agentRead 0x30000 (moduleLength h.2.1)).2.2 = [] ∧
      s.hostAssisted 9 0 = false ∧ s.loads = [] := by decide +kernel

/-- An accepted, incomplete entry of ring 0. -/
def entry0 (opcode : Nat) : Entry := { fn := 1, ring := 0, seq := 0, opcode := opcode, user := 0, msix := false }

theorem witness_EntriesComplete_launchComplete : ∀ l ∈ [{ kernel with live := 0 }, { kernel with live := 0, lost := true },
      { kernel with live := 0, fault := some (15, 0, 63, 32) }, kernel],
    let s := { ringed 7 0 with launches := [l], entries := [entry0 1] }
    s.launch? 0 = some l ∧ s.entry? 1 0 0 = some (entry0 1) ∧ s.registered 1 0 = true ∧ l.nblocks ≤ l.next ∧ s.launchOut 0 = false ∧
      (l = kernel ↔ l.live ≠ 0) := by decide +kernel

def load (lower : Bool) : CodeLoad :=
  { fn := 1, ring := 0, seq := 0, dest := 262136, len := 8, src := 0x10000, lower := lower, image := if lower then some [1, 2, 3, 4, 5, 6, 7, 8] else none }

/-- A code store that ends with the image. -/
theorem witness_EntriesComplete_loadsComplete : ∀ lower : Bool, let s := { ringed 7 0 with entries := [entry0 2], loads := [load lower] }
    s.entry? 1 0 0 = some (entry0 2) ∧ s.registered 1 0 = true ∧
      s.loads.find? (fun l => l.fn == 1 && l.ring == 0 && l.seq == 0 && l.lower == lower) = some (load lower) ∧ s.translate 1 0x10000 = some 0x10000 ∧
      (s.agentRead 0x10000 8).2.2 = [] ∧ (load lower).dest + 8 ≤ 262144 ∧ s.boot.mpUp = true ∧
      s.facets.all (fun e => Memory.wf e.2.code && e.2.code.marks.isEmpty) = true ∧ (({} : Facet).code) = {} := by decide +kernel

theorem test_codeLoadComplete : let s := { ringed 7 0 with entries := [entry0 2], loads := [load false] }
    let t := after (.codeLoadComplete 1 0 0) s
    ((t.facet 0).code.byte 262138, (t.facet 1).code.byte 262138, t.loads.length, t.out.records.length) = (7, 7, 0, 1) := by decide +kernel

def drain0 (storeEnd : Nat) (marker : Bool) : Drain :=
  { fn := 1, ring := 0, seq := 0, buf := 0, buddy := true, store := true, step := 4, base := 0, len := 65536, marker := marker, storeEnd := storeEnd }

theorem witness_EntriesComplete_drainComplete : ∀ e ∈ [((0, true) : Nat × Bool), (1, false), (1, true)],
    let s := { ringed 7 0 with entries := [entry0 3], drains := [drain0 e.1 e.2] }
    s.drainOf 1 = some (drain0 e.1 e.2) ∧ s.entry? 1 0 0 = some (entry0 3) ∧ s.registered 1 0 = true ∧ (drain0 e.1 e.2).hold = false ∧
      s.ckptsLeft 1 = true := by decide +kernel

theorem test_drainComplete : (after (.drainComplete 1) { ringed 7 0 with entries := [entry0 3], drains := [drain0 1 true] }).drains = [] := by
  decide +kernel

/-! The remaining conditions of the statements on memory, the fabric and the entries. -/

/-- The line request of the group with a pending write to end; ACQ and REL of lane 0 whose only request is back; a transfer. -/
theorem witness_LineReturns_ends : (∀ kind ∈ [ReqKind.load, .store, .hint, .acq, .rel, .tmLoad, .tmStore], let s := line1 kind .served
      let r := request kind 1 .served
      s.req? 7 = some r ∧ r.stage = .served ∧ s.markGate r = none ∧
        (s.reqGroup r).map (fun g => g.writes.find? (fun w => w.token == r.token)) =
          some (some { token := 9, vregs := [4], uregs := [], traps := true, lanes := 1 })) ∧
    (∀ acquire : Bool, let k : LockOp := { acquire := acquire, late := false, rcv := 0, dest := 3, lanes := 1, accs := [], got := 0, sibling := 0
                                           wrong := 0, pois := [], left := 1 }
      let r := { request (if acquire then .acq else .rel) 1 .served with result := [(0, 1, false)] }
      let s := { line1 .load .served { grp with wait := .lock, lock := some k } with reqs := [r] }
      s.req? 7 = some r ∧ s.markGate r = none ∧ (s.reqGroup r).map (·.lock) = some (some k) ∧ (s.reqGroup r).map (·.done) = some false ∧ k.left = 1 ∧ k.stop = 0 ∧ k.pois = [] ∧
        (∀ x ∈ r.result, x.2.2 = false ∧ x.2.1.toNat < 4)) ∧
    (∀ store : Bool, let x : Transfer := { id := 9, slot := 0, vf := 1, launch := 0, block := 0, store := store, tag := 3, mem := [], opc := []
                                           use := 0, cls := 0, dead := false, after := [], lines := [2], out := 1 }
      let s := (line1 (if store then .tmStore else .tmLoad) .served).updFacet 0 (fun y => { y with transfers := [x] })
      (s.facet 0).transfers = [x] ∧ x.id = (request .tmLoad 1 .served).token ∧ x.lines ≠ []) := by decide +kernel

theorem witness_ResidentLineServes_gates : ∀ kind ∈ [ReqKind.load, .store], ∀ stage ∈ [ReqStage.formed, .busy], let s := line1 kind stage
    s.hullClocked 1 = true ∧ ∀ q ∈ s.reqs, q.stage ≠ .accepted ∧ q.late = false := by decide +kernel

theorem witness_FillArrivalIsInvisible_gates : let s := { line1 .load .served with reqs := [] }
    s.hullClocked 1 = true ∧ (s.pc (engineOf 16)).nma = [] ∧ s.reqs = [] := by decide +kernel

/-- The same with engine 0 in a service window. -/
def serving (s : State) : State := { s with hbm := { s.hbm with pcs := [(0, { service := true })] } }

theorem witness_AgentsAreCoherent_gates : let s := serving (line1 .load .served)
    s.agentGate 0x7F 1 true = none ∧ s.agentGate 0x7F 1 false = none ∧ s.agentGate 2048 128 false = none ∧ s.memoryWf = true ∧ s.drains = [] ∧
      (s.pc (engineOf 0)).failedPins = [] ∧ (s.lineWay 1).map (fun w => w.dirty &&& ~~~ w.valid) = some 0 := by decide +kernel

theorem witness_PinsQuotaAndThrashGuard_resident : let s := line1 .load .served
    s.hullClocked 1 = true ∧ s.lineWaits 1 = false ∧ (s.lineWay 1).map (fun w => (w.filling, decide (w.valid ≠ 0))) = some (false, true) ∧ s.inOneRegion 1 2048 2048 = true ∧
      s.translate 1 2048 = some 2048 ∧ s.inOneRegion 1 2048 0 = true := by decide +kernel

theorem witness_SinkAndCells_turns : (let s := engine { inbound := [write0] }
      let p := s.pc 0
      (p.sink.map (·.sector)).Nodup ∧ p.inbound.findIdx? (fun w => p.entries.any (·.sector == w.sector) || decide (p.used < 256)) = some 0 ∧
        p.inbound[0]? = some write0 ∧ s.engineUp 0 = true ∧ p.nma = [] ∧ (p.sink ++ p.inbound).all (fun v => v.data.pois == 0) = true) ∧
    (let s := (engine {}).setReg 0 Reg.frustumCfg 0
     let p := s.pc 0
     p.sink = [] ∧ p.nma = [] ∧ p.agentAt = none ∧ p.copy = none ∧ (s.reg 0 Reg.frustumCfg).getLsbD 31 = false) ∧
    (let s := engine { sink := [write0] }
     s.engineUp 0 = true ∧ engineOf write0.sector = 0 ∧ s.memoryWf = true) := by decide +kernel

theorem witness_ScrubRefreshRemap_spares : (let s := (engine {}).setReg 0 Reg.frustumCfg 0xC0000000
     (s.pc 0).heldByCopy (sectorAt 0 0 0) = false ∧ (s.pc (engineOf (sectorAt 0 0 0))).failedPins = [] ∧ s.engineUp 0 = true) ∧
    (let s := (engine { rowUe := [1] }).setReg 0 Reg.frustumCfg 0xC0000000
     let used (s : State) := ((s.remapsOf 0).filter (fun x => x.1 == 0 && x.2.1 == 0)).map (·.2.2.2)
     let t := { s with hbm := { s.hbm with remaps := [(0, (List.range 128).map (fun i => (0, 0, 2 + i, i)))] } }
     s.remapDue 0 0 1 = true ∧ used s = [] ∧ (s.remapsOf 0).length < 4096 ∧ t.remapDue 0 0 1 = true ∧ (List.range 128).all ((used t).contains ·) = true) ∧
    (∀ sp : Bool, let s := engine { copy := some { bank := 1, row := 2, spare := 3 } }
     let s := { s with boot := { s.boot with spUp := sp } }
     s.inService 0 = true ∧ s.memoryWf = true ∧ s.spRuns = sp ∧ s.hbm.pcs.all (fun e => e.2.failedPins.isEmpty) = true) := by decide +kernel

theorem witness_AccumulateApplies_order : add5.after = none ∧ add5.ahead = 0 ∧ add5.ordered = false ∧ (engine { nma := [add5] }).inService 0 = true := by decide +kernel

/-- A port that has no credit to hold a flit for; a flit out of order; a port that discards already. -/
theorem witness_DataFlitsArrive_ports : (chord upPort).portRuns 0 = true ∧ ((chord upPort).port 0).place 1 ≠ none ∧
    (let s := chord { upPort with version := 0x10 }
     s.portRuns 0 = true ∧ (s.port 0).place 8 = none) := by decide +kernel

set_option maxRecDepth 100000 in
theorem witness_DataFlitsArrive_late : let b := flitBytes (flitHeader 1 1 5 none []) (segmentBytes (message 1 1 0 0) 0 false)
    flitGood b true = true ∧ fieldN (byteField b 0 10) 79 76 = 1 ∧ fieldN (byteField b 0 10) 71 60 = 5 ∧ ((chord upPort).port 0).rxNext = 0 ∧
      ((chord { upPort with discarding := true }).port 0).discarding = true ∧ ((chord { upPort with discarding := true }).port 0).seen = none ∧
      ((chord { upPort with discarding := true, retryDue := true }).port 0).retryDue = true := by decide +kernel

/-- Fifteen wrong symbols of a codeword are corrected, sixteen are not; its second flit begins no codeword, the sixth one does. -/
theorem witness_DataFlitsArrive_codewords : ((chord upPort).decodeFlit 0 15).2 = true ∧ ((chord upPort).decodeFlit 0 16).2 = false ∧
    ((chord upPort).decodeFlit 0 (545 * 16)).2 = false ∧ upPort.pairStarts = true ∧ ({ upPort with gotFlits := 1 } : Port).pairStarts = false ∧
    ({ upPort with gotFlits := 5 } : Port).pairStarts = true ∧
    (let s := after (.dataFlit 0 [] (545 * 16 + 15)) (chord upPort)
     s.regF 0 (Reg.portFec 0) 31 0 = 1 ∧ s.regF 0 (Reg.portLink 0) 31 16 = 1 ∧ s.regF 0 (Reg.portLink 0) 15 0 = 1) := by decide +kernel

theorem witness_LinkTraffic_due : (let y : TxMsg := { msg := message 2 1 0 8, sent := 1, unacked := [3] }
     let s := chord { upPort with replay := [3], tx := [y] }
     s.portRuns 0 = true ∧ s.power.state = 0 ∧ (s.port 0).retryDue = false ∧ (s.port 0).replay = [3] ∧ (s.port 0).tx = [y] ∧ 3 ∈ y.unacked) ∧
    (let s := chord upPort
     s.portRuns 0 = true ∧ (s.port 0).replay = [] ∧ (s.port 0).tx = [] ∧
       ({ s with power := { s.power with state := 1 } } : State).portRuns 0 = true) ∧
    (let s := (chord { upPort with version := 0x10 }).setReg 0 (Reg.chordFnWeightA 1) 0
     s.vcClosed 1 1 = true ∧ (chord upPort).vcClosed 1 1 = false) := by decide +kernel

theorem witness_PortStates_orders : (let s := chord { state := .training, retrain := true, attempts := 2 }
     (s.port 0).retrain = true ∧ s.hostAssisted 2 0 = false ∧ 3 ≤ (s.port 0).attempts + 1 ∧ s.failingOver = false) ∧
    (let s := { chord { state := .failed } with decisions := [{ fn := 1, subject := 0, due := 1000, data := 0 }] }
     s.side.cxlUp = true ∧ s.serves 0 = true ∧ s.now = 1000 ∧ (s.port 0).isUp = false ∧ (s.port 0).state ≠ .training ∧
       ({ s with now := 999 } : State).decisions.all (fun d => decide (999 < d.due)) = true) := by decide +kernel

theorem witness_ChordRequests_gates : (let s := serving (chord { upPort with rx := [received (message 1 1 0 0)] })
     s.agentGate 0 128 false = none ∧ s.headRx 0 1 = some (received (message 1 1 0 0))) ∧
    (let s := chord { upPort with rx := [received (message 2 1 0 8) true] }
     s.agentGate 0 128 true = none ∧ (message 2 1 0 8).words.length = 8) ∧
    (let s := chord { upPort with rx := [received (message 3 1 (1 <<< 74) 9)] }
     s.agentGate 0 128 true = none ∧ s.storeInFlight 0 = false ∧ (s.pc (engineOf 0)).roomFor [0] = true) := by decide +kernel

/-- Line 0 being filled for a request holds an agent's write back. -/
theorem witness_ChordArrivals_landing : (let s := { chord { upPort with rx := [received (message 4 2 0 8)] } with remotes := [remote 1] }
     s.remote? 1 0 = some (remote 1) ∧ (remote 1).landed = none ∧ (remote 1).kind = 1 ∧ s.agentGate 0 128 true = none ∧
       ({ s with reqs := [request .store 0 .accepted] } : State).agentGate 0 128 true ≠ none) ∧
    (chord upPort).ioClocked (ioOfPort 0) = true := by decide +kernel

theorem witness_PositionsAndTimeouts_collectives : (remote 2).landed = none ∧ (let s := { chord upPort with colls := [collective] }
    s.ceClocked 0 = true ∧ s.digestGate collective = none) := by decide +kernel

theorem witness_EntriesAccepted_gates : (∀ op < 8, let s := ringed 4 (op + 1 <<< 32 + 1 <<< 192 + if op = 7 then 1 <<< 224 + 1 <<< 256 else 0)
      s.tableGate 1 0 = none ∧ s.vcClosed 1 3 = false ∧ (s.setReg 0 (Reg.chordFnWeightA 1) 0).vcClosed 1 3 = true) ∧
    (∀ kind ∈ [1, 2, 3], let s := serving (ringed 6 (kind + 1 <<< 8))
      s.agentGate 0 (if kind = 3 then 128 else 256) (kind == 1) = none ∧ s.landingFree 256 = true ∧ byteField (headOf s) 32 8 = 0 ∧ byteField (headOf s) 18 1 = 0) := by decide +kernel

/-! The window, the host's interfaces and the debugger. -/

/-- The module of the Chord tests, with MP up or absent. -/
def running (mp : Bool := true) : State := let s := chord upPort
  { s with boot := { s.boot with mpUp := mp } }

theorem witness_WindowAccess : (∀ mp : Bool, (running mp).side.cxlUp = true ∧ (running mp).serves 1 = mp ∧ (running mp).serves 0 = mp) ∧
    ((running false).held.filter (fun h => h.fn == 1 && !h.read)).length < 32 ∧
    32 ≤ (({ running false with held := List.replicate 32 { fn := 1, addr := 0, size := 4, value := 0 } } : State).held.filter (fun h => h.fn == 1 && !h.read)).length ∧
    (∀ e ∈ plainRegs, (if e.1 then 0 = 0 else 1 ≤ 16 ∧ 16 ≤ 16)) ∧ (running).serves 16 = true := by decide +kernel

/-- A write of a byte; a write while MP is absent; a write of all ones to WSET_CTRL, of which bits 29 to 24 do not exist. -/
theorem test_window : (after (.windowWrite 1 Reg.winStatus 1 0) running).regF 1 Reg.winStatus 31 31 = 1 ∧
    (after (.windowWrite 1 Reg.wsetCtrl 4 7) (running false)).held = [{ fn := 1, addr := Reg.wsetCtrl, size := 4, value := 7 }] ∧
    (after (.windowWrite 1 Reg.wsetCtrl 4 0xFFFFFFFF) running).reg 1 Reg.wsetCtrl = 0xC0FFFFFF ∧
    (after (.windowBadSizeRead 1 2 2) running).out.answers = [(0, 2 ^ 32 + 2, [0xFF, 0xFF, 0xFF, 0xFF])] := by decide +kernel

theorem witness_RegisterCommands : (let s := ringed 7 0
     s.side.cxlUp = true ∧ s.serves 0 = true ∧ s.serves 1 = true ∧ s.registered 1 0 = true ∧ s.registered 1 1 = false ∧ s.registered 2 0 = false ∧
       s.outstandingOn 1 0 = 0 ∧ ({ s with entries := [entry0 7] } : State).outstandingOn 1 0 ≠ 0 ∧ field (2 : Word) 7 0 ≤ 2 ∧ 2 < field (3 : Word) 7 0) ∧
    (∀ e ∈ [((4, true) : Nat × Bool), (3, false)], let s := (ringed 7 0).setReg 1 (Reg.locusRingLo 1) 0x11000 |>.setReg 1 (Reg.locusCqLo 1) 0x2000
      let n := 2 ^ e.1
      let base := s.regF 1 (Reg.locusRingHi 1) 15 0 * 2 ^ 32 + s.regF 1 (Reg.locusRingLo 1) 31 6 * 64
      let cq := (s.reg 1 (Reg.locusCqHi 1)).toNat * 2 ^ 32 + s.regF 1 (Reg.locusCqLo 1) 31 6 * 64
      ((s.reg 1 Reg.hifSelect).getLsbD 31 = true ∧ s.inOneRegion 1 base (64 * n) = true ∧ (s.regionOf 1 base).map (·.hc) = some false ∧
        base % (64 * n) = 0 ∧ cq % (128 * n) = 0) ∧ (decide (16 ≤ n ∧ n ≤ 4096) = e.2)) := by decide +kernel

theorem test_locusCfg : let s := (ringed 7 0).setReg 1 (Reg.locusRingLo 1) 0x11000 |>.setReg 1 (Reg.locusCqLo 1) 0x2000
    (after (.locusCfgWrite 1 1 0x80000004) s).registered 1 1 = true ∧ (after (.locusCfgWrite 1 1 0x80000003) s).registered 1 1 = false := by decide +kernel

theorem witness_HostInterfaces : (let s := running
     s.side.cxlUp = true ∧ s.boot.phase = .running ∧ s.memoryWf = true ∧ (s.pc (engineOf 0)).failedPins = [] ∧ s.lineWay 0 = none ∧
       s.hull.held.length < 524288 ∧ reservedBase - 1 < reservedBase ∧ reservedBase ≤ deviceBytes - 1 ∧ s.colls = [] ∧
       s.boot.pinPerst = false ∧ s.power.xtalOk = true ∧ s.power.lock 4 = true ∧ s.power.state ≠ 2 ∧ s.boot.mpUp = true ∧ s.side.dynAddr = none) ∧
    (let s := { running with hull := { (running).hull with snoops := [1], held := [1] } }
     127 / 64 ∈ s.hull.snoops ∧ 128 / 64 ∉ s.hull.snoops ∧ (sectorWrites (64 * (127 / 64)) (([1] : List Byte).take 64) false).length = 1) ∧
    (let s := ringed 7 0
     s.registered 1 0 = true ∧ s.translate 1 0x10000 = some 0x10000 ∧ s.ringSize 1 0 = 16 ∧ 0x103C0 < 0x10000 + 64 * 16) ∧
    (let s := { running with side := { cxlUp := true, dynAddr := some 8 } }
     s.side.dynAddr.isSome = true ∧ s.side.offset = 0) := by decide +kernel

set_option maxRecDepth 100000 in
/-- A host write of a whole slot of ring 0 wakes its front end; the reserved region reads as zero; SETDASA gives the address. -/
theorem test_host : ((after (.cxlMemWrite 0x103C0 (List.replicate 64 1) (BitVec.allOnes 64) false) (ringed 7 0)).ring 1 0).woken = true ∧
    (after (.cxlMemRead reservedBase false) running).out.answers = [(1, reservedBase, List.replicate 64 0)] ∧
    (after (.setdasa 127) running).side.dynAddr = some 127 := by decide +kernel

/-- The group in slot 0 of logical Facet 0 of function 1, with its debug on. -/
def debugging (g : Group := grp) (on : Bool := true) : State :=
  (at' (ins 0 0x86 0 0 0 0 0 0 0) g).setReg 0 Reg.dbgTarget 0x01000000 |>.setReg 0 Reg.dbgEnable (if on then 2 else 0)

theorem witness_DebugCommands : (∀ on : Bool, ∀ g ∈ [grp, { grp with halt := .halted }, { grp with halt := .pending }, { grp with halt := .stepped },
        { grp with halt := .halted, faulted := some { code := 15, pc := 32, mask := 1, lanes := 1, addr := 0, info := 0, depth := 0 } }],
      let s := debugging g on
      s.side.cxlUp = true ∧ s.serves 0 = true ∧ s.dbgGroup = some (0, 0, g) ∧ s.debugOn s.dbgVf = on ∧ g.wait = .none ∧ s.groupQuiet 0 0 g = true) ∧
    (∀ e ∈ [((0, 2047) : Nat × Nat), (1, 63), (1, 71), (2, 64), (3, 4095)],
      let g := { grp with halt := .halted }
      let s := (debugging g).setReg 0 Reg.dbgAddr (BitVec.ofNat 32 (e.1 <<< 30 ||| e.2))
      s.regF 0 Reg.dbgAddr 31 30 = e.1 ∧ s.regF 0 Reg.dbgAddr 29 0 = e.2 ∧ (s.dbgWord 0 g e.1 e.2).isSome = true) ∧
    (let s := { debugging with reqs := [request .load 0 .served] }
     s.groupQuiet 0 0 grp = false) ∧
    ((debugging).facets.all (fun e => e.2.groups.all (fun x => x.2.faulted.isNone)) = true) := by decide +kernel

theorem test_debug : ((after .dbgStep (debugging { grp with halt := .halted })).group? 0 0).map (·.halt) = some .stepping ∧
    (after .dbgDataRead ((debugging { grp 7 with halt := .halted }).setReg 0 Reg.dbgAddr 64)).out.answers = [(0, Reg.dbgData, [7, 0, 0, 0])] ∧
    ((after (.dbgDataWrite 9) ((debugging { grp 7 with halt := .halted }).setReg 0 Reg.dbgAddr 64)).group? 0 0).map (fun g => tget g.v 64) = some 9 := by
  decide +kernel

theorem witness_TenantCommands : (let s := running
     s.side.cxlUp = true ∧ s.serves 0 = true ∧ s.serves 1 = true ∧ s.enabled 1 = true ∧ s.enabled 2 = false ∧ (s.fn 1).resetting = false ∧
       s.outstanding 1 = 0 ∧ ((s.updFn 1 (fun f => { f with recover := true })).fn 1).recover = true ∧
       ({ s with entries := [entry0 1] } : State).outstanding 1 ≠ 0 ∧ ((s.updFn 1 (fun f => { f with resetting := true, disableAfter := true })).fn 1).resetting = true) ∧
    (∀ sp : Bool, let s := { ringed 7 0 with drains := [drain0 0 false] }
      let s := { s with boot := { s.boot with spUp := sp } }
      s.side.cxlUp = true ∧ s.serves 1 = true ∧ s.drainOf 1 = some (drain0 0 false)) := by decide +kernel

/-- Function 2 wants position 0, which function 1 has: error 1; positions 1 of function 1's two: the same; a position nobody has. -/
theorem test_tenEnable : let s := (running).setReg 0 (Reg.tenFacets 2 0) 1
    (after (.tenEnable 2) s).regF 0 (Reg.tenStatus 2) 15 8 = 1 ∧ (after (.tenEnable 2) s).enabled 2 = false ∧
    (after (.tenEnable 2) ((running).setReg 0 (Reg.tenFacets 2 0) 4)).regF 0 (Reg.tenStatus 2) 15 8 = 6 ∧
    (after (.tenEnable 2) { (running).setReg 0 (Reg.tenFacets 2 0) 4 with positions := [some 0, some 1, some 2] }).enabled 2 = true := by decide +kernel

/-! The Gnomon store. -/

/-- A generation of one 64 KiB unit, 6 page units, in stripe 64. -/
def generation (pages : Nat) (committed : Bool := false) : Generation :=
  { gen := 1, fn := 1, step := 7, buf := 0, len := 1, stripes := [64], filled := 65536, pages := pages, committed := committed }

/-- The store holding it. -/
def stored (g : Generation) (sp : Bool := true) : State := let s := ringed 7 0
  { s with store := { s.store with gens := [g] }, boot := { s.boot with spUp := sp } }

theorem witness_GnomonStore : (∀ e ∈ [((0, false) : Nat × Bool), (5, false), (5, true)], let g := generation e.1
      let s := { stored g with drains := [{ drain0 0 true with gen := 1, overlap := e.2 }] }
      s.store.gens.find? (fun g => g.fn == 1 && g.isOpen) = some g ∧ s.spRuns = true ∧ s.store.paused = false ∧ g.pages < g.ready ∧ s.store.due = [] ∧
        s.store.queue = [] ∧ (s.store.gens.map (·.gen)).Nodup ∧ g.units = 6 ∧ s.legOpen g = true ∧ s.drains.any (·.overlap) = e.2) ∧
    (64 ∈ (stored (generation 0)).store.used ∧ 4095 ∉ (stored (generation 0)).store.used ∧ tableWf 16 (stored (generation 0)).store.erases = true ∧
      tableWf 32 (stored (generation 0)).store.reads = true) ∧
    (∀ on : Bool, let s := (stored (generation 0)).setReg 0 Reg.gnCfg (if on then 0x80000001 else 1)
      (s.reg 0 Reg.gnCfg).getLsbD 31 = on ∧ s.spRuns = true ∧ s.store.paused = false ∧ s.decisions = []) := by decide +kernel

/-- No replacement is left on die 0, plane 0 once every block from 4032 on is used. -/
theorem witness_GnomonStore_noSpareBlock : let s := { (stored (generation 0)).store with bad := (List.range 64).map (fun i => (i, 4032 + i)) }
    ((List.range 64).map (fun i => blockNo 0 0 (4032 + i))).filter (fun r => s.bad.all (fun e => e.1 != r && e.2 != r)) = [] ∧
      placeData 0 = (0, 0, 0, 0) := by decide +kernel

theorem witness_GnomonStore_restores : (∀ e ∈ [((1, true) : Nat × Bool), (0, false)], let s := (stored (generation 6 true)).setReg 0 Reg.gnGenSel 0x100
      let s := s.setReg 1 Reg.wsetCtrl (BitVec.ofNat 32 (0x80000000 + e.1))
      s.side.cxlUp = true ∧ s.serves 0 = true ∧ s.regF 0 Reg.gnGenSel 12 8 = 1 ∧ s.translate 1 (s.wset 1 0).1 = some 0 ∧
        (s.store.committed 1)[s.regF 0 Reg.gnGenSel 1 0]? = some (generation 6 true) ∧ (s.store.committed 1)[1]? = none ∧ s.drains = [] ∧ s.store.restore = none ∧
        decide (65536 ≤ (s.wset 1 0).2) = e.2 ∧ field (0x100 : Word) 12 8 = 1) ∧
    (∀ next ∈ [0, 5, 6], let g := generation 6 true
      let r : Restore := { gen := 1, fn := 1, base := 0, next := next }
      let s := { stored g with store := { (stored g).store with restore := some r } }
      s.store.restore = some r ∧ s.store.gens.find? (fun g => g.gen == r.gen) = some g ∧ s.spRuns = true ∧ s.store.scrubbing = false ∧
        s.store.relocate = [] ∧ s.store.paused = false ∧ s.memoryWf = true ∧ r.base % 128 = 0 ∧ g.stripes.getD (placeData (next * pageBytes)).1 0 = 64 ∧
        (tget s.store.reads (blockNo 0 0 64) + BitVec.ofNat 32 9).toNat < 10000 * max 1 (s.regF 0 Reg.gnCfg 15 8) ∧
        (g.page next []).length = (if next < 5 then 768 else if next = 5 then 256 else 0)) := by decide +kernel

theorem test_store : ((after (.pageProgramDone 1 true) (stored (generation 0))).store.gens.map (·.pages)) = [1] ∧
    (after (.blockEraseDone 63 3 4095 true) (stored (generation 0))).store.erases = [(blockNo 63 3 4095, 1)] ∧
    (after (.gnRestore 1) ((stored (generation 6 true)).setReg 0 Reg.gnGenSel 0x100)).store.restore = some { gen := 1, fn := 1, base := 0 } := by decide +kernel

/-! Decisions, clocks, power. -/

theorem witness_DecisionsAndLifetime : (∀ fn ∈ [2, 3, 6, 7, 8], ∀ e ∈ [((1000, 1) : Nat × Nat), (1001, 0)],
      let d : Decision := { fn := fn, subject := 0, due := e.1, data := 0 }
      let s := { running with decisions := [d], now := 1000 }
      s.decisions = [d] ∧ (decide (d.due ≤ s.now) = (e.2 == 1)) ∧ s.boot.mpUp = true ∧ s.boot.ppUp = true ∧ s.boot.spUp = true ∧ (running false).boot.mpUp = false ∧
        s.side.cxlUp = true ∧ s.serves 0 = true ∧
        (∀ code ∈ [1, 2, 3], let v : Word := BitVec.ofNat 32 (fn <<< 28 ||| code <<< 24)
          fn = field v 31 28 ∧ 0 = field v 23 0 ∧ code = field v 27 24)) ∧
    (let v : Word := BitVec.ofNat 32 (2 <<< 25 ||| 7)
     let s := running
     field v 29 25 = 2 ∧ field v 19 0 = 7 ∧ s.enabled 2 = false ∧ (∀ k ≤ 16, s.posOf k ≠ some 7) ∧ (s.reg 0 Reg.escStatus).getLsbD 31 = false ∧
       s.boot.faultDue = false ∧ (s.reg 0 Reg.modes).getLsbD 3 = false ∧ ((s.setReg 0 Reg.modes 0x28).reg 0 Reg.modes).getLsbD 3 = true ∧
       ((s.setReg 0 Reg.modes 0x28).reg 0 Reg.modes).getLsbD 5 = true ∧ s.decisions = [] ∧ s.boot.phase = .running ∧ State.reset.boot.phase ≠ .running) ∧
    (let s := running
     let t := { s with boot := { s.boot with faultDue := true, moduleFaults := 1 } }
     t.boot.faultDue = true ∧ t.boot.moduleFaults ≠ 0 ∧ s.boot.moduleFaults = 0 ∧ 3 ∉ t.power.holds ∧ tableWf 64 s.life.live = true ∧
       ¬ (0x200 ≤ field (0x1FF : Word) 9 0 ∧ field (0x1FF : Word) 9 0 ≤ 0x20F)) := by decide +kernel

/-- Function 6 takes the row whose step it was asked about: row 1, 2,820 W. -/
theorem test_decision : let d : Decision := { fn := 6, subject := 0, due := 1000, data := 1 }
    let t := after (.decisionWaitExpire 6 0) { running with decisions := [d], now := 1000 }
    (t.power.row, t.power.cap, t.decisions) = (1, 2820, []) := by decide +kernel

theorem witness_ClocksAndHeat : (let s := State.reset
     s.power.xtalOk = false ∧ s.boot.xtalFailed = false ∧ 4 ∉ s.power.holds ∧ s.boot.phase = .coldHeld) ∧
    (let s := running
     s.power.xtalOk = true ∧ 4 ∉ s.power.holds ∧ (s.port 0).isUp = true ∧ s.hasPll 5 = true ∧ s.hasPll 6 = false ∧ s.power.lock 5 = true ∧
       s.boot.phase = .running ∧ ({ s with power := { s.power with originLock := 0x1F } } : State).power.lock 5 = false) ∧
    (let s := { (running).setReg 0 Reg.clkStatus 0x80000000 with power := { (running).power with islandLock := 0x3F } }
     s.pairedMode = true ∧ s.hasPll 11 = true ∧ s.power.lock 6 = true ∧ s.power.lock 11 = true) ∧
    (running).power.throttle = false ∧ 5 ∉ (running).power.holds ∧ 2 ∉ (running).power.holds := by decide +kernel

/-- 100 and 95 °C; 110 °C; 62 °C. -/
theorem test_heat : let t := after (.junctionThrottle 400 0) running
    (t.power.throttle, decide (t.power.n ≤ 32)) = (true, true) ∧ (after (.junctionThrottle 399 0) running).power.throttle = false ∧
    (after (.throttleRelease 380 0) t).power.throttle = false ∧ (after (.throttleRelease 381 0) t).power.throttle = true ∧
    (after (.junctionTrip 440 0) running).power.holds = [2] ∧ (after (.inletLimit 248) running).power.holds = [5] ∧ (after (.inletLimit 247) running).power.holds = [] := by
  decide +kernel

theorem test_clocks : (after .xtalStable State.reset).power.xtalOk = true ∧ (after (.pllLock 5) { running with power := { (running).power with originLock := 0x1F } }).power.originLock = 0x3F ∧
    (after (.pllUnlock 5) running).power.originLock = 0x1F := by decide +kernel

theorem witness_PowerLimits : (let s := running
     s.boot.ppUp = true ∧ s.power.warnAt = none ∧ s.boot.phase ≠ .coldHeld ∧ s.power.holds = [] ∧ s.power.ramping = false ∧ s.levelOn = false ∧
       s.decisions = [] ∧ s.power.rowHeld = none ∧ s.side.cxlUp = true ∧ s.serves 0 = true) ∧
    (let s := { running with power := { (running).power with warnAt := some 1, ramping := true, n := 16, clamp := true, limPeriods := 9 }, now := 125001 }
     s.power.warnAt = some 1 ∧ 1 ∉ s.power.holds ∧ 1 + 125000 ≤ s.now ∧ s.power.ramping = true ∧ s.levelOn = false ∧ s.power.clamp = true ∧
       s.power.limPeriods = 9 ∧ s.power.limBad = false) ∧
    ((running).setReg 0 Reg.levelCfg 0x800A0BB8).levelOn = true ∧
    (gateKnown 0x1CF = true ∧ gateKnown 0x1D0 = false ∧ (running).treeRefuses 0x1CF 0 = false ∧ (running).treeRefuses 0x1CF 7 = true ∧
      (running).gateInUse 0x1CF = false ∧ (running).gateInUse 0x100 = true ∧ ((running).gate 0x100).getLsbD 0 = true ∧ (running).power.state ≠ 4) ∧
    (∀ e ∈ [((5, true) : Nat × Bool), (6, false), (40, false), (41, true)], let v : Word := BitVec.ofNat 32 (e.1 <<< 16 ||| 3000)
      decide (field v 21 16 < 6 ∨ 40 < field v 21 16 ∨ 3000 < field v 11 0) = e.2) := by decide +kernel

/-- 67.001 A; the heartbeat due after 250,000 cycles; a supply of 44.999 V; the rows of R469 at 55, 55.25 and 59.25 °C. -/
theorem test_limits : (after (.fastCurrentClamp 67001) running).power.clamp = true ∧ (after (.fastCurrentClamp 67000) running).power.clamp = false ∧
    (after .ppHeartbeatTimeout { running with now := 250000 }).power.ppFloor = true ∧ (after .ppHeartbeatTimeout { running with now := 249999 }).power.ppFloor = false ∧
    (after (.supplyWarning 44999) running).power.warnAt = some 1000 ∧ (after (.supplyWarning 45000) running).power.warnAt = none ∧
    (after (.deratingStep 220) running).power.row = 0 ∧ (after (.deratingStep 221) running).power.row = 1 ∧ (after (.deratingStep 237) running).power.row = 5 := by decide +kernel

theorem test_levelAndGates : (after (.levelCfgWrite 0x00050BB8) running).regF 0 Reg.levelStatus 30 30 = 1 ∧
    (after (.levelCfgWrite 0x00060BB8) running).regF 0 Reg.levelCfg 11 0 = 3000 ∧
    (after (.gateCmdWrite 0x000001D0) running).regF 0 Reg.gateStatus 25 24 = 3 := by decide +kernel

theorem witness_PowerStates : (let s := running
     s.side.cxlUp = true ∧ s.serves 0 = true ∧ s.entries = [] ∧ s.drains = [] ∧ s.store.restore = none ∧ s.power.emergency = false ∧ s.power.state = 0 ∧
       ({ s with entries := [entry0 1] } : State).enabled 1 = true) ∧
    (let s := { running with power := { (running).power with state := 1 } }
     s.power.state = 1 ∧ s.side.cxlUp = true ∧ s.serves 0 = true ∧ ((s.setReg 0 Reg.wakeCfg 0xC0C00000).reg 0 Reg.wakeCfg).getLsbD 31 = true ∧
       ((s.setReg 0 Reg.wakeCfg 0xC0C00000).reg 0 Reg.wakeCfg).getLsbD 30 = true ∧ (s.setReg 0 Reg.wakeCfg 0xC0C00000).regF 0 Reg.wakeCfg 25 16 = 192) ∧
    (let s := { running with power := { (running).power with state := 5, leaving := 2, originLock := 0x1F } }
     s.power.state = 5 ∧ s.power.leaving = 2 ∧ s.locked = false ∧ ({ s with power := { s.power with originLock := 0x3F } } : State).locked = true ∧ s.held = [] ∧
       s.boot.crashAt = []) := by decide +kernel

theorem test_powerStates : let t := after .pwrCmdS2 running
    (t.power.state, t.power.entering) = (4, 2) ∧ (after .powerEntryComplete t).power.state = 2 ∧ (after .powerEntryComplete t).side.cxlL2 = true ∧
    (after .wakeComplete { running with power := { (running).power with state := 5, leaving := 1 } }).power.state = 0 := by decide +kernel

/-! Start, resets and firmware. -/

theorem witness_StartAndResets : (let s := State.reset
     s.boot.phase = .coldHeld ∧ s.boot.pinReset = false ∧ s.boot.seen47 = false ∧ s.boot.warm = false ∧ s.boot.pinPerst = false ∧ s.held = []) ∧
    (let s := { State.reset with boot := { State.reset.boot with seen47 := true, pinReset := true, pinPerst := true } }
     s.boot.phase = .coldHeld ∧ s.boot.seen47 = true ∧ s.boot.pinReset = true ∧ s.boot.pinPerst = true) ∧
    (let s := running
     s.boot.pinPerst = false ∧ s.boot.phase = .running ∧ s.side.cxlL2 = false ∧ s.side.awaitCxl = false ∧ s.side.cxlUp = true ∧ s.serves 0 = true ∧
       s.boot.up 0 = true ∧ s.boot.up 1 = true ∧ s.boot.up 2 = true ∧ s.boot.crashAt = [] ∧ (running false).boot.up 0 = false ∧ (s.ownerOf 1).isSome = true ∧
       s.boot.opened = false ∧ ({ s with boot := { s.boot with opened := true } } : State).boot.opened = true ∧ 3 ∉ s.power.holds ∧ 4 ∉ s.power.holds ∧
       3 ∈ ({ s with power := { s.power with holds := [3] } } : State).power.holds) ∧
    (∀ proc ∈ [0, 1, 2], let s := { running with boot := { (running).boot with crashAt := [(proc, 1000)] }, now := 12501000 }
      (proc, 1000) ∈ s.boot.crashAt ∧ s.power.state ≠ 2 ∧ s.imageIntact proc = false ∧ s.held = [] ∧ proc ∉ s.boot.tardy ∧
        1000 + [7500000, 1250000, 12500000].getD proc 0 ≤ s.now ∧ ({ s with power := { s.power with state := 2 } } : State).power.state = 2) := by decide +kernel

/-- A start in progress, the boot cache filled at a cold start. -/
def starting (warm : Bool) : State := let s := running
  { s with boot := { s.boot.fillCache with phase := .starting, warm := warm } }

theorem witness_StartAndResets_starts : (∀ warm : Bool, let s := starting warm
      s.boot.phase = .starting ∧ s.power.xtalOk = true ∧ s.power.originLock = 0x3F ∧ s.boot.warm = warm ∧ s.held = [] ∧ s.pairedMode = false ∧
        s.boot.flash.preferred = 0 ∧ s.boot.active = 0 ∧ s.positions ≠ []) ∧
    (let x : Flash := { slots := [(0, []), (1, [])] }
     (running).boot.checkSlot x 0 ≠ 0 ∧ (running).boot.checkSlot x 1 ≠ 0) ∧
    ({ running with boot := { (running).boot with cache := none } } : State).cacheMatches = false ∧
    cleanStart.badStacks = [] ∧ cleanStart.badDies = [] ∧ ({ cleanStart with badStacks := [11] } : StartReport).badStacks ≠ [] := by
  decide +kernel

/-- The factory's slots and record, as validly signed (log entry 4), pass at counters of 0, and the boot cache matches its measurements. -/
theorem witness_StartAndResets_factory (warm : Bool) : let s := starting warm
    s.boot.checkSlot s.boot.flash 0 = 0 ∧ s.boot.checkSlot s.boot.images 0 = 0 ∧ s.boot.checkRecord = 0 ∧ s.boot.fillCache.checkRecord = 0 ∧
      s.cacheMatches = true ∧ ∀ proc ∈ [0, 1, 2], s.imageIntact proc = true := by
  refine ⟨?_, ?_, ?_, ?_, ?_, ?_⟩
  · simp [Boot.checkSlot, Boot.rollsBack, Boot.counter, Boot.fillCache, starting, running, chord, line1, at', State.reset, aget?, agetD, State.setReg, State.updFn]
  · simp [Boot.checkSlot, Boot.rollsBack, Boot.counter, Boot.fillCache, Boot.images, starting, running, chord, line1, at', State.reset, aget?, agetD, State.setReg, State.updFn]
  · simp [Boot.checkRecord, Boot.counter, Boot.fillCache, Boot.images, starting, running, chord, line1, at', State.reset, aget?, agetD, State.setReg, State.updFn]
  · simp [Boot.checkRecord, Boot.counter, Boot.fillCache, Boot.images, starting, running, chord, line1, at', State.reset, aget?, agetD, State.setReg, State.updFn]
  · simp [State.cacheMatches, State.cacheSpoilt, Boot.fillCache, starting, running, chord, line1, at', State.reset, State.setReg, State.updFn]
  · intro proc h
    have h : proc = 0 ∨ proc = 1 ∨ proc = 2 := by simpa using h
    rcases h with rfl | rfl | rfl <;>
    simp [State.imageIntact, State.cacheSpoilt, Boot.fillCache, Boot.images, Flash.measure, List.range_succ, starting, running, chord, line1, at', State.reset, State.setReg, State.updFn]

theorem test_reset : (after .supplyFirst47v State.reset).boot.phase = .starting ∧ (after .supplyFirst47v State.reset).reg 0 Reg.resetCause = 0x102 ∧
    (after .resetCtrlWarm running).reg 0 Reg.winStatus = 0 ∧ (after .resetCtrlWarm running).boot.phase = .warmEntry ∧
    (after .warmEntryComplete (after .resetCtrlWarm running)).boot.phase = .starting ∧ ((after (.resetCtrlFacet 0 0) running).facet 0).groups = [] := by decide +kernel

/-- A processor whose image matches no measurement stays absent, with CACHE_BAD. -/
theorem test_processors : let t := after (.procCrash 2 0) running
    t.boot.spUp = false ∧ ((after (.procRestart 2) t).boot.spUp, (after (.procRestart 2) t).regF 0 Reg.fwStatus 21 21) = (false, 1) := by decide +kernel

theorem witness_FirmwareCommands : (let s := running
     s.side.cxlUp = true ∧ s.serves 0 = true ∧ s.boot.phase = .running ∧ s.boot.staging = none ∧ s.boot.phaseNo = 0 ∧ s.boot.active = 0 ∧ s.boot.staged = none ∧
       s.power.emergency = false ∧ s.boot.ppUp = true ∧ s.boot.spUp = true ∧ s.boot.svnWanted = [] ∧ s.boot.mpUp = true ∧
       (s.reg 0 Reg.fwStageLen).toNat ≤ 62914560 ∧ 62914561 > 62914560) ∧
    (∀ n ∈ [1, 2, 3, 4, 5], let s := { running with boot := { (running).boot with phaseNo := n, staged := some 1 } }
      s.boot.phaseNo = n ∧ s.boot.staged = some 1 ∧ s.boot.flash.headers = [Header.make 1 0, Header.make 0 0] ∧ (Header.make 1 0).rank = 2 ∧
        (Header.make 0 0).rank = 1 ∧ s.ioClocked 0 = true ∧ s.ioClocked 1 = true ∧ s.boot.busy = true ∧ s.boot.mpUp = true ∧ s.boot.ppUp = true ∧ s.boot.spUp = true) ∧
    (let s := { running with boot := { (running).boot with staging := some (1, 0, 0) } }
     s.boot.staging = some (1, 0, 0) ∧ s.mpRuns = true ∧ s.boot.phaseNo = 0 ∧ s.boot.active = 0 ∧ s.boot.checkImage [] ≠ 0 ∧
       ({ s with boot := { s.boot with active := 1 } } : State).boot.active = 1) ∧
    (∀ e ∈ [0, 1], let s := (running).setReg 0 Reg.fwStageAddr (BitVec.ofNat 32 (e * 1024))
      let base := (s.reg 0 Reg.fwStageAddr).toNat * 65536
      base + 1 ≤ reservedBase ∧ s.tenants.all (fun j => (s.regions j).all (fun r => decide (base + 1 ≤ r.dbase ∨ r.dbase + r.len ≤ base))) = (e == 1)) ∧
    (∀ k ≤ 1, (running).boot.staged ≠ some k ∧ (running).boot.svnWanted = [] ∧ (running).boot.busy = false ∧ (running).spRuns = true) ∧
    ({ running with boot := { (running).boot with spUp := false } } : State).spRuns = false ∧
    (let s := { running with boot := { (running).boot with phase := .recovery, recoverySlot := some 1 } }
     s.side.cxlUp = true ∧ s.serves 0 = true ∧ s.boot.phase = .recovery ∧ s.boot.recoverySlot = some 1 ∧ s.boot.recoveryData.length < 62914560) := by decide +kernel

theorem test_firmware : (after (.fwStage 0) running).regF 0 Reg.fwResult 7 0 = 0x13 ∧ (after .fwActivate running).regF 0 Reg.fwResult 7 0 = 0x15 ∧
    (after .handoverPhaseDone { running with boot := { (running).boot with phaseNo := 3, staged := some 1 } }).boot.active = 1 ∧
    (after .fwStageComplete { running with boot := { (running).boot with staging := some (1, 0, 0) } }).regF 0 Reg.fwResult 7 0 = 0x10 := by decide +kernel

theorem witness_IdleStepIsOneCycle : (running).pending = [] ∧ tableWf 64 (running).life.live = true ∧ (tget (running).life.live 0x110).toNat < 2 ^ 64 - 1 := by
  decide +kernel

/-- A running group's Facet advances 5 half cycles at ratio 1 (R463); time by one. -/
theorem test_idle : (match step running with | .next t => t.now | _ => 0) = 1001 := by decide +kernel

theorem witness_MemoryInvariant : (running).memoryWf = true ∧ step running = .next (match step running with | .next t => t | _ => running) := by
  refine ⟨by decide +kernel, ?_⟩
  rfl

theorem witness_StepRunsFrontCommand : step { running with pending := [.nop 0 0] } = exec (.nop 0 0) running := rfl

/-! The remaining conditions of the other statements. -/

def servingAt (k : Nat) (s : State) : State := { s with hbm := { s.hbm with pcs := [(k, { service := true })] } }

theorem witness_EntriesAccepted_buddy : let s := (ringed 3 2).setReg 0 (Reg.buddyCfg 1) 0x80000000
    headReady (ringed 3 2) 3 = true ∧ (ringed 3 2).drainCheck 1 1 = some 12 ∧ headReady s 3 = true ∧ entryBits (headOf s) 16 2 1 = 1 ∧
      s.drainCheck 1 1 = none ∧ s.regF 0 (Reg.buddyCfg 1) 30 20 = 0 := by decide +kernel

theorem witness_EntriesAccepted_lowerGate : let s := servingAt 8 (ringed 8 0x30000)
    headReady s 8 = true ∧ s.agentGate 0x30000 64 false = none ∧
      (s.agentRead 0x30000 64).1.agentGate 0x30000 (moduleLength (s.agentRead 0x30000 64).2.1) false = none := by decide +kernel

theorem witness_EntriesComplete_gates : (ringed 7 0).agentGate 0x10000 8 false = none ∧ (load false).len = 8 := by decide +kernel

theorem witness_HostInterfaces_turns : (let s := servingAt 0 running
     s.agentTurn 0 64 false = none ∧ s.agentTurn 0 64 true = none ∧ (s.pc (engineOf 0)).failedPins = [] ∧ s.lineWay 0 = none ∧ s.hull.held.length < 524288) ∧
    (let s := { running with reqs := [request .store 0 .accepted] }
     (s.agentTurn 0 64 true).isSome = true) := by decide +kernel

theorem witness_DebugCommands_barrier : ∀ h ∈ [Halt.halted, .stepped], let g := { grp with wait := .barrier 3, halt := h }
    (debugging g).dbgGroup = some (0, 0, g) ∧ g.atBarrier = true ∧ ({ grp with halt := h } : Machine.Group).atBarrier = false ∧ (debugging g).debugOn (debugging g).dbgVf = true := by decide +kernel

theorem witness_TenantCommands_ends : (let s := (running).updFn 1 (fun f => { f with resetting := true })
     s.nmaQueued 1 = false ∧ ({ s with hbm := { s.hbm with pcs := [(0, { nma := [add5] })] } } : State).nmaQueued 1 = true) ∧
    (let d := { drain0 0 false with gen := 1 }
     let s := { stored (generation 6 true) with drains := [d] }
     s.drainOf 1 = some d ∧ s.side.cxlUp = true ∧ s.serves 1 = true ∧ s.store.gens.any (fun g => g.gen == d.gen && g.committed) = true) := by decide +kernel

/-- A drain without a store leg; records of function 1 in copy A and in copy B: OPEN and COMMIT. -/
theorem witness_GnomonStore_commits : (stored (generation 5)).legOpen (generation 5) = false ∧
    (∀ type ∈ [1, 3], ∀ inB : Bool, let g := generation 6 inB
     let r : JournalRec := { seq := 1, type := type, fn := 1, gen := 1, body := journalBody [] }
     let s := { stored g with store := { (stored g).store with queue := [r], inB := inB } }
     s.store.queue = [r] ∧ r.fn = 1 ∧ s.spRuns = true ∧ s.store.paused = false ∧ s.store.inB = inB ∧ r.type = type ∧
       (s.store.committed 1).length ≤ s.keep) ∧
    ((stored (generation 0)).store.holds 0 0 64 = true ∧ (stored (generation 0)).store.holds 0 0 65 = false) ∧
    (((stored (generation 0)).reg 0 Reg.modes).getLsbD 6 = false ∧ (((stored (generation 0)).setReg 0 Reg.modes 0x40).reg 0 Reg.modes).getLsbD 6 = true) := by decide +kernel

/-- COMMIT in copy A commits the generation, and in copy B ends the leg. -/
theorem test_commit : let g := generation 6
    let a := { stored g with drains := [{ drain0 0 true with gen := 1 }], store := { (stored g).store with
      queue := [{ seq := 1, type := 3, fn := 1, gen := 1, body := journalBody [] }] } }
    let b := after (.pageProgramDone 1 true) a
    let c := after (.pageProgramDone 1 true) b
    ([a, b, c].map (fun t => (t.store.queue.map (·.type), t.store.gens.map (·.committed), t.drains.map (·.storeEnd)))) =
      [([3], [false], [0]), ([3], [true], [0]), ([], [true], [1])] := by decide +kernel

/-- The lines of a page unit take an agent's write. -/
theorem witness_GnomonStore_pages : let g := generation 6 true
    let s := { stored g with store := { (stored g).store with restore := some { gen := 1, fn := 1, base := 0 } } }
    (g.page 0 []).length / 128 = 6 ∧ (List.range 6).all (fun i => s.translate 1 (2048 * i) == some (2048 * i) && s.agentGate (2048 * i) 2048 true == none) = true ∧
      s.store.live (blockNo 0 0 64) = blockNo 0 0 64 ∧ placeData 0 = (0, 0, 0, 0) ∧ s.rangeMapped 1 0 65536 = true := by decide +kernel

theorem witness_ClocksAndHeat_islands : let s := { (running).setReg 0 Reg.clkStatus 0x80000000 with power := { (running).power with islandLock := 0x3FF } }
    s.pairedMode = true ∧ s.hasPll 15 = true ∧ s.hasPll 16 = false ∧ s.power.lock 15 = true ∧ s.power.lock 6 = true := by decide +kernel

theorem witness_StartAndResets_faults : ((starting true).reg 0 Reg.modes).getLsbD 5 = false ∧
    ({ cleanStart with badDies := [5] } : StartReport).badDies ≠ [] ∧
    (let s := { (starting true).setReg 0 Reg.clkStatus 0x80000000 with power := { (running).power with islandLock := 0x3FE } }
     s.pairedMode = true ∧ s.power.islandLock ≠ 0x3FF) ∧
    (let s := after .resetCtrlWarm running
     s.boot.phase = .warmEntry ∧ (s.hull.sets.map (·.1)).Nodup ∧ s.boot.pinPerst = false) := by decide +kernel

theorem witness_FirmwareCommands_gate : ({ running with boot := { (running).boot with staging := some (1, 0, 4) } } : State).agentGate 0 4 false = none := by decide +kernel

theorem test_wf_refuses_training : Instr.wf (.startComplete { cleanStart with badPins := [(767, 36)] }) = false ∧
    Instr.wf (.startComplete { cleanStart with badDies := [6] }) = false ∧
    Instr.wf (.startComplete { cleanStart with badPins := [(767, 35)], badDies := [5] }) = true := by decide +kernel

/-- The parity of a message of one symbol 1 is the generator's own remainder: its coefficients below the leading one. -/
theorem test_fec : fecParity [1] = fecGenerator := by decide +kernel

/-! The remaining clauses of the statements on the module. -/

/-- Line 1 of memory in the pin loop of a command: not resident, its set as given. -/
def pinLoop (ways : List Way) : State := let s := line1 .load .served
  { s with reqs := [], hull := { s.hull with sets := [(setOf 1, ways)], pins := [{ vf := 1, pin := true, addr := 2048, lines := 1, running := true, left := 1 }] } }

/-- No victim; a victim with dirty sectors and a full sink, or a line that a request waits for; a free way. -/
theorem witness_PinsQuotaAndThrashGuard_loop : let dirty : Way := { valid := 0xFFFF, tag := 7, tenant := 2, dirty := 1 }
    let off : List Way := List.replicate 15 { valid := 1, tag := 8, off := true }
    let inLoop (s : State) : Bool := s.hull.pins == [{ vf := 1, pin := true, addr := 2048, lines := 1, running := true, left := 1 }] &&
      s.translate 1 2048 == some 2048 && (s.lineWay 1).isNone
    let chosen (s : State) : Option Nat := victim (s.set (setOf 1)) 1 (s.quota 1) true
    let waiting : State := { pinLoop (dirty :: off) with reqs := [{ request .load (lineOf (setOf 1) 7) .accepted with id := 8 }] }
    let fullSink : State := let s := pinLoop (dirty :: off)
      { s with hbm := { s.hbm with pcs := [(engineOf (16 * lineOf (setOf 1) 7), { sink := (List.range 256).map (fun i => { sector := i, mask := 1, data := {} }) })] } }
    (inLoop (pinLoop off) && (chosen (pinLoop off)).isNone) = true ∧
      (inLoop waiting && chosen waiting == some 0 && waiting.victimWaits (setOf 1) 0) = true ∧
      (inLoop fullSink && chosen fullSink == some 0 && !fullSink.victimRoom (setOf 1) 0) = true ∧
      (let s := pinLoop (dirty :: off)
       inLoop s && chosen s == some 0 && s.victimRoom (setOf 1) 0 && !s.victimWaits (setOf 1) 0 && s.hullClocked 1 && s.pinTracker 1) = true := by
  decide +kernel

/-- FP32: a NaN sent, a NaN in place, neither; BF16; a poisoned word beside sound ones. -/
theorem witness_AccumulateApplies_types : f32.decode 0x7FC00000 = .nan ∧ f32.decode 0x3F800000 ≠ .nan ∧
    (∀ op ∈ [0, 1, 2], ∀ type ∈ [1, 2, 5], let n : Nma := { add5 with op := op, type := type, mask := 0xFFFFFFFFFFFFFFFE, data := { data := 5, pois := 2 } }
      n.op ≤ 2 ∧ n.mask.getLsbD 0 = false ∧ n.mask.getLsbD 1 = true ∧ n.mask.getLsbD 63 = true ∧
        (n.data.pois ||| ({} : Sector).pois).getLsbD 0 = false ∧ (n.data.pois ||| ({} : Sector).pois).getLsbD 1 = true ∧ (n.type = 5 ∨ n.type ≠ 5)) := by
  decide +kernel

/-- 1.0 and -2.0: the larger, the smaller; the larger of a number and a NaN is the number. -/
theorem test_accumulate_extremes : let apply (op : Nat) (new old : Nat) : Nat :=
      let s := engine { nma := [{ add5 with op := op, type := 2, data := { data := BitVec.ofNat 1024 new } }] }
      (after (.nmaApply 0 0) { s with hbm := { s.hbm with cells := s.hbm.cells.poke 0 (leBytes 4 old) } }).hbm.cells.nat 0 4
    apply 1 0x3F800000 0xC0000000 = 0x3F800000 ∧ apply 2 0x3F800000 0xC0000000 = 0xC0000000 ∧ apply 1 0x7FC00000 0xC0000000 = 0xC0000000 := by decide +kernel

theorem witness_PortStates_failover : (chord upPort).portClocked 35 = true ∧
    (let s := chord { trainDue := true }
     let s := { s with boot := { s.boot with phase := .starting } }
     s.boot.phase = .starting ∧ s.portClocked 0 = true) ∧
    (let s := (chord { state := .failed, deciding := true }).setReg 0 Reg.modeFailover 1
     let s := { s with decisions := [{ fn := 1, subject := 0, due := 5, data := 0 }] }
     (s.port 0).state = .failed ∧ (s.port 0).deciding = true ∧ s.failingOver = false ∧ s.hostAssisted 1 0 = true ∧
       (s.decisions.filter (fun d => !samePort d 1 0)).length < 16) ∧
    (let s := (chord { state := .training, retrain := true, attempts := 3 }).setReg 0 Reg.modes 1
     s.hostAssisted 2 0 = true ∧ 3 ≤ (s.port 0).attempts) := by decide +kernel

/-- The collective engine of group 1 with its gate closed. -/
def unclocked (s : State) : State := s.setGate 0x241 0

theorem witness_ChordArrivals_unclocked : (unclocked (chord upPort)).ceClocked 1 = false ∧ (chord upPort).ceClocked 1 = true ∧
    (let s := unclocked { chord { upPort with rx := [received (message 4 2 0 8)] } with remotes := [remote 1] }
     s.headRx 0 2 = some (received (message 4 2 0 8)) ∧ s.fnOfPos 5 = some 1 ∧ s.remote? 1 0 = some (remote 1) ∧ s.translate 1 0 = some 0) := by decide +kernel

/-- A launch no Facet has room for, and one of a tenant without a Facet in service. -/
theorem witness_EntriesAccepted_room : (let s := ringed 1 (1 <<< 32)
     let s := s.updFacet 0 (fun x => { x with groups := (List.range 64).map (fun k => (k, grp)) })
     let s := s.updFacet 1 (fun x => { x with code := (s.facet 0).code, groups := (List.range 64).map (fun k => (k, grp)) })
     let b := headOf s
     let k := kernelHeader ((s.facet 0).code.fetch 0 32)
     let l : Launch := { id := s.nextId, fn := 1, ring := 0, seq := 0, codeBase := byteField b 16 4, codeLen := k.codeLen, h := k.h, g := k.g, o := k.o
                         ralelle := k.ralelle, nblocks := byteField b 20 4, param := byteField b 24 8, seedLo := 0, seedHi := 0, seeded := false }
     headReady s 1 = true ∧ k.check 0 = none ∧ (s.withReserved l).placeFor l = none) ∧
    (let s := { ringed 1 (1 <<< 32) with positions := [] }
     headReady s 1 = true ∧ s.logical 1 = [] ∧ s.loading 1 0 32 = false) := by decide +kernel

/-- A DRAIN of both legs; one whose delta map a request keeps from being read. -/
theorem witness_EntriesAccepted_drainLegs : (let s := (ringed 3 6).setReg 0 (Reg.buddyCfg 1) 0x80000000
     headReady s 3 = true ∧ entryBits (headOf s) 16 2 1 = 3 ∧ s.drainCheck 1 3 = none ∧ s.mapGate 1 = none) ∧
    (let s := ((ringed 3 6).setReg 0 (Reg.buddyCfg 1) 0x80000000).setReg 1 Reg.deltaCtrl 0x80000001
     let s := { s with reqs := [request .store 0 .accepted] }
     headReady s 3 = true ∧ s.drainCheck 1 3 = none ∧ (s.mapGate 1).isSome = true) := by decide +kernel

/-- A REMOTE of a function whose collective engine has no clock; a header or a group table that cannot be read now. -/
theorem witness_EntriesAccepted_held : (let s := unclocked (ringed 6 0x101)
     headReady s 6 = true ∧ s.ceClocked 1 = false ∧ (s.posOf 1).isSome = true ∧ s.weight 1 1 ≠ 0) ∧
    (let s := ringed 4 (1 <<< 32 + 1 <<< 192)
     let s := { s with reqs := [request .store (0x20000 / 2048) .accepted] }
     headReady s 4 = true ∧ (s.tableGate 1 0).isSome = true) := by decide +kernel

theorem witness_HostInterfaces_link : ∀ phase ∈ [BootPhase.running, .recovery, .starting], let s := { running with boot := { (running).boot with phase := phase } }
    s.boot.phase = phase ∧ s.power.originLock = 0x3F ∧ s.boot.pinPerst = false := by decide +kernel

/-- A halted group, and one halted at a fault. -/
theorem witness_ClearingDebugResumes : ∀ g ∈ [{ grp with halt := .halted },
      { grp with halt := .halted, faulted := some { code := 15, pc := 32, mask := 1, lanes := 1, addr := 0, info := 0, depth := 0 } }],
    let s := debugging g
    (s.reg 0 Reg.dbgEnable).getLsbD 1 = true ∧ (0 : Word).getLsbD 1 = false ∧ s.side.cxlUp = true ∧ s.serves 0 = true ∧ s.group? 0 0 = some g ∧
      (∀ h, (after (.dbgEnableWrite 0) s).group? 0 0 = some h → h.halt = .running) := by decide +kernel

/-- Digest entries that a tenant reset still owes, with and without a free line of the ring. -/
theorem witness_TenantCommands_digests : let s := (running).updFn 1 (fun f => { f with resetting := true, owedDigests := [List.replicate 64 0] })
    (s.fn 1).owedDigests ≠ [] ∧ s.ringGate 1 = none ∧ (s.setReg 0 Reg.digestSize 1 |>.ringGate 1) = none ∧
      ({ s.setReg 0 Reg.digestSize 1 with reqs := [request .store 0 .accepted] } : State).ringGate 1 ≠ none ∧ s.nmaQueued 1 = false := by decide +kernel

theorem witness_DecisionsAndLifetime_absent : (let s := { running with boot := { (running).boot with ppUp := false } }
     s.boot.ppUp = false ∧ s.side.cxlUp = true ∧ s.serves 0 = true) ∧
    (running false).mpRuns = false ∧ (running).mpRuns = true ∧
    (∀ hosted : Bool, let s := if hosted then (running).setReg 0 Reg.modes 0x20 else running
      s.boot.faultDue = false ∧ s.boot.phase = .running ∧ (s.reg 0 Reg.modes).getLsbD 5 = hosted ∧ s.decisions = []) := by decide +kernel

/-- With no answer from PP a row in force stays. -/
theorem test_answer_without_pp : let d : Decision := { fn := 6, subject := 0, due := 2000, data := 2 }
    (after (.decAnswerWrite 0x61000000) { running with decisions := [d] }).power.row = 2 ∧
    (after (.decAnswerWrite 0x61000000) { running with decisions := [d], boot := { (running).boot with ppUp := false } }).power.row = 0 := by decide +kernel

/-- An origin PLL that does not lock again; in S2 that has no effect. -/
theorem witness_ClocksAndHeat_relock : let s := { running with power := { (running).power with originLock := 0x1F } }
    s.power.lock 5 = false ∧ s.boot.phase = .running ∧ s.power.state ≠ 2 ∧ 4 ∉ s.power.holds ∧
      ({ s with power := { s.power with state := 2 } } : State).power.state = 2 ∧
      (∀ deep : Bool, let t := { s with power := { s.power with holds := [2], state := if deep then 2 else 3 } }
        t.power.holds = [2] ∧ t.power.deep = deep) := by decide +kernel

/-- Whatever the table says of an island, a move to a ratio at its table voltage is in order where that lies under the ceiling. -/
theorem witness_ClocksAndHeat_moves (n n0 v0 : Nat) (h0 : 0 < n) (h1 : n ≤ 64) :
    let s := { (running).setReg 0 Reg.clkStatus 0x80000000 with power := { (running).power with islandLock := 0x3FF, islands := [(0, n0, v0)] } }
    let mv := Config.tableMv s.boot.tables 0 n
    s.pairedMode = true ∧ s.power.lock 6 = true ∧ s.islandNow 0 = (n0, v0) ∧ s.power.warnAt = none ∧ 0 < n ∧ n ≤ 64 ∧
      Config.tableMv s.boot.tables 0 n ≤ mv :=
  have h : ((running).setReg 0 Reg.clkStatus 0x80000000).pairedMode = true := by decide +kernel
  ⟨h, by simp [Power.lock], rfl, rfl, h0, h1, Nat.le_refl _⟩

theorem witness_PowerStates_sense : let s := { (running).setReg 0 Reg.wakeCfg 0x80000000 with power := { (running).power with state := 2 } }
    s.side.senseArmed = true ∧ (s.reg 0 Reg.wakeCfg).getLsbD 31 = true ∧ s.power.state = 2 ∧ s.boot.crashAt = [] := by decide +kernel

/-- The comparator wakes the module and is then no longer armed. -/
theorem test_wakeSense : let s := { (running).setReg 0 Reg.wakeCfg 0x80000000 with power := { (running).power with state := 1 } }
    (after .wakeSense s).power.state = 5 ∧ (after .wakeSense s).side.senseArmed = false := by decide +kernel

theorem leNat_lt : ∀ l : List Byte, leNat l < 256 ^ l.length
  | [] => by simp [leNat]
  | b :: l => by
    have h := leNat_lt l
    have hb := b.isLt
    simp only [leNat, List.length_cons, Nat.pow_succ]
    omega

/-- The factory's record is rolled back at a counter that no SVN reaches. -/
theorem witness_StartAndResets_badRecord : let s := starting false
    ({ s.boot with rollback := [(4, 2 ^ 32)] } : Boot).checkRecord ≠ 0 := by
  have h : regionSvn Config.factoryRecord < 2 ^ 32 := by
    have h1 := leNat_lt ((Config.factoryRecord.drop 8).take 4)
    have h2 : ((Config.factoryRecord.drop 8).take 4).length ≤ 4 := by simp
    have h3 : 256 ^ ((Config.factoryRecord.drop 8).take 4).length ≤ 256 ^ 4 := Nat.pow_le_pow_right (by decide) h2
    exact Nat.lt_of_lt_of_le h1 h3
  simpa [Boot.checkRecord, Boot.counter, Boot.fillCache, Boot.images, starting, running, chord, line1, at', State.reset, aget?, agetD, State.setReg, State.updFn] using h

end Sys2Proof.Tests
end

section
/-! SUPPORT. The canonical form of the memories and tables as one fact per table, and that each kind of write keeps it. -/

namespace Sys2Proof.Laws

open Sys2Proof Sys2Proof.Machine

/-- The registers of a group and the states of its lanes' random numbers are in canonical form. -/
def groupWf (g : Group) : Bool := tableWf 32 g.v && tableWf 32 g.u && tableWf 32 g.lfsr

/-- So are those of every group of a list of slots. -/
def groupsWf (l : List (Nat × Group)) : Bool := l.all (fun e => groupWf e.2)

/-- The OPC of every block of a list of block slots is in canonical form. -/
def blocksWf (l : List (Nat × Block)) : Bool := l.all (fun e => Memory.wf e.2.opc)

/-- The tables of every Facet of a list are in canonical form. -/
def facetsWf (l : List (Nat × Facet)) : Bool := l.all (fun e => e.2.tablesWf)

theorem groupWf_iff (g : Group) :
    groupWf g = true ↔ tableWf 32 g.v = true ∧ tableWf 32 g.u = true ∧ tableWf 32 g.lfsr = true := by
  simp [groupWf, and_assoc]

@[simp] theorem groupWf_mk (g : Group) (vf launch block gidx pc vbad p stack active exited shift ovf progress events resumed wait
    lock halt faulted handler writes deferred awaiting done) :
    groupWf ⟨vf, launch, block, gidx, pc, g.v, vbad, g.u, p, stack, active, exited, shift, ovf, g.lfsr, progress, events, resumed, wait,
      lock, halt, faulted, handler, writes, deferred, awaiting, done⟩ = groupWf g := (rfl)

@[simp] theorem tablesWf_mk (groups blocks code half parts transfers port rdu redb prisms aged failed cleared) :
    Facet.tablesWf ⟨groups, blocks, code, half, parts, transfers, port, rdu, redb, prisms, aged, failed, cleared⟩ =
      (Memory.wf code && blocksWf blocks && groupsWf groups) := (rfl)

theorem tablesWf_iff (x : Facet) :
    x.tablesWf = true ↔ Memory.wf x.code = true ∧ blocksWf x.blocks = true ∧ groupsWf x.groups = true := by
  obtain ⟨⟩ := x
  simp [and_assoc]

theorem memoryWf_iff (s : State) : s.memoryWf = true ↔
    Memory.wf s.hbm.cells = true ∧ Memory.wf s.hull.data = true ∧ tableWf 64 s.life.live = true ∧
    tableWf 64 s.store.areaA.life = true ∧ tableWf 64 s.store.areaB.life = true ∧ tableWf 16 s.store.erases = true ∧
    tableWf 32 s.store.reads = true ∧ facetsWf s.facets = true := by
  simp only [State.memoryWf, facetsWf, Bool.and_eq_true, and_assoc]

/-! Keyed lists. -/

theorem all_aput (p : α → Bool) (k : Nat) (v : α) (hv : p v = true) (l : List (Nat × α)) (hl : l.all (fun e => p e.2) = true) :
    (aput l k v).all (fun e => p e.2) = true := by
  induction l with
  | nil => simpa [aput] using hv
  | cons e t ih =>
    obtain ⟨he, ht⟩ : p e.2 = true ∧ t.all (fun e => p e.2) = true := by simpa using hl
    unfold aput
    split
    · simp [hv, he, ht]
    · split
      · simp [hv, ht]
      · simp [he, ih ht]

theorem of_aget (p : α → Bool) {k : Nat} {v : α} {l : List (Nat × α)} (hl : l.all (fun e => p e.2) = true)
    (h : aget? l k = some v) : p v = true := by
  induction l with
  | nil => simp [aget?] at h
  | cons e t ih =>
    obtain ⟨he, ht⟩ : p e.2 = true ∧ t.all (fun e => p e.2) = true := by simpa using hl
    unfold aget? at h
    split at h
    · cases h; exact he
    · exact ih ht h

theorem of_agetD (p : α → Bool) (k : Nat) {d : α} {l : List (Nat × α)} (hl : l.all (fun e => p e.2) = true) (hd : p d = true) :
    p (agetD l k d) = true := by
  unfold agetD
  cases h : aget? l k with
  | none => exact hd
  | some v => exact of_aget p hl h

theorem all_filter (p : α → Bool) (q : α → Bool) {l : List α} (hl : l.all p = true) : (l.filter q).all p = true := by
  rw [List.all_eq_true] at hl ⊢
  exact fun x hx => hl x (List.mem_of_mem_filter hx)

@[simp] theorem groupsWf_nil : groupsWf [] = true := (rfl)
@[simp] theorem blocksWf_nil : blocksWf [] = true := (rfl)
@[simp] theorem facetsWf_nil : facetsWf [] = true := (rfl)

@[simp] theorem groupsWf_aput {l : List (Nat × Group)} (k : Nat) {g : Group} (hl : groupsWf l = true) (hg : groupWf g = true) :
    groupsWf (aput l k g) = true := all_aput groupWf k g hg l hl

@[simp] theorem groupsWf_adel {l : List (Nat × Group)} (k : Nat) (hl : groupsWf l = true) : groupsWf (adel l k) = true :=
  all_filter _ _ hl

theorem groupsWf_map {l : List (Nat × Group)} (f : Nat × Group → Nat × Group) (hf : ∀ e, groupWf e.2 = true → groupWf (f e).2 = true)
    (hl : groupsWf l = true) : groupsWf (l.map f) = true := by
  unfold groupsWf at hl ⊢
  rw [List.all_map]
  rw [List.all_eq_true] at hl ⊢
  exact fun e he => hf e (hl e he)

@[simp] theorem blocksWf_aput {l : List (Nat × Block)} (k : Nat) {b : Block} (hl : blocksWf l = true) (hb : Memory.wf b.opc = true) :
    blocksWf (aput l k b) = true := all_aput (fun b : Block => Memory.wf b.opc) k b hb l hl

@[simp] theorem blocksWf_adel {l : List (Nat × Block)} (k : Nat) (hl : blocksWf l = true) : blocksWf (adel l k) = true :=
  all_filter _ _ hl

theorem facetsWf_map {l : List (Nat × Facet)} (f : Nat × Facet → Nat × Facet)
    (hf : ∀ e, e.2.tablesWf = true → (f e).2.tablesWf = true) (hl : facetsWf l = true) : facetsWf (l.map f) = true := by
  unfold facetsWf at hl ⊢
  rw [List.all_map]
  rw [List.all_eq_true] at hl ⊢
  exact fun e he => hf e (hl e he)

/-! What a canonical state holds. -/

section
variable {s : State} (h : s.memoryWf = true)
include h

@[simp] theorem wf_cells : Memory.wf s.hbm.cells = true := ((memoryWf_iff s).1 h).1
@[simp] theorem wf_hullData : Memory.wf s.hull.data = true := ((memoryWf_iff s).1 h).2.1
@[simp] theorem wf_live : tableWf 64 s.life.live = true := ((memoryWf_iff s).1 h).2.2.1
@[simp] theorem wf_areaA : tableWf 64 s.store.areaA.life = true := ((memoryWf_iff s).1 h).2.2.2.1
@[simp] theorem wf_areaB : tableWf 64 s.store.areaB.life = true := ((memoryWf_iff s).1 h).2.2.2.2.1
@[simp] theorem wf_erases : tableWf 16 s.store.erases = true := ((memoryWf_iff s).1 h).2.2.2.2.2.1
@[simp] theorem wf_reads : tableWf 32 s.store.reads = true := ((memoryWf_iff s).1 h).2.2.2.2.2.2.1
@[simp] theorem wf_facets : facetsWf s.facets = true := ((memoryWf_iff s).1 h).2.2.2.2.2.2.2

@[simp] theorem wf_facet (f : Nat) : (s.facet f).tablesWf = true := of_agetD Facet.tablesWf f (wf_facets h) rfl
@[simp] theorem wf_code (f : Nat) : Memory.wf (s.facet f).code = true := ((tablesWf_iff _).1 (wf_facet h f)).1
@[simp] theorem wf_blocks (f : Nat) : blocksWf (s.facet f).blocks = true := ((tablesWf_iff _).1 (wf_facet h f)).2.1
@[simp] theorem wf_groups (f : Nat) : groupsWf (s.facet f).groups = true := ((tablesWf_iff _).1 (wf_facet h f)).2.2

theorem wf_group {f slot : Nat} {g : Group} (hg : s.group? f slot = some g) : groupWf g = true := of_aget groupWf (wf_groups h f) hg

theorem wf_block {f b : Nat} {x : Block} (hx : s.block? f b = some x) : Memory.wf x.opc = true :=
  of_aget (fun x : Block => Memory.wf x.opc) (wf_blocks h f) hx

theorem wf_blockGroups {f b : Nat} {e : Nat × Group} (he : e ∈ s.blockGroups f b) : groupWf e.2 = true :=
  List.all_eq_true.1 (wf_groups h f) e (List.mem_of_mem_filter he)

theorem wf_ofGroups {f : Nat} {e : Nat × Group} (he : e ∈ (s.facet f).groups) : groupWf e.2 = true :=
  List.all_eq_true.1 (wf_groups h f) e he

end

/-! States built field by field. -/

/-- The tables of the store that `State.memoryWf` speaks of. -/
def storeTables (x : Store) : Cells 64 × Cells 64 × Cells 16 × Cells 32 := (x.areaA.life, x.areaB.life, x.erases, x.reads)

@[simp] theorem storeTables_mk (x : Store) (paused finish starting readOnly nextGen nextSeq gens copyA copyB upperA upperB
    queue inB dropped due bad factory erasing writtenBytes ratedExceeded restore scrubbing scrubbed corrected relocate)
    (areaA areaB : SysArea)
    (hA : areaA.life = x.areaA.life) (hB : areaB.life = x.areaB.life) :
    storeTables ⟨paused, finish, starting, readOnly, nextGen, nextSeq, gens, copyA, copyB, upperA, upperB, queue, inB, dropped,
      areaA, areaB, due, x.erases, x.reads, bad, factory, erasing, writtenBytes, ratedExceeded, restore, scrubbing, scrubbed,
      corrected, relocate⟩ = storeTables x := by
  simp only [storeTables, hA, hB]

@[simp] theorem memoryWf_mk (s : State) (pending now freeCtr nextId positions defects retired reqs ports egress remotes colls groupsOf
    fns held entries launches loads drains decisions power boot side log logSeq locusOpen out) (hull : Hull) (hbm : Hbm) (store : Store) (life : Life)
    (hhull : hull.data = s.hull.data) (hhbm : hbm.cells = s.hbm.cells)
    (hs : storeTables store = storeTables s.store) (hl : life.live = s.life.live) :
    State.memoryWf ⟨pending, now, freeCtr, nextId, positions, defects, retired, s.facets, reqs, hull, hbm, ports, egress, remotes, colls,
      groupsOf, fns, held, entries, launches, loads, drains, decisions, store, power, boot, side, life, log, logSeq, locusOpen, out⟩ =
    s.memoryWf := by
  simp only [storeTables, Prod.mk.injEq] at hs
  simp only [State.memoryWf, hhull, hhbm, hs, hl]

theorem keeps_mk (pending now freeCtr nextId positions defects retired reqs ports egress remotes colls groupsOf
    fns held entries launches loads drains decisions power boot side log logSeq locusOpen out) {hull : Hull} {hbm : Hbm} {store : Store} {life : Life}
    {facets : List (Nat × Facet)} (hhbm : Memory.wf hbm.cells = true) (hhull : Memory.wf hull.data = true)
    (hl : tableWf 64 life.live = true) (hA : tableWf 64 store.areaA.life = true) (hB : tableWf 64 store.areaB.life = true)
    (he : tableWf 16 store.erases = true) (hr : tableWf 32 store.reads = true) (hf : facetsWf facets = true) :
    State.memoryWf ⟨pending, now, freeCtr, nextId, positions, defects, retired, facets, reqs, hull, hbm, ports, egress, remotes, colls,
      groupsOf, fns, held, entries, launches, loads, drains, decisions, store, power, boot, side, life, log, logSeq, locusOpen, out⟩ =
    true := (memoryWf_iff _).2 ⟨hhbm, hhull, hl, hA, hB, he, hr, hf⟩

section
variable {s : State} (h : s.memoryWf = true)
include h

theorem keeps_withHbm {hbm : Hbm} (hc : Memory.wf hbm.cells = true) : ({ s with hbm := hbm } : State).memoryWf = true := by
  apply keeps_mk <;> simp [h, hc]

theorem keeps_withHull {hull : Hull} (hd : Memory.wf hull.data = true) : ({ s with hull := hull } : State).memoryWf = true := by
  apply keeps_mk <;> simp [h, hd]

theorem keeps_withFacets {facets : List (Nat × Facet)} (hf : facetsWf facets = true) :
    ({ s with facets := facets } : State).memoryWf = true := by
  apply keeps_mk <;> simp [h, hf]

end

@[simp] theorem memoryWf_ite (c : Prop) [Decidable c] (s t : State) :
    (if c then s else t).memoryWf = if c then s.memoryWf else t.memoryWf := apply_ite _ _ _ _

@[simp] theorem memoryWf_foldl (f : State → α → State) (hf : ∀ s x, (f s x).memoryWf = s.memoryWf) (l : List α) (s : State) :
    (l.foldl f s).memoryWf = s.memoryWf := by
  induction l generalizing s with
  | nil => rfl
  | cons x l ih => rw [List.foldl_cons, ih, hf]

theorem keeps_foldl {f : State → α → State} (l : List α) {s : State} (h : s.memoryWf = true)
    (hf : ∀ s, s.memoryWf = true → ∀ x ∈ l, (f s x).memoryWf = true) : (l.foldl f s).memoryWf = true :=
  List.foldlRecOn l f h hf

@[simp] theorem keeps_updFacet {s : State} {f : Nat} {g : Facet → Facet} (h : s.memoryWf = true) (hg : (g (s.facet f)).tablesWf = true) :
    (s.updFacet f g).memoryWf = true := by
  rw [memoryWf_iff] at h ⊢
  obtain ⟨hc, hd, hl, hA, hB, he, hr, hf⟩ := h
  exact ⟨hc, hd, hl, hA, hB, he, hr, all_aput Facet.tablesWf f _ hg _ hf⟩

@[simp] theorem memoryWf_updFn (s : State) (j : Nat) (f : Fn → Fn) : (s.updFn j f).memoryWf = s.memoryWf := (rfl)
@[simp] theorem memoryWf_setReg (s : State) (j a : Nat) (v : Word) : (s.setReg j a v).memoryWf = s.memoryWf := (rfl)
@[simp] theorem memoryWf_setRegF (s : State) (j a hi lo x : Nat) : (s.setRegF j a hi lo x).memoryWf = s.memoryWf := (rfl)
@[simp] theorem memoryWf_count (s : State) (j a hi lo n : Nat) : (s.count j a hi lo n).memoryWf = s.memoryWf := (rfl)

theorem all_of_aput (p : α → Bool) (k : Nat) {v d : α} (l : List (Nat × α)) (h : (aput l k v).all (fun e => p e.2) = true)
    (hv : p v = true → p (agetD l k d) = true) : l.all (fun e => p e.2) = true := by
  induction l with
  | nil => rfl
  | cons e t ih =>
    unfold aput at h
    unfold agetD aget? at hv
    rw [List.all_cons, Bool.and_eq_true]
    split at h
    · rw [List.all_cons, Bool.and_eq_true, List.all_cons, Bool.and_eq_true] at h
      exact h.2
    · split at h
      · next hk =>
        rw [List.all_cons, Bool.and_eq_true] at h
        rw [if_pos hk] at hv
        exact ⟨hv h.1, h.2⟩
      · next hk =>
        rw [List.all_cons, Bool.and_eq_true] at h
        rw [if_neg hk] at hv
        exact ⟨h.1, ih h.2 hv⟩

theorem all_aput_same (p : α → Bool) (k : Nat) {v d : α} (l : List (Nat × α)) (hd : p d = true) (hv : p v = p (agetD l k d)) :
    (aput l k v).all (fun e => p e.2) = l.all (fun e => p e.2) :=
  Bool.eq_iff_iff.2 ⟨fun h => all_of_aput p k l h (fun x => hv.symm.trans x), fun h => all_aput p k v (hv ▸ of_agetD p k h hd) l h⟩

theorem memoryWf_updFacet_of (s : State) (f : Nat) {g : Facet → Facet} (hg : (g (s.facet f)).tablesWf = (s.facet f).tablesWf) :
    (s.updFacet f g).memoryWf = s.memoryWf := by
  have k := all_aput_same Facet.tablesWf f (d := {}) s.facets rfl hg
  unfold State.memoryWf
  rw [show (s.updFacet f g).facets = aput s.facets f (g (s.facet f)) from rfl, k]
  rfl

@[simp] theorem memoryWf_updFacet (s : State) (f : Nat) (g : Facet → Facet) (hg : ∀ x, (g x).groups = x.groups)
    (hb : ∀ x, (g x).blocks = x.blocks) (hc : ∀ x, (g x).code = x.code) : (s.updFacet f g).memoryWf = s.memoryWf :=
  memoryWf_updFacet_of s f (by rw [Bool.eq_iff_iff, tablesWf_iff, tablesWf_iff, hg, hb, hc])

theorem all_aput_of_aget (p : α → Bool) {k : Nat} {v x : α} {l : List (Nat × α)} (hx : aget? l k = some x) (hv : p v = p x) :
    (aput l k v).all (fun e => p e.2) = l.all (fun e => p e.2) := by
  have e : ∀ d : α, agetD l k d = x := fun d => by simp [agetD, hx]
  exact Bool.eq_iff_iff.2 ⟨fun h => all_of_aput p k (d := x) l h (fun y => (e x).symm ▸ hv.symm.trans y),
    fun h => all_aput p k v (hv.trans (of_aget p h hx)) l h⟩

@[simp] theorem keeps_setGroup {s : State} (f slot : Nat) {g : Group} (h : s.memoryWf = true) (hg : groupWf g = true) :
    (s.setGroup f slot g).memoryWf = true := by
  refine keeps_updFacet h ?_
  simp [h, groupsWf_aput slot (wf_groups h f) hg]

@[simp] theorem memoryWf_updGroup (s : State) (f slot : Nat) (k : Group → Group) (hk : ∀ g, groupWf (k g) = groupWf g) :
    (s.updGroup f slot k).memoryWf = s.memoryWf := by
  unfold State.updGroup
  split
  · next g hg =>
    refine memoryWf_updFacet_of s f ?_
    have e := all_aput_of_aget groupWf hg (hk g)
    rw [Bool.eq_iff_iff, tablesWf_iff, tablesWf_iff, groupsWf, groupsWf, e]
  · rfl

theorem keeps_updGroup {s : State} (f slot : Nat) {k : Group → Group} (h : s.memoryWf = true)
    (hk : ∀ g, groupWf g = true → groupWf (k g) = true) : (s.updGroup f slot k).memoryWf = true := by
  unfold State.updGroup
  split
  · next g hg => simp [h, hk g (wf_group h hg)]
  · exact h

@[simp] theorem memoryWf_updBlock (s : State) (f b : Nat) (k : Block → Block) (hk : ∀ x, (k x).opc = x.opc) :
    (s.updBlock f b k).memoryWf = s.memoryWf := by
  unfold State.updBlock
  split
  · next x hx =>
    refine memoryWf_updFacet_of s f ?_
    have e := all_aput_of_aget (fun x : Block => Memory.wf x.opc) hx (congrArg Memory.wf (hk x))
    rw [Bool.eq_iff_iff, tablesWf_iff, tablesWf_iff, blocksWf, blocksWf, e]
  · rfl

theorem keeps_updBlock {s : State} (f b : Nat) {k : Block → Block} (h : s.memoryWf = true)
    (hk : ∀ x, Memory.wf x.opc = true → Memory.wf (k x).opc = true) : (s.updBlock f b k).memoryWf = true := by
  unfold State.updBlock
  split
  · next x hx =>
    refine keeps_updFacet h ?_
    simp [h, blocksWf_aput b (wf_blocks h f) (hk x (wf_block h hx))]
  · exact h

@[simp] theorem memoryWf_saveArea (s : State) (f : SysArea → SysArea) (hf : ∀ a, (f a).life = a.life) :
    (s.saveArea f).memoryWf = s.memoryWf := by
  simp [State.saveArea, hf]

@[simp] theorem memoryWf_updStore (s : State) (f : Store → Store) (hf : storeTables (f s.store) = storeTables s.store) :
    (s.updStore f).memoryWf = s.memoryWf := by
  simp [State.updStore, hf]

@[simp] theorem storeTables_compact (x : Store) (b : Bool) : storeTables (x.compact b) = storeTables x := by
  cases b <;> rfl

@[simp] theorem storeTables_append (x : Store) (b : Bool) (r : JournalRec) : storeTables (x.append b r) = storeTables x := by
  unfold Store.append
  dsimp only
  split <;> split <;> simp

@[simp] theorem storeTables_restarting (x : Store) : storeTables x.restarting = storeTables x := (rfl)

@[simp] theorem storeTables_torn (x : Store) (b : Bool) : storeTables (x.torn b) = storeTables x := by
  unfold Store.torn
  split
  · rfl
  · split <;> rfl

@[simp] theorem storeTables_erased (x : Store) (die plane block : Nat) :
    storeTables (x.erased die plane block) = storeTables x := (rfl)

@[simp] theorem storeTables_scrubRead (x : Store) (die plane block page bits : Nat) :
    storeTables (x.scrubRead die plane block page bits) = storeTables x := by
  unfold Store.scrubRead
  dsimp only
  split <;> rfl

@[simp] theorem keeps_life {s : State} (k n : Nat) (h : s.memoryWf = true) : (s.life! k n).memoryWf = true := by
  unfold State.life!
  apply keeps_mk <;> simp [h, tableWf_tset]

/-- An outcome of a command: if it is a next state, its memories and tables are in canonical form. -/
def OutWf : Out → Prop
  | .next t => t.memoryWf = true
  | _ => True

@[simp] theorem outWf_next (t : State) : OutWf (.next t) ↔ t.memoryWf = true := Iff.rfl
@[simp] theorem outWf_fault (r : Fault) : OutWf (.fault r) := trivial
@[simp] theorem outWf_refused (r : Refusal) : OutWf (.refused r) := trivial

/-- What an instruction does: where it is done, the state and its group are in canonical form. -/
def IssueWf : Issue → Prop
  | .done s g => s.memoryWf = true ∧ groupWf g = true
  | _ => True

@[simp] theorem issueWf_hold : IssueWf .hold := trivial
@[simp] theorem issueWf_fault (code : Nat) (lanes : Word) (addr : Nat) : IssueWf (.fault code lanes addr) := trivial
@[simp] theorem issueWf_done (s : State) (g : Group) : IssueWf (.done s g) ↔ s.memoryWf = true ∧ groupWf g = true := Iff.rfl

end Sys2Proof.Laws
end

section
/-! SUPPORT. Operations of a group and of a Facet keep their registers and tables in canonical form. -/

namespace Sys2Proof.Laws

open Sys2Proof Sys2Proof.Machine

@[simp] theorem groupWf_progressed (g : Group) : groupWf g.progressed = groupWf g := (rfl)
@[simp] theorem groupWf_next (g : Group) (i : Ins) : groupWf (g.next i) = groupWf g := (rfl)
@[simp] theorem groupWf_stopped (g : Group) : groupWf g.stopped = groupWf g := (rfl)
@[simp] theorem groupWf_pop (g : Group) (e : StackEntry) (rest : List StackEntry) : groupWf (g.pop e rest) = groupWf g := (rfl)
@[simp] theorem groupWf_enterHandler (s : State) (g : Group) (h : Handler) : groupWf (s.enterHandler g h) = groupWf g := (rfl)
@[simp] theorem groupWf_leaveHandler (g : Group) (h : Handler) (pc : Nat) : groupWf (g.leaveHandler h pc) = groupWf g := by
  simp [Group.leaveHandler]

@[simp] theorem groupWf_reconverge (n : Nat) (g : Group) : groupWf (g.reconverge n) = groupWf g := by
  induction n generalizing g with
  | zero => rfl
  | succ n ih =>
    unfold Group.reconverge
    split
    · simp
    split
    · split <;> simp [ih]
    split
    · split <;> simp [ih]
    · simp

@[simp] theorem groupWf_settle (g : Group) : groupWf g.settle = groupWf g := by
  unfold Group.settle
  split <;> simp

@[simp] theorem groupWf_ite (c : Prop) [Decidable c] (g k : Group) :
    groupWf (if c then g else k) = if c then groupWf g else groupWf k := apply_ite _ _ _ _

@[simp] theorem groupWf_exitLanes (g : Group) (m : Word) : groupWf (g.exitLanes m) = groupWf g := by
  simp [Group.exitLanes]

@[simp] theorem groupWf_setLane {g : Group} (n lane : Nat) (x : Word) (h : groupWf g = true) :
    groupWf (g.setLane n lane x) = true := by
  obtain ⟨hv, hu, hl⟩ := (groupWf_iff g).1 h
  exact (groupWf_iff _).2 ⟨tableWf_tset _ _ hv, hu, hl⟩

@[simp] theorem groupWf_setU {g : Group} (i : Nat) (x : Word) (h : groupWf g = true) :
    groupWf { g with u := tset g.u i x } = true := by
  obtain ⟨hv, hu, hl⟩ := (groupWf_iff g).1 h
  exact (groupWf_iff _).2 ⟨hv, tableWf_tset _ _ hu, hl⟩

theorem groupWf_foldl {f : Group → α → Group} (l : List α) {g : Group} (h : groupWf g = true)
    (hf : ∀ g, groupWf g = true → ∀ x ∈ l, groupWf (f g x) = true) : groupWf (l.foldl f g) = true :=
  List.foldlRecOn l f h hf

@[simp] theorem tablesWf_tick {x : Facet} (n : Nat) (h : x.tablesWf = true) : (x.tick n).tablesWf = true := by
  obtain ⟨hc, hb, hg⟩ := (tablesWf_iff x).1 h
  refine (tablesWf_iff _).2 ⟨hc, hb, groupsWf_map _ (fun e he => ?_) hg⟩
  dsimp only
  split <;> simpa using he

@[simp] theorem tablesWf_reset (x : Facet) : x.reset.tablesWf = true := (rfl)

@[simp] theorem tablesWf_stopped {x : Facet} (h : x.tablesWf = true) : x.stopped.tablesWf = true := by
  simp [Facet.stopped, ((tablesWf_iff x).1 h).1]

end Sys2Proof.Laws
end

section
/-! SUPPORT. The issue of an instruction, faults, barriers and the results of reductions keep the memories and tables in canonical form. -/

namespace Sys2Proof.Laws

open Sys2Proof Sys2Proof.Machine

@[simp] theorem memoryWf_updLaunch (s : State) (id : Nat) (f : Launch → Launch) : (s.updLaunch id f).memoryWf = s.memoryWf := (rfl)

@[simp] theorem memoryWf_loseBlocks (s : State) (f : Nat) : (s.loseBlocks f).memoryWf = s.memoryWf := by
  simp [State.loseBlocks]

@[simp] theorem memoryWf_recordFault (s : State) (f slot : Nat) (g : Group) (code pc : Nat) (aborted : Bool) :
    (s.recordFault f slot g code pc aborted).memoryWf = s.memoryWf := (rfl)

@[simp] theorem memoryWf_markAborted (s : State) (j no : Nat) : (s.markAborted j no).memoryWf = s.memoryWf := by
  simp [State.markAborted]

@[simp] theorem memoryWf_fetched (s : State) (f : Nat) (g : Group) (i : Ins) : (s.fetched f g i).memoryWf = s.memoryWf := by
  simp [State.fetched]

/-- A Facet that faults loses its groups, its blocks and its code. -/
@[simp] theorem keeps_facetFault {s : State} (f : Nat) (h : s.memoryWf = true) : (s.facetFault f).memoryWf = true := by
  unfold State.facetFault
  extract_lets lost out rest noted
  have hout : out.memoryWf = true := by simp [out, lost, h]
  clear_value out
  split <;> simp [noted, rest, hout]

@[simp] theorem keeps_freeSlotOf {s : State} (f slot : Nat) (h : s.memoryWf = true) : (s.freeSlotOf f slot).memoryWf = true :=
  keeps_updFacet h (by simp [h, groupsWf_adel slot (wf_groups h f)])

@[simp] theorem keeps_reapBlock {s : State} (f b : Nat) (h : s.memoryWf = true) : (s.reapBlock f b).memoryWf = true := by
  unfold State.reapBlock
  split
  · exact h
  · split
    · exact keeps_updFacet h (by simp [h, blocksWf_adel b (wf_blocks h f)])
    · exact h

@[simp] theorem memoryWf_endBlock (s : State) (f b : Nat) : (s.endBlock f b).memoryWf = s.memoryWf := by
  unfold State.endBlock
  split
  · rfl
  · split <;> simp

@[simp] theorem keeps_blockOver {s : State} (f b : Nat) (h : s.memoryWf = true) : (s.blockOver f b).memoryWf = true := by
  unfold State.blockOver
  split
  · simp [h]
  · exact h

theorem groupsWf_stopBlock {l : List (Nat × Group)} (b : Nat) (hl : groupsWf l = true) :
    groupsWf (l.map (fun e => if e.2.block = b then (e.1, e.2.stopped) else e)) = true :=
  groupsWf_map _ (fun e he => by split <;> simpa using he) hl

/-- An abort stops the groups of a block and frees the slots of those with nothing outstanding. -/
@[simp] theorem keeps_abortBlock {s : State} (f slot : Nat) (g : Group) (code pc : Nat) (h : s.memoryWf = true) :
    (s.abortBlock f slot g code pc).memoryWf = true := by
  unfold State.abortBlock
  extract_lets noted marked stopped freed
  have hmarked : marked.memoryWf = true := by simp [marked, noted, h]
  have hstopped : stopped.memoryWf = true :=
    keeps_updFacet hmarked (by simp [hmarked, groupsWf_stopBlock g.block (wf_groups hmarked f)])
  have hfreed : freed.memoryWf = true := keeps_foldl _ hstopped fun s hs e _ => by split <;> simp [hs]
  exact keeps_blockOver f _ hfreed

@[simp] theorem keeps_deliver {s : State} (f slot : Nat) {g : Group} (k : Handler) (h : s.memoryWf = true) (hg : groupWf g = true) :
    (s.deliver f slot g k).memoryWf = true := by
  unfold State.deliver
  split <;> simp [h, hg]

@[simp] theorem keeps_deliverHalted {s : State} (f slot : Nat) {g : Group} (k : Handler) (h : s.memoryWf = true)
    (hg : groupWf g = true) : (s.deliverHalted f slot g k).memoryWf = true := by
  unfold State.deliverHalted
  split <;> simp [h, hg]

@[simp] theorem keeps_raise {s : State} (f slot : Nat) {g : Group} (code pc : Nat) (lanes : Word) (addr : Nat) (info : Word)
    (cause bar : Nat) (h : s.memoryWf = true) (hg : groupWf g = true) :
    (s.raise f slot g code pc lanes addr info cause bar).memoryWf = true := by
  unfold State.raise
  dsimp only
  generalize hs : (if code = 1 then _ else _ : State) = s1
  have h1 : s1.memoryWf = true := by subst hs; simp [h]
  split
  · simp [h1]
  · split <;> simp [h1, hg]

@[simp] theorem keeps_afterIssue {s : State} (f slot : Nat) {g : Group} (h : s.memoryWf = true) (hg : groupWf g = true) :
    (s.afterIssue f slot g).memoryWf = true := by
  simp [State.afterIssue, h, hg]

/-- Whatever an instruction comes to (held, faulting, done), issuing it keeps the form if carrying it out does. -/
theorem keeps_issue {s : State} (f slot : Nat) (accept : Ins → Bool) (sources dests : Ins → List Nat × List Nat) (deferPoint : Bool)
    {run : State → Group → Ins → Issue} (chained : State → Group → Ins → List Nat) (h : s.memoryWf = true)
    (hr : ∀ s g i, s.memoryWf = true → groupWf g = true → IssueWf (run s g i)) :
    (s.issue f slot accept sources dests deferPoint run chained).memoryWf = true := by
  unfold State.issue
  split
  · exact h
  next g hgr =>
  have hg : groupWf g = true := wf_group h hgr
  split
  · exact h
  split
  · simp [h]
  next i hi =>
  have hf : (s.fetched f g i).memoryWf = true := by simp [h]
  split
  · exact h
  split
  · simp [h, hg]
  split
  · simp [h, hg]
  split
  · exact h
  split
  · exact h
  dsimp only
  generalize (if g.lanes i = 0 then [] else _ : List Deferred) = due
  split
  · simp [h, hg]
  · have hrun := hr _ g i hf hg
    split
    · exact h
    · simp [h, hg]
    · next t k hd =>
      rw [hd, issueWf_done] at hrun
      exact keeps_afterIssue f slot hrun.1 hrun.2

@[simp] theorem keeps_releaseWaiter {s : State} (f n slot : Nat) {g : Group} (h : s.memoryWf = true) (hg : groupWf g = true) :
    (s.releaseWaiter f n slot g).memoryWf = true := by
  unfold State.releaseWaiter
  split
  · split <;> simp [h, hg]
  · split <;> simp [h, hg]

theorem groupWf_writes (g : Group) (writes : List PendWrite) : groupWf { g with writes := writes } = groupWf g := (rfl)

@[simp] theorem keeps_writeReduced {s : State} (f : Nat) (o : RduOut) (indexed : Bool) (lanes : Word) (x : Nat → Word × Word)
    (h : s.memoryWf = true) : (s.writeReduced f o indexed lanes x).memoryWf = true := by
  unfold State.writeReduced
  split
  · exact h
  next g hgr =>
  have put : ∀ (g : Group) (k : Nat) (sel : Word × Word → Word), groupWf g = true → groupWf (
      if o.uniform then { g with u := tset g.u (o.reg + k) (sel (x (lowLane lanes))) }
      else if o.reg + k = 255 then g
      else (bitsOf lanes).foldl (fun g l => g.setLane (o.reg + k) l (sel (x l))) g) = true := by
    intro g k sel hg
    split
    · exact groupWf_setU _ _ hg
    · split
      · exact hg
      · exact groupWf_foldl _ hg (fun g hg l _ => groupWf_setLane _ _ _ hg)
  have hg := wf_group h hgr
  refine keeps_setGroup f o.slot h ?_
  rw [groupWf_writes]
  split
  · exact put _ _ _ (put _ _ _ hg)
  · exact put _ _ _ hg

@[simp] theorem keeps_finishRedb {s : State} (f : Nat) (h : s.memoryWf = true) : (s.finishRedb f).memoryWf = true := by
  unfold State.finishRedb
  refine keeps_foldl _ (by simp [h]) fun s hs o _ => keeps_foldl _ hs fun s hs d _ => ?_
  exact keeps_writeReduced f d _ _ _ hs

@[simp] theorem keeps_queueRedb {s : State} (f blk : Nat) (b : Barrier) (k : Nat × Nat × Nat) (h : s.memoryWf = true) :
    (s.queueRedb f blk b k).memoryWf = true := by
  unfold State.queueRedb
  extract_lets arrived start outs named wide owed op
  have howed : owed.memoryWf = true := keeps_foldl _ (by simp [named, h]) fun s hs o _ => by simp [hs]
  exact keeps_finishRedb f (by simp [howed])

/-- Every use that is ready is released: its result queued, its waiters going on. -/
@[simp] theorem keeps_releaseBarriers {s : State} (f blk : Nat) (h : s.memoryWf = true) :
    (s.releaseBarriers f blk).memoryWf = true := by
  unfold State.releaseBarriers
  split
  · exact h
  refine keeps_foldl _ h fun s hs nb _ => ?_
  split
  · extract_lets used queued
    have hqueued : queued.memoryWf = true := by
      simp only [queued]
      split <;> simp [used, hs]
    refine List.foldlRecOn (motive := fun t : State => t.memoryWf = true) _ _ hqueued fun t ht e he => ?_
    split
    · exact keeps_releaseWaiter f nb.1 e.1 ht (wf_blockGroups hqueued he)
    · exact ht
  · exact hs

@[simp] theorem keeps_settleBarriers {s : State} (f slot : Nat) (before : State) (h : s.memoryWf = true) :
    (s.settleBarriers f slot before).memoryWf = true := by
  unfold State.settleBarriers
  split
  · exact keeps_releaseBarriers f _ h
  · exact h

end Sys2Proof.Laws
end

section
/-! SUPPORT. Operand writes and the arithmetic and memory instructions keep the memories and tables in canonical form. -/

namespace Sys2Proof.Laws

open Sys2Proof Sys2Proof.Machine

/-- A state and a group whose registers and memories are in canonical form. -/
def PairWf (p : State × Group) : Prop := p.1.memoryWf = true ∧ groupWf p.2 = true

theorem pairWf_foldl {f : State × Group → α → State × Group} (l : List α) {p : State × Group} (h : PairWf p)
    (hf : ∀ p, PairWf p → ∀ x ∈ l, PairWf (f p x)) : PairWf (l.foldl f p) :=
  List.foldlRecOn l f h hf

theorem keeps_writeReg {s : State} (f : Nat) {g : Group} (r : Reg?) (k lane : Nat) (x : Word) (h : s.memoryWf = true)
    (hg : groupWf g = true) : PairWf (writeReg s f g r k lane x) := by
  unfold writeReg
  split
  · exact ⟨h, groupWf_setU _ _ hg⟩
  · split
    · exact ⟨keeps_updBlock f g.block h fun b hb => wf_write _ _ hb, hg⟩
    · split
      · exact ⟨h, hg⟩
      · exact ⟨h, groupWf_setLane _ _ _ hg⟩

theorem keeps_writeOp {s : State} (f : Nat) {g : Group} (r : Reg?) (lane x : Nat) (h : s.memoryWf = true) (hg : groupWf g = true) :
    PairWf (writeOp s f g r lane x) :=
  pairWf_foldl _ ⟨h, hg⟩ fun _ hp k _ => keeps_writeReg f r k lane _ hp.1 hp.2

theorem keeps_writeAll {s : State} (f : Nat) {g : Group} (sh : Shape) (i : Ins) (res : List (Nat × Nat)) (h : s.memoryWf = true)
    (hg : groupWf g = true) : PairWf (writeAll s f g sh i res) := by
  unfold writeAll
  split
  · exact ⟨h, hg⟩
  · exact pairWf_foldl _ ⟨h, hg⟩ fun _ hp r _ => keeps_writeOp f _ r.1 r.2 hp.1 hp.2

@[simp] theorem memoryWf_takePort (s : State) (f slot : Nat) (g : Group) (i : Ins) (reads writes : List Reg?) :
    (s.takePort f slot g i reads writes).memoryWf = s.memoryWf := by
  unfold State.takePort
  split <;> simp

theorem keeps_runAlu {s : State} (f slot : Nat) (sh : Shape) (own : Bool) (imm : Nat) (fn : List Lane → Lane → Nat) {g : Group} (i : Ins)
    (h : s.memoryWf = true) (hg : groupWf g = true) : IssueWf (runAlu f slot sh own imm fn s g i) := by
  unfold runAlu
  split
  · simp
  · split
    · simp
    · obtain ⟨hs, hk⟩ := keeps_writeAll f sh i ((aluLanes g i (sh.dest != 0 && i.ud)).map (fun l => (l, fn ((List.range 32).map
        (readLane s f g sh i imm)) ((((List.range 32).map (readLane s f g sh i imm))[l]?).getD ⟨0, 0, 0, 0, l⟩)))) h hg
      simpa using ⟨hs, hk⟩

@[simp] theorem keeps_issueAlu {s : State} (f slot op : Nat) (shape : Ins → Shape) (own : Ins → Bool) (imm : Ins → Nat)
    (fn : Ins → Group → List Lane → Lane → Nat) (h : s.memoryWf = true) : (issueAlu s f slot op shape own imm fn).memoryWf = true :=
  keeps_issue _ _ _ _ _ _ _ h fun _ g i hs hg => keeps_runAlu f slot _ _ _ (fn i g) i hs hg

@[simp] theorem keeps_issueInt {s : State} (f slot op : Nat) (sh : Shape) (fn : Ins → Lane → Nat) (h : s.memoryWf = true) :
    (issueInt s f slot op sh fn).memoryWf = true := keeps_issueAlu _ _ _ _ _ _ _ h

@[simp] theorem keeps_issueFloat {s : State} (f slot op : Nat) (nb nc : Bool) (fn : Nat → Fmt → Nat → Nat → Nat → Nat)
    (h : s.memoryWf = true) : (issueFloat s f slot op nb nc fn).memoryWf = true := keeps_issueAlu _ _ _ _ _ _ _ h

@[simp] theorem keeps_issueSpecial {s : State} (f slot op : Nat) (fn : Nat → Nat) (h : s.memoryWf = true) :
    (issueSpecial s f slot op fn).memoryWf = true := keeps_issueAlu _ _ _ _ _ _ _ h

theorem groupWf_lfsr {g : Group} (l : List Nat) (h : groupWf g = true) :
    tableWf 32 (l.foldl (fun t l => tset t l (nextDraw (tget g.lfsr l))) g.lfsr) = true :=
  List.foldlRecOn (motive := fun t => tableWf 32 t = true) _ _ ((groupWf_iff g).1 h).2.2 fun _ ht _ _ => tableWf_tset _ _ ht

@[simp] theorem memoryWf_fresh (s : State) : s.fresh.1.memoryWf = s.memoryWf := by simp [State.fresh]

@[simp] theorem memoryWf_free (s : State) : s.free.1.memoryWf = s.memoryWf := by simp [State.free]

section
variable {s : State} (f slot : Nat) (h : s.memoryWf = true)
include h

@[simp] theorem keeps_execMovs : OutWf (execMovs f slot s) :=
  keeps_issue _ _ _ _ _ _ _ h fun _ _ i hs hg => keeps_runAlu f slot _ _ _ _ i hs hg

/-- A draw of CVT moves the lanes' random numbers on by writes of their table. -/
@[simp] theorem keeps_execCvt : OutWf (execCvt f slot s) := by
  refine keeps_issue _ _ _ _ _ _ _ h fun s g i hs hg => ?_
  extract_lets m own drawn
  have hd : tableWf 32 drawn.lfsr = true := by
    simp only [drawn]
    split
    · exact groupWf_lfsr _ hg
    · exact ((groupWf_iff g).1 hg).2.2
  have hr := keeps_runAlu f slot (cvtShape i) own 0
    (fun _ l => cvtValue (i.b % 16) i.type m (i.w0.getLsbD 43) (tget drawn.lfsr l.lane).toNat l.a) i hs hg
  split
  · next t k e =>
    rw [e, issueWf_done, groupWf_iff] at hr
    obtain ⟨ht, hv, hu, -⟩ := hr
    exact ⟨ht, (groupWf_iff _).2 ⟨hv, hu, hd⟩⟩
  · exact hr

@[simp] theorem keeps_execShfl : OutWf (execShfl f slot s) := by
  refine keeps_issue _ _ _ _ _ _ _ h fun s g i hs hg => ?_
  dsimp only
  split
  · simp
  · split
    · simp [hs, hg]
    · split
      · simp
      · exact keeps_runAlu f slot _ _ _ _ i hs hg

@[simp] theorem keeps_execVote : OutWf (execVote f slot s) := by
  refine keeps_issue _ _ _ _ _ _ _ h fun s g i hs hg => ?_
  split
  · simp
  · simp [hs, hg]
end

@[simp] theorem memoryWf_formReqs (s : State) (t : LineReq) (accs : List LaneAcc) : (s.formReqs t accs).memoryWf = s.memoryWf := by
  simp [State.formReqs]

theorem keeps_runMem {s : State} (f slot : Nat) (m : MemShape) (own : Bool) {g : Group} (i : Ins) (h : s.memoryWf = true)
    (hg : groupWf g = true) : IssueWf (runMem f slot m own s g i) := by
  unfold runMem
  split
  · simp
  · dsimp only
    split
    · simp [h, hg]
    · split
      · simp
      · split
        · simp
        · split <;> simp [h, hg]

end Sys2Proof.Laws
end

section
/-! SUPPORT. Decisions, decision points and events keep the memories and tables in canonical form. -/

namespace Sys2Proof.Laws

open Sys2Proof Sys2Proof.Machine

@[simp] theorem memoryWf_pathErr (s : State) (m : Ram) (ws : List Nat) : (s.pathErr m ws).memoryWf = s.memoryWf := by
  simp [State.pathErr]

@[simp] theorem memoryWf_updPc (s : State) (k : Nat) (f : PseudoChannel → PseudoChannel) :
    (s.updPc k f).memoryWf = s.memoryWf := (rfl)

@[simp] theorem memoryWf_updPort (s : State) (p : Nat) (f : Port → Port) : (s.updPort p f).memoryWf = s.memoryWf := (rfl)

@[simp] theorem memoryWf_answer (s : State) (port id : Nat) (bytes : List Byte) :
    (s.answer port id bytes).memoryWf = s.memoryWf := (rfl)

@[simp] theorem memoryWf_trace (s : State) (point source fn : Nat) (args : List Nat) :
    (s.trace point source fn args).memoryWf = s.memoryWf := (rfl)

@[simp] theorem memoryWf_markEntries (s : State) (j : Nat) : (s.markEntries j).memoryWf = s.memoryWf := (rfl)

@[simp] theorem memoryWf_drop (s : State) (j source n : Nat) : (s.drop j source n).memoryWf = s.memoryWf := (rfl)

@[simp] theorem memoryWf_dropAll (s : State) (source : Nat) : (s.dropAll source).memoryWf = s.memoryWf := by
  simp [State.dropAll]

@[simp] theorem memoryWf_flagAll (s : State) : (s.flagAll).memoryWf = s.memoryWf := by
  simp [State.flagAll]

@[simp] theorem memoryWf_clampEvent (s : State) (j cause : Nat) : (s.clampEvent j cause).memoryWf = s.memoryWf := (rfl)

@[simp] theorem memoryWf_decisionPoint (s : State) (k subject data : Nat) :
    (s.decisionPoint k subject data).1.memoryWf = s.memoryWf := by
  simp only [State.decisionPoint]
  split
  · simp
  split
  · split <;> simp
  · split <;> simp

@[simp] theorem memoryWf_forget (s : State) (gone : Decision → Bool) : (s.forget gone).memoryWf = s.memoryWf := (rfl)

@[simp] theorem memoryWf_stackFault (s : State) (k : Nat) : (s.stackFault k).memoryWf = s.memoryWf := by
  simp [State.stackFault]

@[simp] theorem memoryWf_escalateStack (s : State) (k : Nat) : (s.escalateStack k).memoryWf = s.memoryWf := by
  simp [State.escalateStack]

end Sys2Proof.Laws
end

section
/-! SUPPORT. Operands, groups, the arithmetic units and completion keep the memories and tables in canonical form. -/

namespace Sys2Proof.Laws

open Sys2Proof Sys2Proof.Machine

@[simp] theorem keeps_execMov (f slot : Nat) {s : State} (h : s.memoryWf = true) : OutWf (execMov f slot s) := by
  simp [execMov, h]

@[simp] theorem keeps_execIadd (f slot : Nat) {s : State} (h : s.memoryWf = true) : OutWf (execIadd f slot s) := by
  simp [execIadd, h]

@[simp] theorem keeps_execIsub (f slot : Nat) {s : State} (h : s.memoryWf = true) : OutWf (execIsub f slot s) := by
  simp [execIsub, h]

@[simp] theorem keeps_execImul (f slot : Nat) {s : State} (h : s.memoryWf = true) : OutWf (execImul f slot s) := by
  simp [execImul, h]

@[simp] theorem keeps_execImulh (f slot : Nat) {s : State} (h : s.memoryWf = true) : OutWf (execImulh f slot s) := by
  simp [execImulh, h]

@[simp] theorem keeps_execImad (f slot : Nat) {s : State} (h : s.memoryWf = true) : OutWf (execImad f slot s) := by
  simp [execImad, h]

@[simp] theorem keeps_execImin (f slot : Nat) {s : State} (h : s.memoryWf = true) : OutWf (execImin f slot s) := by
  simp [execImin, h]

@[simp] theorem keeps_execImax (f slot : Nat) {s : State} (h : s.memoryWf = true) : OutWf (execImax f slot s) := by
  simp [execImax, h]

@[simp] theorem keeps_execIabs (f slot : Nat) {s : State} (h : s.memoryWf = true) : OutWf (execIabs f slot s) := by
  simp [execIabs, h]

@[simp] theorem keeps_execAnd (f slot : Nat) {s : State} (h : s.memoryWf = true) : OutWf (execAnd f slot s) := by
  simp [execAnd, h]

@[simp] theorem keeps_execOr (f slot : Nat) {s : State} (h : s.memoryWf = true) : OutWf (execOr f slot s) := by
  simp [execOr, h]

@[simp] theorem keeps_execXor (f slot : Nat) {s : State} (h : s.memoryWf = true) : OutWf (execXor f slot s) := by
  simp [execXor, h]

@[simp] theorem keeps_execNot (f slot : Nat) {s : State} (h : s.memoryWf = true) : OutWf (execNot f slot s) := by
  simp [execNot, h]

@[simp] theorem keeps_execShl (f slot : Nat) {s : State} (h : s.memoryWf = true) : OutWf (execShl f slot s) := by
  simp [execShl, h]

@[simp] theorem keeps_execShr (f slot : Nat) {s : State} (h : s.memoryWf = true) : OutWf (execShr f slot s) := by
  simp [execShr, h]

@[simp] theorem keeps_execSar (f slot : Nat) {s : State} (h : s.memoryWf = true) : OutWf (execSar f slot s) := by
  simp [execSar, h]

@[simp] theorem keeps_execPopc (f slot : Nat) {s : State} (h : s.memoryWf = true) : OutWf (execPopc f slot s) := by
  simp [execPopc, h]

@[simp] theorem keeps_execClz (f slot : Nat) {s : State} (h : s.memoryWf = true) : OutWf (execClz f slot s) := by
  simp [execClz, h]

@[simp] theorem keeps_execIcmp (f slot : Nat) {s : State} (h : s.memoryWf = true) : OutWf (execIcmp f slot s) := by
  simp [execIcmp, h]

@[simp] theorem keeps_execSel (f slot : Nat) {s : State} (h : s.memoryWf = true) : OutWf (execSel f slot s) := by
  simp [execSel, h]

@[simp] theorem keeps_execIadd64 (f slot : Nat) {s : State} (h : s.memoryWf = true) : OutWf (execIadd64 f slot s) := by
  simp [execIadd64, h]

@[simp] theorem keeps_execImad64 (f slot : Nat) {s : State} (h : s.memoryWf = true) : OutWf (execImad64 f slot s) := by
  simp [execImad64, h]

@[simp] theorem keeps_execFadd (f slot : Nat) {s : State} (h : s.memoryWf = true) : OutWf (execFadd f slot s) := by
  simp [execFadd, h]

@[simp] theorem keeps_execFmul (f slot : Nat) {s : State} (h : s.memoryWf = true) : OutWf (execFmul f slot s) := by
  simp [execFmul, h]

@[simp] theorem keeps_execFfma (f slot : Nat) {s : State} (h : s.memoryWf = true) : OutWf (execFfma f slot s) := by
  simp [execFfma, h]

@[simp] theorem keeps_execFmin (f slot : Nat) {s : State} (h : s.memoryWf = true) : OutWf (execFmin f slot s) := by
  simp [execFmin, h]

@[simp] theorem keeps_execFmax (f slot : Nat) {s : State} (h : s.memoryWf = true) : OutWf (execFmax f slot s) := by
  simp [execFmax, h]

@[simp] theorem keeps_execFcmp (f slot : Nat) {s : State} (h : s.memoryWf = true) : OutWf (execFcmp f slot s) := by
  simp [execFcmp, h]

@[simp] theorem keeps_execFabs (f slot : Nat) {s : State} (h : s.memoryWf = true) : OutWf (execFabs f slot s) := by
  simp [execFabs, h]

@[simp] theorem keeps_execRcp (f slot : Nat) {s : State} (h : s.memoryWf = true) : OutWf (execRcp f slot s) := by
  simp [execRcp, h]

@[simp] theorem keeps_execRsq (f slot : Nat) {s : State} (h : s.memoryWf = true) : OutWf (execRsq f slot s) := by
  simp [execRsq, h]

@[simp] theorem keeps_execSqrt (f slot : Nat) {s : State} (h : s.memoryWf = true) : OutWf (execSqrt f slot s) := by
  simp [execSqrt, h]

@[simp] theorem keeps_execExp2 (f slot : Nat) {s : State} (h : s.memoryWf = true) : OutWf (execExp2 f slot s) := by
  simp [execExp2, h]

@[simp] theorem keeps_execLog2 (f slot : Nat) {s : State} (h : s.memoryWf = true) : OutWf (execLog2 f slot s) := by
  simp [execLog2, h]

@[simp] theorem keeps_execSin (f slot : Nat) {s : State} (h : s.memoryWf = true) : OutWf (execSin f slot s) := by
  simp [execSin, h]

@[simp] theorem keeps_execCos (f slot : Nat) {s : State} (h : s.memoryWf = true) : OutWf (execCos f slot s) := by
  simp [execCos, h]

@[simp] theorem keeps_execExp (f slot : Nat) {s : State} (h : s.memoryWf = true) : OutWf (execExp f slot s) := by
  simp [execExp, h]

@[simp] theorem keeps_execAct (f slot : Nat) {s : State} (h : s.memoryWf = true) : OutWf (execAct f slot s) := by
  simp [execAct, h]

@[simp] theorem keeps_execActd (f slot : Nat) {s : State} (h : s.memoryWf = true) : OutWf (execActd f slot s) := by
  simp [execActd, h]

@[simp] theorem keeps_execI2i (f slot : Nat) {s : State} (h : s.memoryWf = true) : OutWf (execI2i f slot s) := by
  simp [execI2i, h]

@[simp] theorem keeps_execShflP (f slot : Nat) {s : State} (h : s.memoryWf = true) : OutWf (execShflP f slot s) := by
  simp [execShflP, h]

@[simp] theorem keeps_execBswz (f slot : Nat) {s : State} (h : s.memoryWf = true) : OutWf (execBswz f slot s) := by
  simp [execBswz, h]

@[simp] theorem keeps_execPack (f slot : Nat) {s : State} (h : s.memoryWf = true) : OutWf (execPack f slot s) := by
  simp [execPack, h]

@[simp] theorem keeps_execUnpk (f slot : Nat) {s : State} (h : s.memoryWf = true) : OutWf (execUnpk f slot s) := by
  simp [execUnpk, h]

@[simp] theorem memoryWf_updRing (s : State) (j r : Nat) (f : Ring → Ring) : (s.updRing j r f).memoryWf = s.memoryWf := (rfl)

@[simp] theorem memoryWf_writeRecord (s : State) (e : Entry) (x : Rec) : (s.writeRecord e x).memoryWf = s.memoryWf := by
  simp [State.writeRecord]

@[simp] theorem memoryWf_completeEntry (s : State) (j r seq : Nat) (x : Rec) :
    (s.completeEntry j r seq x).memoryWf = s.memoryWf := by
  unfold State.completeEntry
  split <;> simp

@[simp] theorem memoryWf_noteEntry (s : State) (j r seq : Nat) (x : Rec) : (s.noteEntry j r seq x).memoryWf = s.memoryWf := by
  unfold State.noteEntry
  split <;> simp

end Sys2Proof.Laws
end

section
/-! SUPPORT. The Frustum keeps the memories and tables in canonical form. -/

namespace Sys2Proof.Laws

open Sys2Proof Sys2Proof.Machine

@[simp] theorem memoryWf_agentServed (s : State) (k : Nat) : (s.agentServed k).memoryWf = s.memoryWf := by
  simp [State.agentServed]

@[simp] theorem memoryWf_toSink (s : State) (w : SinkWrite) : (s.toSink w).memoryWf = s.memoryWf := (rfl)

@[simp] theorem keeps_countCells {s : State} (sector : Nat) (ws : List CellWord) (h : s.memoryWf = true) :
    (s.countCells sector ws).memoryWf = true := by
  simp [State.countCells, h]

@[simp] theorem memoryWf_toSinkFirst (s : State) (w : SinkWrite) : (s.toSinkFirst w).memoryWf = s.memoryWf := (rfl)

@[simp] theorem keeps_cellRead {s : State} (sector : Nat) (noise : Noise) (h : s.memoryWf = true) :
    (s.cellRead sector noise).memoryWf = true := by
  unfold State.cellRead
  extract_lets ws p counted back
  split <;> simp [counted, h]

/-- What leaves the sink is merged into the cells sector by sector, an injected error word by word. -/
@[simp] theorem keeps_retire {s : State} (w : SinkWrite) (h : s.memoryWf = true) : (s.retire w).memoryWf = true := by
  unfold State.retire
  extract_lets met merged counted cells inj armed x written
  have hcounted : counted.memoryWf = true := by
    simp only [counted]
    split <;> simp [h]
  have hcells : Memory.wf cells = true := wf_putSector _ _ (wf_cells hcounted)
  split
  · rw [memoryWf_setRegF]
    exact keeps_withHbm hcounted (wf_setWord _ _ _ hcells)
  · exact keeps_withHbm hcounted hcells

@[simp] theorem keeps_retireN {s : State} (k n : Nat) (h : s.memoryWf = true) : (s.retireN k n).memoryWf = true := by
  induction n generalizing s with
  | zero => exact h
  | succ n ih =>
    unfold State.retireN
    split
    · exact h
    · exact ih (keeps_retire _ (by simp [h]))

@[simp] theorem keeps_flushEngine {s : State} (k : Nat) (h : s.memoryWf = true) : (s.flushEngine k).memoryWf = true := by
  unfold State.flushEngine
  extract_lets merged written
  rw [memoryWf_updPc]
  exact keeps_foldl _ (by simp [merged, h]) fun s hs w _ => keeps_retire w hs

@[simp] theorem memoryWf_sinkAccept (s : State) (k : Nat) : (sinkAccept s k).memoryWf = s.memoryWf := by
  simp only [sinkAccept]
  split
  · simp
  · split <;> simp

@[simp] theorem keeps_serviceWindow {s : State} (k n : Nat) (h : s.memoryWf = true) : (serviceWindow s k n).memoryWf = true := by
  unfold serviceWindow
  extract_lets p late ok
  split <;> simp [h]

@[simp] theorem keeps_demandRead {s : State} (k : Nat) (noise : Noise) (h : s.memoryWf = true) :
    (demandRead s k noise).memoryWf = true := by
  unfold demandRead
  split
  · exact h
  · split
    · exact h
    · extract_lets read hull noted
      have hread : read.memoryWf = true := keeps_foldl _ h fun s hs i _ => keeps_cellRead _ noise hs
      simp [noted, hull, hread]

@[simp] theorem keeps_scrubSector {s : State} (sector : Nat) (noise : Noise) (h : s.memoryWf = true) :
    (s.scrubSector sector noise).memoryWf = true := by
  unfold State.scrubSector
  extract_lets ws counted
  have hcounted : counted.memoryWf = true := by simp [counted, h]
  split
  · exact hcounted
  · exact keeps_withHbm hcounted (wf_putSector _ _ (wf_cells hcounted))

@[simp] theorem keeps_scrubStep {s : State} (k : Nat) (noise : Noise) (h : s.memoryWf = true) :
    (scrubStep s k noise).memoryWf = true := by
  unfold scrubStep
  split
  · exact h
  · simp [h]

@[simp] theorem memoryWf_refreshBank (s : State) (k : Nat) : (refreshBank s k).memoryWf = s.memoryWf := by
  simp [refreshBank]

@[simp] theorem memoryWf_refreshRate (s : State) (stack celsius : Nat) : (refreshRate s stack celsius).memoryWf = s.memoryWf := by
  simp [refreshRate]

@[simp] theorem memoryWf_rowRemapStart (s : State) (k bank row : Nat) : (rowRemapStart s k bank row).memoryWf = s.memoryWf := by
  simp only [rowRemapStart]
  split
  · simp
  · split <;> simp

@[simp] theorem keeps_remapCopyDone {s : State} (k : Nat) (h : s.memoryWf = true) : (remapCopyDone s k).memoryWf = true := by
  unfold remapCopyDone
  split
  · exact h
  · split
    · exact h
    · extract_lets stack copied freed hbm mapped
      have hcopied : copied.memoryWf = true := keeps_foldl _ h fun s hs i _ => keeps_scrubSector _ _ hs
      clear_value copied
      simp [mapped, hbm, freed, hcopied]

@[simp] theorem memoryWf_spTakesRemaps (s : State) : (s.spTakesRemaps).memoryWf = s.memoryWf := (rfl)

@[simp] theorem memoryWf_degradePin (s : State) (k pin : Nat) : (s.degradePin k pin).memoryWf = s.memoryWf := by
  simp [State.degradePin]

@[simp] theorem memoryWf_memVerify (s : State) (v : Word) : (memVerify s v).memoryWf = s.memoryWf := by
  simp [memVerify]

end Sys2Proof.Laws
end

section
/-! SUPPORT. The Hull keeps the memories and tables in canonical form. -/

namespace Sys2Proof.Laws

open Sys2Proof Sys2Proof.Machine

@[simp] theorem memoryWf_putSet (s : State) (k : Nat) (l : List Way) : (s.putSet k l).memoryWf = s.memoryWf := (rfl)

@[simp] theorem memoryWf_updLine (s : State) (line : Nat) (f : Way → Way) : (s.updLine line f).memoryWf = s.memoryWf := by
  unfold State.updLine
  split <;> simp

@[simp] theorem memoryWf_writeBackSectors (s : State) (line : Nat) (sectors : BitVec 16) :
    (s.writeBackSectors line sectors).memoryWf = s.memoryWf := by
  simp [State.writeBackSectors]

@[simp] theorem memoryWf_recordDead (s : State) (line tenant : Nat) : (s.recordDead line tenant).memoryWf = s.memoryWf := by
  simp only [State.recordDead]
  split
  · simp
  · split <;> simp

@[simp] theorem memoryWf_unrecord (s : State) (line : Nat) : (s.unrecord line).memoryWf = s.memoryWf := (rfl)

theorem keeps_foldl_fst {β : Type} {f : State × β → α → State × β} (l : List α) {p : State × β} (h : p.1.memoryWf = true)
    (hf : ∀ p, p.1.memoryWf = true → ∀ x ∈ l, (f p x).1.memoryWf = true) : (l.foldl f p).1.memoryWf = true :=
  List.foldlRecOn (motive := fun p : State × β => p.1.memoryWf = true) l f h hf

theorem keeps_getD {s : State} {o : Option State} (h : s.memoryWf = true) (ho : ∀ t, o = some t → t.memoryWf = true) :
    (o.getD s).memoryWf = true := by
  cases o with
  | none => exact h
  | some t => exact ho t rfl

@[simp] theorem keeps_evict {s : State} (set i : Nat) (h : s.memoryWf = true) : (s.evict set i).memoryWf = true := by
  unfold State.evict
  split
  · exact h
  · split
    · exact h
    · extract_lets line out hull erased
      have hout : out.memoryWf = true := by
        simp only [out]
        split <;> simp [h]
      simpa using keeps_withHull hout (wf_erase _ _ (wf_hullData hout))

@[simp] theorem memoryWf_updReq (s : State) (id : Nat) (f : LineReq → LineReq) : (s.updReq id f).memoryWf = s.memoryWf := (rfl)

@[simp] theorem memoryWf_updGuard (s : State) (j : Nat) (f : Guard → Guard) : (s.updGuard j f).memoryWf = s.memoryWf := (rfl)

@[simp] theorem memoryWf_classify (s : State) (r : LineReq) : (s.classify r).memoryWf = s.memoryWf := by
  simp only [State.classify]
  split
  · simp
  · split <;> simp

@[simp] theorem memoryWf_startFill (s : State) (line : Nat) (sectors : BitVec 16) :
    (s.startFill line sectors).memoryWf = s.memoryWf := by
  simp [State.startFill]

theorem memoryWf_claimFill {s t : State} {r : LineReq} {w : Way} (ht : s.claimFill r w = some t) : t.memoryWf = s.memoryWf := by
  unfold State.claimFill at ht
  dsimp only at ht
  split at ht
  · cases ht; rfl
  · split at ht
    · cases ht; simp
    · split at ht <;> cases ht
      simp

@[simp] theorem keeps_allocate {s : State} (line i tenant use cls : Nat) (h : s.memoryWf = true) :
    (s.allocate line i tenant use cls).memoryWf = true := by
  simp [State.allocate, h]

/-- A lane of an atomic writes at most its own word of the line. -/
@[simp] theorem keeps_atomLane {s : State} (r : LineReq) (a : LaneAcc) (h : s.memoryWf = true) :
    (s.atomLane r a).1.memoryWf = true := by
  have put : ∀ v : Nat, State.memoryWf { s with hull := { s.hull with data := s.hull.data.write a.addr (leBytes r.width v) } } = true :=
    fun v => keeps_withHull h (wf_write _ _ (wf_hullData h))
  unfold State.atomLane
  split
  split
  · exact h
  · dsimp only
    split
    · split
      · exact put _
      · split <;> exact h
    · split
      · exact put _
      · exact h
    · exact put _

@[simp] theorem memoryWf_dirtied (s : State) (line : Nat) (sectors : BitVec 16) :
    (s.dirtied line sectors).memoryWf = s.memoryWf := by
  simp [State.dirtied]

@[simp] theorem keeps_agentPut {s : State} (w : SinkWrite) (h : s.memoryWf = true) : (s.agentPut w).memoryWf = true := by
  unfold State.agentPut
  extract_lets line i hull bit
  split
  · simp [h]
  · split
    · extract_lets old written
      have hwritten : written.memoryWf = true := keeps_withHull h (wf_putSector _ _ (wf_hullData h))
      split <;> simp [hwritten]
    · simp [h]

@[simp] theorem keeps_agentWrite {s : State} (a : Nat) (l : List Byte) (h : s.memoryWf = true) :
    (s.agentWrite a l).memoryWf = true :=
  keeps_foldl _ h fun _ hs w _ => keeps_agentPut w hs

@[simp] theorem keeps_agentWriteCodes {s : State} (a : Nat) (l : List Code) (h : s.memoryWf = true) :
    (s.agentWriteCodes a l).memoryWf = true :=
  keeps_foldl _ h fun _ hs w _ => keeps_agentPut w hs

@[simp] theorem keeps_agentLine {s : State} (line : Nat) (sectors : List Nat) (h : s.memoryWf = true) :
    (s.agentLine line sectors).1.memoryWf = true := by
  have read : ∀ s : State, s.memoryWf = true →
      (sectors.foldl (fun s i => s.cellRead (16 * line + i) []) s).memoryWf = true :=
    fun s hs => keeps_foldl _ hs fun _ hs i _ => keeps_cellRead _ _ hs
  unfold State.agentLine
  extract_lets fromHbm need
  split
  · simp [fromHbm, read s h]
  · split
    · exact h
    · extract_lets back cleaned
      simp [fromHbm, read cleaned (by simp [cleaned, back, h])]

@[simp] theorem keeps_agentSectors {s : State} (a n : Nat) (h : s.memoryWf = true) : (s.agentSectors a n).1.memoryWf = true := by
  unfold State.agentSectors
  split
  · exact h
  · exact keeps_foldl_fst _ h fun p hp line _ => keeps_agentLine _ _ hp

@[simp] theorem keeps_agentRead {s : State} (a n : Nat) (h : s.memoryWf = true) : (s.agentRead a n).1.memoryWf = true :=
  keeps_agentSectors a n h

@[simp] theorem keeps_agentCodes {s : State} (a n : Nat) (h : s.memoryWf = true) : (s.agentCodes a n).1.memoryWf = true :=
  keeps_agentSectors a n h

@[simp] theorem keeps_markDelta {s : State} (j : Nat) (tas : List Nat) (h : s.memoryWf = true) :
    (s.markDelta j tas).memoryWf = true := by
  refine keeps_foldl _ h fun s hs i _ => ?_
  split <;> simp [hs]

theorem wf_storeBytes {d : Ram} (r : LineReq) (h : Memory.wf d = true) : Memory.wf (r.store d) = true := by
  refine wf_foldl _ (fun d w hd => ?_) _ _ h
  dsimp only
  split
  · exact wf_write _ _ hd
  · exact wf_foldl _ (fun d b hd => wf_write _ _ hd) _ _ hd

@[simp] theorem memoryWf_noteOverlap (s : State) (j : Nat) (tas : List Nat) : (s.noteOverlap j tas).memoryWf = s.memoryWf := by
  simp [State.noteOverlap]

@[simp] theorem memoryWf_finishReq (s : State) (r : LineReq) (res : List (Nat × BitVec 128 × Bool)) :
    (s.finishReq r res).memoryWf = s.memoryWf := by
  simp [State.finishReq]

@[simp] theorem keeps_serveLocks {s : State} (rs : List LineReq) (h : s.memoryWf = true) : (s.serveLocks rs).memoryWf = true := by
  unfold State.serveLocks
  split
  · exact h
  · extract_lets all lanes out stop res
    have hout : out.1.memoryWf = true := keeps_foldl_fst _ h fun p hp a _ => keeps_atomLane _ a hp
    refine keeps_foldl _ (by split <;> simp [h, hout]) fun s hs q _ => ?_
    simp [hs]

@[simp] theorem keeps_serve {s : State} (r : LineReq) (h : s.memoryWf = true) : (s.serve r).memoryWf = true := by
  unfold State.serve
  extract_lets base done stored data hull written
  have hdone : ∀ s : State, ∀ res, s.memoryWf = true → (done s res).memoryWf = true := fun s res hs => by simp [done, hs]
  have hwritten : written.memoryWf = true :=
    keeps_withHull h (wf_foldl _ (fun m i hm => wf_poison _ hm) _ _ (wf_storeBytes r (wf_hullData h)))
  clear_value written
  split
  · exact hdone _ _ h
  · exact hdone _ _ h
  · exact hdone _ _ (by simp [hwritten])
  · exact hdone _ _ (by simp [hwritten])
  · exact hdone _ _ h
  · exact keeps_serveLocks _ h
  · exact keeps_serveLocks _ h
  · refine hdone _ _ ?_
    rw [memoryWf_dirtied]
    exact keeps_foldl_fst _ h fun p hp a _ => keeps_atomLane r a hp

@[simp] theorem keeps_serveLine {s : State} (line n : Nat) (h : s.memoryWf = true) : (s.serveLine line n).memoryWf = true := by
  induction n generalizing s with
  | zero => exact h
  | succ n ih =>
    unfold State.serveLine
    split
    · split
      · split
        · exact ih (keeps_serve _ h)
        · split
          · exact ih (keeps_serveLocks _ h)
          · exact h
      · exact keeps_getD h fun t ht => memoryWf_claimFill ht ▸ h
    · exact h

@[simp] theorem keeps_serveLines {s : State} (line : Nat) (h : s.memoryWf = true) : (s.serveLines line).memoryWf = true := by
  unfold State.serveLines
  extract_lets n lines
  split
  · refine keeps_foldl _ (keeps_serveLine line n h) fun s hs _ _ => ?_
    exact keeps_foldl _ hs fun s hs l _ => keeps_serveLine l n hs
  · exact keeps_serveLine line n h

@[simp] theorem memoryWf_acceptReq (s : State) (id : Nat) (f : LineReq → LineReq) : (s.acceptReq id f).memoryWf = s.memoryWf := by
  unfold State.acceptReq
  split <;> simp

@[simp] theorem memoryWf_answerBusy (s : State) (r : LineReq) : (s.answerBusy r).memoryWf = s.memoryWf := by
  simp [State.answerBusy]

@[simp] theorem keeps_tagUe {s : State} (set i : Nat) (h : s.memoryWf = true) : (s.tagUe set i).memoryWf = true := by
  unfold State.tagUe
  split
  · exact h
  · split
    · exact h
    · extract_lets line hull lost off
      have hlost : lost.memoryWf = true := by
        simp only [lost]
        split
        · apply keeps_mk <;> simp [h, wf_erase]
        · exact h
      simp [off, hlost]

@[simp] theorem keeps_tagError {s : State} (set tag way : Nat) (h : s.memoryWf = true) :
    (s.tagError set tag way).memoryWf = true := by
  unfold State.tagError
  split <;> simp [h]

theorem memoryWf_snoop {s : State} {line : Nat} {write : Bool} {t : State} (ht : s.snoop line write = some t) :
    t.memoryWf = s.memoryWf := by
  unfold State.snoop at ht
  dsimp only at ht
  obtain ⟨-, ht⟩ := Option.ite_none_left_eq_some.1 ht
  obtain ⟨-, ht⟩ := Option.ite_none_left_eq_some.1 ht
  simp [← Option.some.inj ht]

@[simp] theorem memoryWf_guardCount (s : State) (r : LineReq) (hit : Bool) : (s.guardCount r hit).memoryWf = s.memoryWf := by
  simp [State.guardCount]

@[simp] theorem memoryWf_deadMiss (s : State) (r : LineReq) : (s.deadMiss r).memoryWf = s.memoryWf := by
  unfold State.deadMiss
  split
  · simp
  · split <;> simp

@[simp] theorem memoryWf_bypassResult (s : State) (r : LineReq) : (s.bypassResult r).memoryWf = s.memoryWf := (rfl)

/-- A presented request finds its line, bypasses the Hull, allocates its line, or is answered busy. -/
@[simp] theorem keeps_present {s : State} (r : LineReq) (h : s.memoryWf = true) : (s.present r).memoryWf = true := by
  unfold State.present
  dsimp only
  split
  · next t ht =>
    split at ht
    · cases ht
    · exact (memoryWf_snoop ht).trans h
  split
  · next w hw =>
    split
    · simp [h]
    · next t ht =>
      have hc : t.memoryWf = true := (memoryWf_claimFill ht).trans h
      refine keeps_serveLines _ ?_
      rw [memoryWf_classify, memoryWf_acceptReq]
      split <;> simp [hc]
  split
  · simp [h]
  split
  · split
    · split <;> simp [h]
    · split <;> simp [h]
  · split
    · simp [h]
    · split
      · exact h
      · split
        · simp [h]
        · next i hi _ _ =>
          have ha : (((s.guardCount r false).deadMiss r).allocate r.line i r.vf r.use (if r.hinted then r.cls else 0)).memoryWf = true :=
            keeps_allocate _ _ _ _ _ (by simp [h])
          generalize State.allocate _ _ _ _ _ _ = a at ha
          have hserved : ∀ t : State, t.memoryWf = true → (((t.acceptReq r.id id).classify r).serveLines r.line).memoryWf = true :=
            fun t ht => keeps_serveLines _ (by simp [ht])
          rw [memoryWf_ite, memoryWf_updLine, ite_self]
          exact hserved _ (by simp [ha])

@[simp] theorem keeps_presentAll {s : State} (r : LineReq) (h : s.memoryWf = true) : (s.presentAll r).memoryWf = true := by
  unfold State.presentAll
  split
  · exact keeps_present r h
  · extract_lets rs t
    have ht : t.memoryWf = true := keeps_foldl _ h fun s hs q _ => keeps_present q hs
    split
    · exact ht
    · split
      · exact keeps_foldl _ h fun s hs q _ => keeps_getD hs fun t ht => (memoryWf_snoop ht).trans hs
      · refine keeps_foldl _ h fun s hs q _ => ?_
        split <;> simp [hs]

@[simp] theorem keeps_hullRequestAccept {s : State} (id tag way : Nat) (h : s.memoryWf = true) :
    (hullRequestAccept s id tag way).memoryWf = true := by
  unfold hullRequestAccept
  split
  · exact h
  · split <;> simp [h]

@[simp] theorem keeps_hullRepresent {s : State} (id : Nat) (h : s.memoryWf = true) : (hullRepresent s id).memoryWf = true := by
  unfold hullRepresent
  split
  · exact h
  · split <;> simp [h]

@[simp] theorem keeps_fillSectorArrival {s : State} (line sector : Nat) (h : s.memoryWf = true) :
    (fillSectorArrival s line sector).memoryWf = true := by
  unfold fillSectorArrival
  split
  · exact h
  · split
    · exact h
    · extract_lets rest fills hull noted n hull' held
      have hnoted : noted.memoryWf = true := by simp [noted, hull, h]
      have hheld : held.memoryWf = true := keeps_withHull hnoted (wf_putSector _ _ (wf_hullData hnoted))
      clear_value noted held
      split
      · split <;> simp [hnoted]
      · split
        · exact hnoted
        · extract_lets arrived settled
          have harrived : arrived.memoryWf = true := by simp [arrived, hnoted, hheld]
          simp [settled, harrived]

theorem memoryWf_agentTurn {s : State} {d n : Nat} {write : Bool} {t : State} (ht : s.agentTurn d n write = some t) :
    t.memoryWf = s.memoryWf := by
  unfold State.agentTurn at ht
  obtain ⟨-, ht⟩ := Option.ite_none_left_eq_some.1 ht
  split at ht
  · rw [← Option.some.inj ht]
  · rw [← Option.some.inj ht, memoryWf_foldl]
    intro u e
    split <;> simp

@[simp] theorem keeps_agentGate {s t : State} {d n : Nat} {write : Bool} (ht : s.agentGate d n write = some t) (h : s.memoryWf = true) :
    t.memoryWf = true := by
  unfold State.agentGate at ht
  split at ht
  · cases ht
  · extract_lets asked at ht
    have hasked : asked.1.memoryWf = true := keeps_foldl_fst _ h fun p hp i _ => by
      split
      next u hu => exact (memoryWf_snoop hu).trans hp
      · exact hp
    split at ht
    · cases ht; exact hasked
    · exact (memoryWf_agentTurn ht).trans h

@[simp] theorem keeps_agentReadRow {s : State} (a n : Nat) (h : s.memoryWf = true) : (agentReadRow s a n).memoryWf = true := by
  unfold agentReadRow
  split
  next t ht => exact keeps_agentGate ht h
  · exact keeps_agentRead a n h

@[simp] theorem keeps_agentWriteRow {s : State} (a : Nat) (l : List Byte) (h : s.memoryWf = true) :
    (agentWriteRow s a l).memoryWf = true := by
  unfold agentWriteRow
  split
  next t ht => exact keeps_agentGate ht h
  · exact keeps_agentWrite a l h

@[simp] theorem memoryWf_tgPeriodEnd (s : State) (j : Nat) : (tgPeriodEnd s j).memoryWf = s.memoryWf := by
  simp [tgPeriodEnd]

end Sys2Proof.Laws
end

section
/-! SUPPORT. Line requests and the memory instructions keep the memories and tables in canonical form. -/

namespace Sys2Proof.Laws

open Sys2Proof Sys2Proof.Machine

@[simp] theorem keeps_issueMem {s : State} (f slot op : Nat) (m : Ins → MemShape) (own : Ins → Bool) (h : s.memoryWf = true) :
    (issueMem s f slot op m own).memoryWf = true :=
  keeps_issue _ _ _ _ _ _ _ h fun _ _ i hs hg => keeps_runMem f slot _ _ i hs hg

@[simp] theorem keeps_execLd (f slot : Nat) {s : State} (h : s.memoryWf = true) : OutWf (execLd f slot s) := by
  simp [execLd, h]

@[simp] theorem keeps_execLds (f slot : Nat) {s : State} (h : s.memoryWf = true) : OutWf (execLds f slot s) := by
  simp [execLds, h]

@[simp] theorem keeps_execSt (f slot : Nat) {s : State} (h : s.memoryWf = true) : OutWf (execSt f slot s) := by
  simp [execSt, h]

@[simp] theorem keeps_execHint (f slot : Nat) {s : State} (h : s.memoryWf = true) : OutWf (execHint f slot s) := by
  simp [execHint, h]

@[simp] theorem keeps_execAtom (f slot : Nat) {s : State} (h : s.memoryWf = true) : OutWf (execAtom f slot s) := by
  simp [execAtom, h]

@[simp] theorem keeps_runLock (f slot : Nat) (acquire own : Bool) {s : State} {g : Group} (i : Ins) (h : s.memoryWf = true)
    (hg : groupWf g = true) : IssueWf (runLock f slot acquire own s g i) := by
  simp only [runLock]
  split
  · simp
  split
  · simp [h, hg]
  split
  · simp
  split
  · split <;> simp [h, hg]
  · split <;> simp [h, hg]

@[simp] theorem keeps_execAcq (f slot : Nat) {s : State} (h : s.memoryWf = true) : OutWf (execAcq f slot s) :=
  keeps_issue _ _ _ _ _ _ _ h fun _ _ i hs hg => keeps_runLock f slot _ _ i hs hg

@[simp] theorem keeps_execRel (f slot : Nat) {s : State} (h : s.memoryWf = true) : OutWf (execRel f slot s) :=
  keeps_issue _ _ _ _ _ _ _ h fun _ _ i hs hg => keeps_runLock f slot _ _ i hs hg

@[simp] theorem keeps_execFence (f slot : Nat) {s : State} (h : s.memoryWf = true) : OutWf (execFence f slot s) := by
  refine keeps_issue _ _ _ _ _ _ _ h fun s g i hs hg => ?_
  split
  · simp
  · split
    · simp [hs, hg]
    · split <;> simp [hs, hg]

@[simp] theorem memoryWf_dropReq (s : State) (id : Nat) : (s.dropReq id).memoryWf = s.memoryWf := (rfl)

theorem keeps_zeroDest {s : State} (f : Nat) {g : Group} (w : PendWrite) (h : s.memoryWf = true) (hg : groupWf g = true) :
    PairWf (zeroDest s f g w) :=
  pairWf_foldl _ ⟨h, hg⟩ fun _ hp _ _ => pairWf_foldl _ hp fun _ hq _ _ => keeps_writeReg f _ _ _ _ hq.1 hq.2

theorem keeps_finishLoad {s : State} (f : Nat) {g : Group} (kind : ReqKind) (w : PendWrite) (h : s.memoryWf = true)
    (hg : groupWf g = true) : PairWf (finishLoad s f g kind w) := by
  unfold finishLoad
  extract_lets paid noted poison reread hit
  have hnoted : groupWf noted = true := by simp [noted, paid, hg]
  clear_value hit
  split
  · exact ⟨h, hnoted⟩
  · obtain ⟨hz, hk⟩ := keeps_zeroDest f w h hnoted
    exact ⟨hz, hk⟩

@[simp] theorem keeps_returnData {s : State} (r : LineReq) {g : Group} (w : PendWrite) (h : s.memoryWf = true) (hg : groupWf g = true) :
    (s.returnData r g w).memoryWf = true := by
  unfold State.returnData
  extract_lets acc bad words dropped p gathered group paid e
  have hp : PairWf p :=
    pairWf_foldl _ ⟨by simp [dropped, h], hg⟩ fun _ hq x _ => keeps_writeOp _ _ _ _ hq.1 hq.2
  have hpaid : groupWf paid = true := hp.2
  split
  · exact keeps_setGroup _ _ hp.1 hpaid
  · have he : PairWf e := keeps_finishLoad r.f r.kind gathered hp.1 hpaid
    exact keeps_setGroup _ _ he.1 he.2

@[simp] theorem keeps_noteWrite {s : State} (r : LineReq) (h : s.memoryWf = true) : (s.noteWrite r).memoryWf = true := by
  simp [State.noteWrite, h]

theorem keeps_markGate {s t : State} {r : LineReq} (ht : s.markGate r = some t) (h : s.memoryWf = true) : t.memoryWf = true := by
  obtain ⟨i, -, hi⟩ := List.exists_of_findSome?_eq_some ht
  split at hi
  · cases hi
  · exact keeps_agentGate hi h

@[simp] theorem keeps_finishLock {s : State} (f slot : Nat) {g : Group} (k : LockOp) (h : s.memoryWf = true) (hg : groupWf g = true) :
    (s.finishLock f slot g k).memoryWf = true := by
  unfold State.finishLock
  extract_lets freed lowAddr dropped progressed marked e resumed
  have hdropped : dropped.memoryWf = true := by simp [dropped, h]
  have hfreed : groupWf freed = true := hg
  have hresumed : groupWf resumed = true := by simp [resumed, marked, progressed, hfreed]
  clear_value freed dropped resumed
  split
  · exact keeps_setGroup _ _ (by simp [h]) hfreed
  split
  · simp [h, hfreed]
  split
  · simp [h, hfreed]
  split
  · simp [h, hfreed]
  · simp [hdropped, hresumed]

@[simp] theorem keeps_returnLock {s : State} (r : LineReq) {g : Group} (k : LockOp) (h : s.memoryWf = true)
    (hg : groupWf g = true) : (s.returnLock r g k).memoryWf = true := by
  simp [State.returnLock, h, hg]

theorem wf_reqGroup {s : State} {r : LineReq} {g : Group} (hr : s.reqGroup r = some g) (h : s.memoryWf = true) :
    groupWf g = true := by
  unfold State.reqGroup at hr
  split at hr
  · next k hk =>
    split at hr <;> cases hr
    exact wf_group h hk
  · cases hr

@[simp] theorem keeps_returnToGroup {s : State} (r : LineReq) (h : s.memoryWf = true) : (s.returnToGroup r).memoryWf = true := by
  unfold State.returnToGroup
  extract_lets noted
  have hnoted : noted.memoryWf = true := by simp [noted, h]
  clear_value noted
  split
  · exact hnoted
  · next g hr =>
    have hg := wf_reqGroup hr hnoted
    split
    · exact keeps_returnLock r _ hnoted hg
    · exact keeps_returnLock r _ hnoted hg
    · split
      · exact keeps_returnData r _ hnoted hg
      · exact hnoted

@[simp] theorem keeps_ackToGroup {s : State} (r : LineReq) (h : s.memoryWf = true) : (s.ackToGroup r).memoryWf = true := by
  unfold State.ackToGroup
  extract_lets noted
  have hnoted : noted.memoryWf = true := by simp [noted, h]
  clear_value noted
  split
  · exact hnoted
  · next g hr =>
    have hg := wf_reqGroup hr hnoted
    split <;> simp [hnoted, hg]

@[simp] theorem keeps_execHullRequestAccept (req tag way : Nat) {s : State} (h : s.memoryWf = true) :
    OutWf (execHullRequestAccept req tag way s) := by
  simp [execHullRequestAccept, h]

@[simp] theorem keeps_execHullRepresent (req : Nat) {s : State} (h : s.memoryWf = true) : OutWf (execHullRepresent req s) := by
  simp [execHullRepresent, h]

@[simp] theorem keeps_execFillSectorArrival (line sector : Nat) {s : State} (h : s.memoryWf = true) :
    OutWf (execFillSectorArrival line sector s) := by
  simp [execFillSectorArrival, h]

@[simp] theorem keeps_execAgentWrite (addr : Nat) (bytes : List Byte) {s : State} (h : s.memoryWf = true) :
    OutWf (execAgentWrite addr bytes s) := by
  simp [execAgentWrite, h]

@[simp] theorem keeps_execTgPeriodEnd (j : Nat) {s : State} (h : s.memoryWf = true) : OutWf (execTgPeriodEnd j s) := by
  simp [execTgPeriodEnd, h]

@[simp] theorem keeps_execSinkWrite (k pc : Nat) {s : State} (h : s.memoryWf = true) : OutWf (execSinkWrite k pc s) := by
  simp [execSinkWrite, h]

@[simp] theorem keeps_execServiceWindowStart (k pc writes : Nat) {s : State} (h : s.memoryWf = true) :
    OutWf (execServiceWindowStart k pc writes s) := by
  simp [execServiceWindowStart, h]

@[simp] theorem keeps_execDemandRead (k pc : Nat) (noise : Noise) {s : State} (h : s.memoryWf = true) :
    OutWf (execDemandRead k pc noise s) := by
  simp [execDemandRead, h]

@[simp] theorem keeps_execScrubStep (k pc : Nat) (noise : Noise) {s : State} (h : s.memoryWf = true) :
    OutWf (execScrubStep k pc noise s) := by
  simp [execScrubStep, h]

@[simp] theorem keeps_execRefresh (k pc bank : Nat) {s : State} (h : s.memoryWf = true) : OutWf (execRefresh k pc bank s) := by
  simp [execRefresh, h]

@[simp] theorem keeps_execRefreshRateChange (k celsius : Nat) {s : State} (h : s.memoryWf = true) :
    OutWf (execRefreshRateChange k celsius s) := by
  simp [execRefreshRateChange, h]

@[simp] theorem keeps_execRowRemapStart (k pc bank row : Nat) {s : State} (h : s.memoryWf = true) :
    OutWf (execRowRemapStart k pc bank row s) := by
  simp [execRowRemapStart, h]

@[simp] theorem keeps_execRemapCopyDone (k pc : Nat) {s : State} (h : s.memoryWf = true) : OutWf (execRemapCopyDone k pc s) := by
  simp [execRemapCopyDone, h]

@[simp] theorem memoryWf_pinEnd (s : State) (j status failed : Nat) : (s.pinEnd j status failed).memoryWf = s.memoryWf := (rfl)

@[simp] theorem memoryWf_writePinCmd (s : State) (j : Nat) (v : Word) : (writePinCmd s j v).memoryWf = s.memoryWf := by
  simp [writePinCmd]

@[simp] theorem memoryWf_unpinLine (s : State) (j line : Nat) : (s.unpinLine j line).memoryWf = s.memoryWf := by
  simp [State.unpinLine]

theorem keeps_pinLine {s t : State} {j line : Nat} (ht : s.pinLine j line = some t) (h : s.memoryWf = true) :
    t.memoryWf = true := by
  unfold State.pinLine at ht
  split at ht
  · split at ht <;> cases ht
    simp [h]
  · split at ht
    · cases ht
    · split at ht <;> cases ht
      simp [h]

@[simp] theorem keeps_pinLines {s : State} (j : Nat) (l : List Nat) (h : s.memoryWf = true) :
    (s.pinLines j l).1.memoryWf = true := by
  induction l generalizing s with
  | nil => exact h
  | cons line l ih =>
    unfold State.pinLines
    split
    · next t ht => exact ih (keeps_pinLine ht h)
    · exact h

@[simp] theorem keeps_pinLoop {s : State} (c : PinCmd) (rest : List PinCmd) (first : Nat) (h : s.memoryWf = true) :
    (s.pinLoop c rest first).memoryWf = true := by
  unfold State.pinLoop
  extract_lets lines p pinned hull
  have hp : p.1.memoryWf = true := keeps_pinLines _ _ h
  split <;> simp [pinned, hull, hp]

@[simp] theorem keeps_pinCmdRun {s : State} (h : s.memoryWf = true) : (pinCmdRun s).memoryWf = true := by
  unfold pinCmdRun
  split
  · exact h
  · next c rest _ =>
    extract_lets hull taken
    have htaken : taken.memoryWf = true := by simp [taken, hull, h]
    clear_value taken
    split
    · split <;> simp [htaken]
    · split
      · simp [htaken]
      · split
        · simp [htaken]
        · dsimp only
          split
          · simp [htaken]
          · split
            · simp [htaken]
            · split <;> simp [htaken]

@[simp] theorem keeps_execPinCmdRun {s : State} (h : s.memoryWf = true) : OutWf (execPinCmdRun s) := by
  simp [execPinCmdRun, h]

@[simp] theorem memoryWf_writeHullQuota (s : State) (j : Nat) (v : Word) : (writeHullQuota s j v).memoryWf = s.memoryWf := by
  simp [writeHullQuota]

@[simp] theorem memoryWf_writeHullTgCfg (s : State) (j : Nat) (v : Word) : (writeHullTgCfg s j v).memoryWf = s.memoryWf := by
  simp [writeHullTgCfg]

@[simp] theorem memoryWf_writeHbmInject (s : State) (v : Word) : (writeHbmInject s v).memoryWf = s.memoryWf := (rfl)

end Sys2Proof.Laws
end

section
/-! SUPPORT. The Chord and its ingress keep the memories and tables in canonical form. -/

namespace Sys2Proof.Laws

open Sys2Proof Sys2Proof.Machine

@[simp] theorem memoryWf_send (s : State) (m : Msg) : (s.send m).memoryWf = s.memoryWf := (rfl)

@[simp] theorem memoryWf_sendCtrl (s : State) (code pos port : Nat) (pin : Option Nat) :
    (s.sendCtrl code pos port pin).memoryWf = s.memoryWf := (rfl)

@[simp] theorem memoryWf_enterPort (s : State) (p : Nat) (m : Msg) : (s.enterPort p m).memoryWf = s.memoryWf := (rfl)

@[simp] theorem memoryWf_collProgress (s : State) (j g id : Nat) : (s.collProgress j g id).memoryWf = s.memoryWf := (rfl)

@[simp] theorem memoryWf_unsend (s : State) (m : Msg) : (s.unsend m).memoryWf = s.memoryWf := by
  simp [State.unsend]

@[simp] theorem memoryWf_egressAccept (s : State) (i : Nat) : (egressAccept s i).memoryWf = s.memoryWf := by
  unfold egressAccept
  split
  · simp
  split
  · split <;> simp
  split
  · split <;> simp
  · split <;> simp

@[simp] theorem keeps_execEgressAccept (i : Nat) {s : State} (h : s.memoryWf = true) : OutWf (execEgressAccept i s) := by
  simp [execEgressAccept, h]

@[simp] theorem memoryWf_emitFlit (s : State) (p ftype vc seq : Nat) (payload : List Byte) (again : Bool) :
    (s.emitFlit p ftype vc seq payload again).memoryWf = s.memoryWf := (rfl)

@[simp] theorem memoryWf_messageLeft (s : State) (m : TxMsg) : (s.messageLeft m).memoryWf = s.memoryWf := by
  simp [State.messageLeft]

@[simp] theorem memoryWf_flitTransmit (s : State) (p : Nat) : (flitTransmit s p).memoryWf = s.memoryWf := by
  simp only [flitTransmit]
  split
  · simp
  split
  · simp
  split
  · simp
  split
  · split <;> simp
  · split <;> simp

@[simp] theorem memoryWf_protocolError (s : State) : (s.protocolError).memoryWf = s.memoryWf := (rfl)

@[simp] theorem memoryWf_received (s : State) (p hdr vc : Nat) (x : Partial) : (s.received p hdr vc x).memoryWf = s.memoryWf := by
  simp only [State.received]
  split <;> simp

@[simp] theorem memoryWf_storeSegment (s : State) (p vc : Nat) (shared : Bool) (payload : List Byte) :
    (s.storeSegment p vc shared payload).memoryWf = s.memoryWf := by
  simp [State.storeSegment]

@[simp] theorem memoryWf_segment (s : State) (p vc : Nat) (payload : List Byte) :
    (s.segment p vc payload).memoryWf = s.memoryWf := by
  unfold State.segment
  split <;> simp

@[simp] theorem memoryWf_decodeFlit (s : State) (p fec : Nat) : (s.decodeFlit p fec).1.memoryWf = s.memoryWf := by
  simp [State.decodeFlit]

@[simp] theorem keeps_execDataFlit (p : Nat) (bytes : List Byte) (fec : Nat) {s : State} (h : s.memoryWf = true) :
    OutWf (execDataFlit p bytes fec s) := by
  simp only [execDataFlit]
  split
  · simp [h]
  split
  · simp [h]
  split
  · simp [h]
  · split <;> simp [h]

@[simp] theorem keeps_execIdleFlit (p : Nat) (bytes : List Byte) (fec : Nat) {s : State} (h : s.memoryWf = true) :
    OutWf (execIdleFlit p bytes fec s) := by
  simp only [execIdleFlit]
  split
  · simp [h]
  split
  · simp [h]
  · split <;> simp [h]

@[simp] theorem memoryWf_escalateModule (s : State) : (s.escalateModule).memoryWf = s.memoryWf := by
  simp [State.escalateModule]

@[simp] theorem memoryWf_losePort (s : State) (p : Nat) : (s.losePort p).memoryWf = s.memoryWf := by
  simp [State.losePort]

@[simp] theorem memoryWf_faultPort (s : State) (p : Nat) (lane : Option Nat) : (s.faultPort p lane).memoryWf = s.memoryWf := by
  simp only [State.faultPort]
  split
  · simp
  · split <;> simp

@[simp] theorem keeps_execRetryReq (p : Nat) (bytes : List Byte) (fec : Nat) {s : State} (h : s.memoryWf = true) :
    OutWf (execRetryReq p bytes fec s) := by
  simp only [execRetryReq]
  split
  · simp [h]
  split
  · simp [h]
  split
  · simp [h]
  · split <;> simp [h]

@[simp] theorem keeps_execLinkSilenceTimeout (p : Nat) {s : State} (h : s.memoryWf = true) :
    OutWf (execLinkSilenceTimeout p s) := by
  simp [execLinkSilenceTimeout, h]

@[simp] theorem keeps_execLaneSignalLoss (p lane : Nat) {s : State} (h : s.memoryWf = true) :
    OutWf (execLaneSignalLoss p lane s) := by
  unfold execLaneSignalLoss
  split <;> simp [h]

@[simp] theorem memoryWf_retrainPort (s : State) (p : Nat) (reduced hi : Bool) :
    (s.retrainPort p reduced hi).memoryWf = s.memoryWf := (rfl)

@[simp] theorem memoryWf_failoverAction (s : State) (p : Nat) : (s.failoverAction p).memoryWf = s.memoryWf := by
  unfold State.failoverAction
  split <;> simp

@[simp] theorem keeps_execFailoverDecision (p : Nat) {s : State} (h : s.memoryWf = true) : OutWf (execFailoverDecision p s) := by
  simp only [execFailoverDecision]
  split <;> simp [h]

@[simp] theorem memoryWf_beginTraining (s : State) (p : Nat) : (s.beginTraining p).memoryWf = s.memoryWf := (rfl)

@[simp] theorem keeps_execPortTraining (p : Nat) {s : State} (h : s.memoryWf = true) : OutWf (execPortTraining p s) := by
  simp only [execPortTraining]
  split
  · simp [h]
  split
  · simp [h]
  split
  · split <;> simp [h]
  · split <;> simp [h]

@[simp] theorem keeps_execRetrainAttempt (p : Nat) {s : State} (h : s.memoryWf = true) : OutWf (execRetrainAttempt p s) := by
  simp only [execRetrainAttempt]
  split <;> simp [h]

@[simp] theorem keeps_execTrainingComplete (p : Nat) (ok : Bool) (partner : Nat) (grant : List Nat) {s : State}
    (h : s.memoryWf = true) : OutWf (execTrainingComplete p ok partner grant s) := by
  unfold execTrainingComplete
  dsimp only
  split
  · simp [h]
  split
  · split <;> simp [h]
  split
  · simp [h]
  · rw [outWf_next, memoryWf_sendCtrl]
    split
    · exact keeps_foldl _ (by simp [h]) fun s hs n _ => keeps_life _ _ hs
    · simp [h]

@[simp] theorem memoryWf_writePortCmd (s : State) (v : Word) : (writePortCmd s v).memoryWf = s.memoryWf := by
  simp only [writePortCmd]
  split
  · simp
  split
  · simp
  split
  · simp
  · split <;> simp

@[simp] theorem memoryWf_darkPorts (s : State) : (s.darkPorts).memoryWf = s.memoryWf := by
  simp [State.darkPorts]

@[simp] theorem keeps_clearOfHost {s : State} (d n : Nat) (write : Bool) (h : s.memoryWf = true) :
    (s.clearOfHost d n write).1.memoryWf = true := by
  unfold State.clearOfHost
  split
  · next t ht => exact keeps_agentGate ht h
  · exact h

@[simp] theorem keeps_agentWriteWords {s : State} (a : Nat) (l : List Code) (h : s.memoryWf = true) :
    (s.agentWriteWords a l).memoryWf = true := by
  unfold State.agentWriteWords
  split
  · exact keeps_agentWriteCodes a l h
  · exact keeps_foldl _ h fun s hs w _ => keeps_agentPut w hs

@[simp] theorem memoryWf_takeRx (s : State) (p vc : Nat) : (s.takeRx p vc).memoryWf = s.memoryWf := (rfl)

@[simp] theorem memoryWf_misrouted (s : State) (p vc : Nat) : (s.misrouted p vc).memoryWf = s.memoryWf := (rfl)

@[simp] theorem memoryWf_denied (s : State) (j status : Nat) : (s.denied j status).memoryWf = s.memoryWf := by
  simp [State.denied]

@[simp] theorem memoryWf_refuseVc1 (s : State) (p : Nat) (m : Msg) (j kind status : Nat) :
    (s.refuseVc1 p m j kind status).memoryWf = s.memoryWf := by
  simp [State.refuseVc1]

@[simp] theorem keeps_execRdReq (p : Nat) {s : State} (h : s.memoryWf = true) : OutWf (execRdReq p s) := by
  unfold execRdReq
  split
  · exact h
  extract_lets m n
  split
  · exact h
  split
  · simp [h]
  split
  · simp [h]
  split
  · exact h
  extract_lets d
  split
  · next t ht => exact keeps_agentGate ht h
  have hc := keeps_agentCodes d (128 * n) h
  dsimp only
  split
  · exact h
  · split <;> simp [h, hc]

@[simp] theorem keeps_execWrReq (p : Nat) {s : State} (h : s.memoryWf = true) : OutWf (execWrReq p s) := by
  simp only [execWrReq]
  split
  · simp [h]
  split
  · simp [h]
  split
  · simp [h]
  · split <;> simp [h]

@[simp] theorem keeps_execCkpt (p : Nat) {s : State} (h : s.memoryWf = true) : OutWf (execCkpt p s) := by
  simp only [execCkpt]
  split
  · simp [h]
  split
  · simp [h]
  split
  · simp [h]
  · split <;> simp [h]

@[simp] theorem memoryWf_noteCkpt (s : State) (j step off : Nat) (words : List Code) :
    (s.noteCkpt j step off words).memoryWf = s.memoryWf := (rfl)

theorem keeps_ingressWrite {s t : State} {p vc : Nat} (ht : s.ingressWrite p vc = some t) (h : s.memoryWf = true) :
    t.memoryWf = true := by
  unfold State.ingressWrite at ht
  split at ht
  · cases ht
  split at ht
  · cases ht
  split at ht
  · cases ht; simp [h]
  dsimp only at ht
  split at ht
  · cases ht; simp [h]
  split at ht
  · next u hu => cases ht; exact keeps_agentGate hu h
  split at ht
  · cases ht
  · split at ht <;> cases ht <;> simp [h]

@[simp] theorem keeps_execIngressWriteAccept (p : Nat) {s : State} (h : s.memoryWf = true) :
    OutWf (execIngressWriteAccept p s) := by
  unfold execIngressWriteAccept
  split
  · next t ht => exact keeps_ingressWrite ht h
  · exact keeps_getD h fun t ht => keeps_ingressWrite ht h

@[simp] theorem memoryWf_forwardNma (s : State) (n : Nma) : (s.forwardNma n).memoryWf = s.memoryWf := by
  simp only [State.forwardNma]
  split <;> simp

@[simp] theorem keeps_execNmaReq (p : Nat) {s : State} (h : s.memoryWf = true) : OutWf (execNmaReq p s) := by
  unfold execNmaReq
  split
  · exact h
  extract_lets m op type
  split
  · exact h
  split
  · simp [h]
  split
  · simp [h]
  split
  · simp [h]
  split
  · exact h
  extract_lets d
  split
  · next t ht => exact keeps_agentGate ht h
  · split <;> simp [h]

/-- An accumulate writes its sector, after the sink's entry of that sector. -/
@[simp] theorem keeps_applyNma {s : State} (e : Nat) (h : s.memoryWf = true) : (s.applyNma e).memoryWf = true := by
  unfold State.applyNma
  split
  · exact h
  next n rest _ =>
  extract_lets sector taken merged ws r counted hbm added committed dropped noted overlapped
  have hmerged : merged.memoryWf = true := by
    simp only [merged, taken]
    split <;> simp [h]
  have hcounted : counted.memoryWf = true := by simp [counted, hmerged]
  have hadded : added.memoryWf = true := keeps_withHbm hcounted (wf_putSector _ _ (wf_cells hcounted))
  have hcommitted : committed.memoryWf = true := by
    simp only [committed]
    split <;> simp [hadded]
  clear_value committed
  have hoverlapped : overlapped.memoryWf = true := by simp [overlapped, noted, dropped, hcommitted]
  split <;> simp [hoverlapped]

@[simp] theorem keeps_execNmaApply (k pc : Nat) {s : State} (h : s.memoryWf = true) : OutWf (execNmaApply k pc s) := by
  unfold execNmaApply
  dsimp only
  split
  · exact h
  · split <;> simp [h]

@[simp] theorem memoryWf_endRemote (s : State) (r : Remote) (status : Nat) : (s.endRemote r status).memoryWf = s.memoryWf := by
  simp [State.endRemote]

@[simp] theorem keeps_land {s : State} (e : Remote) (h : s.memoryWf = true) : (s.land e).memoryWf = true := by
  unfold State.land
  split
  · exact h
  split
  · simp [h]
  split
  · exact h
  next words _ _ d _ _ =>
  have hc := keeps_clearOfHost d (16 * words.length) true h
  dsimp only
  split
  · exact hc
  · simp [hc]

@[simp] theorem keeps_landAll {s : State} (h : s.memoryWf = true) : s.landAll.memoryWf = true :=
  keeps_foldl _ h fun _ hs e _ => keeps_land e hs

@[simp] theorem keeps_execRdResp (p : Nat) {s : State} (h : s.memoryWf = true) : OutWf (execRdResp p s) := by
  unfold execRdResp
  split
  · simp [h]
  extract_lets m taken status
  split
  · simp [h]
  split
  · simp [h]
  have htaken : taken.memoryWf = true := by simp [taken, h]
  clear_value taken
  split
  · simp [htaken]
  split
  · simp [htaken]
  · split <;> simp [htaken]

@[simp] theorem keeps_execAck (p : Nat) {s : State} (h : s.memoryWf = true) : OutWf (execAck p s) := by
  simp only [execAck]
  split
  · simp [h]
  split
  · simp [h]
  split
  · simp [h]
  · split <;> simp [h]

@[simp] theorem keeps_execRemoteTimeout (j tag : Nat) {s : State} (h : s.memoryWf = true) : OutWf (execRemoteTimeout j tag s) := by
  simp only [execRemoteTimeout]
  split
  · simp [h]
  · split <;> simp [h]

@[simp] theorem memoryWf_takeCtrl (s : State) (p code : Nat) : (s.takeCtrl p code).memoryWf = s.memoryWf := by
  unfold State.takeCtrl
  split <;> simp

@[simp] theorem keeps_execPortDown (p : Nat) {s : State} (h : s.memoryWf = true) : OutWf (execPortDown p s) := by
  simp [execPortDown, h]

@[simp] theorem keeps_execPositionClaim (p : Nat) {s : State} (h : s.memoryWf = true) : OutWf (execPositionClaim p s) := by
  simp [execPositionClaim, h]

@[simp] theorem keeps_execPortUp (p : Nat) {s : State} (h : s.memoryWf = true) : OutWf (execPortUp p s) := by
  simp [execPortUp, h]

@[simp] theorem memoryWf_takePosition (s : State) (j : Nat) (v : Word) : (s.takePosition j v).memoryWf = s.memoryWf := by
  simp [State.takePosition]

@[simp] theorem memoryWf_writeChordFnPos (s : State) (j : Nat) (v : Word) : (writeChordFnPos s j v).memoryWf = s.memoryWf := by
  simp [writeChordFnPos]

end Sys2Proof.Laws
end

section
/-! SUPPORT. Collectives keep the memories and tables in canonical form. -/

namespace Sys2Proof.Laws

open Sys2Proof Sys2Proof.Machine

@[simp] theorem memoryWf_neutral (s : State) (c : Collective) : (s.neutral c).1.memoryWf = s.memoryWf := by
  unfold State.neutral
  split <;> simp

@[simp] theorem memoryWf_updColl (s : State) (j g : Nat) (f : CollGroup → CollGroup) :
    (s.updColl j g f).memoryWf = s.memoryWf := (rfl)

@[simp] theorem memoryWf_setRunning (s : State) (c : Collective) : (s.setRunning c).memoryWf = s.memoryWf := by
  unfold State.setRunning
  split <;> simp

@[simp] theorem keeps_loadColl {s : State} (c : Collective) (h : s.memoryWf = true) : (s.loadColl c).1.memoryWf = true := by
  have hclear := keeps_clearOfHost c.src ((collExtents c.op c.count c.members.length c.rank c.peer).1 * c.size) false h
  unfold State.loadColl
  dsimp only
  split
  · exact hclear
  · refine keeps_foldl_fst _ ?_ fun p hp e _ => ?_
    · have hread := keeps_agentRead c.src ((collExtents c.op c.count c.members.length c.rank c.peer).1 * c.size) hclear
      split <;> simp [hread]
    · split <;> simp [hp]

@[simp] theorem memoryWf_collSend (s : State) (c : Collective) (a : Action) : (s.collSend c a).1.memoryWf = s.memoryWf := by
  simp [State.collSend]

theorem memoryWf_foldl_fst {β : Type} {f : State × β → α → State × β} (l : List α) (p : State × β)
    (hf : ∀ p x, (f p x).1.memoryWf = p.1.memoryWf) : (l.foldl f p).1.memoryWf = p.1.memoryWf := by
  induction l generalizing p with
  | nil => rfl
  | cons x l ih => rw [List.foldl_cons, ih, hf]

theorem memoryWf_collTake {s : State} {c : Collective} {a : Action} {t : State × Collective} (ht : s.collTake c a = some t) :
    t.1.memoryWf = s.memoryWf := by
  unfold State.collTake at ht
  dsimp only at ht
  obtain ⟨-, ht⟩ := Option.ite_none_left_eq_some.1 ht
  rw [← Option.some.inj ht]
  refine (memoryWf_foldl_fst _ _ fun p x => ?_).trans ?_
  · simp only [apply_ite Prod.fst, memoryWf_ite, memoryWf_neutral, ite_self]
  · simp

@[simp] theorem memoryWf_dropUnsent (s : State) (c : Collective) : (s.dropUnsent c).memoryWf = s.memoryWf := (rfl)

@[simp] theorem keeps_writeDigest {s : State} (bytes : List Byte) (h : s.memoryWf = true) :
    (s.writeDigest bytes).memoryWf = true := by
  unfold State.writeDigest
  dsimp only
  split
  · exact h
  split
  · simp [h]
  · rw [memoryWf_setRegF]
    split <;> simp [h]

@[simp] theorem keeps_writeDigests {s : State} (c : Collective) (status : Nat) (h : s.memoryWf = true) :
    (s.writeDigests c status).memoryWf = true :=
  keeps_foldl _ h fun _ hs b _ => keeps_writeDigest b hs

theorem keeps_ringGate {s t : State} {n : Nat} (ht : s.ringGate n = some t) (h : s.memoryWf = true) : t.memoryWf = true := by
  unfold State.ringGate at ht
  dsimp only at ht
  split at ht
  · cases ht
  · obtain ⟨i, -, hi⟩ := List.exists_of_findSome?_eq_some ht
    exact keeps_agentGate hi h

theorem keeps_digestGate {s t : State} {c : Collective} (ht : s.digestGate c = some t) (h : s.memoryWf = true) :
    t.memoryWf = true :=
  keeps_ringGate ht h

@[simp] theorem keeps_flushDigests {s : State} (j n : Nat) (h : s.memoryWf = true) : (s.flushDigests j n).memoryWf = true := by
  induction n generalizing s with
  | zero => exact h
  | succ n ih =>
    unfold State.flushDigests
    split
    · exact h
    · split
      · next t ht => exact keeps_ringGate ht h
      · exact ih (by simp [h])

@[simp] theorem memoryWf_releaseStaging (s : State) (j g id : Nat) : (s.releaseStaging j g id).memoryWf = s.memoryWf := (rfl)

@[simp] theorem memoryWf_dropRunning (s : State) (j g : Nat) : (s.dropRunning j g).memoryWf = s.memoryWf := by
  unfold State.dropRunning
  split <;> simp

@[simp] theorem keeps_endColl {s : State} (c : Collective) (timeout : Bool) (h : s.memoryWf = true) :
    (s.endColl c timeout).memoryWf = true := by
  unfold State.endColl
  extract_lets told x released both
  have htold : told.memoryWf = true := by
    simp only [told]
    split <;> simp [h]
  clear_value told
  split <;> simp [both, released, htold]

@[simp] theorem keeps_storeColl {s : State} (c : Collective) (h : s.memoryWf = true) : (s.storeColl c).1.memoryWf = true := by
  have hclear := fun n => keeps_clearOfHost c.dst n true h
  unfold State.storeColl
  dsimp only
  split <;> simp [hclear]

/-- Each turn of a running collective loads, sends, takes or stores, and goes on with what is left. -/
@[simp] theorem keeps_runColl {s : State} (j g n : Nat) (h : s.memoryWf = true) : (s.runColl j g n).memoryWf = true := by
  induction n generalizing s with
  | zero => exact h
  | succ n ih =>
    unfold State.runColl
    split
    · exact h
    next c _ =>
    split
    · exact h
    split
    · have hl := keeps_loadColl c h
      split
      · next t k e =>
        rw [e] at hl
        exact ih (by simp [hl])
      · next t e =>
        rw [e] at hl
        exact hl
    split
    · split
      · exact ih (by simp [h])
      · split
        · next t k e => exact ih (by simpa using (memoryWf_collTake e).trans h)
        · exact h
    · split
      · exact h
      · split
        · next t e => exact keeps_digestGate e h
        · have hs := keeps_storeColl c h
          dsimp only
          split
          · exact ih (keeps_endColl c false hs)
          · exact hs

@[simp] theorem keeps_pumpColl {s : State} (j g : Nat) (h : s.memoryWf = true) : (s.pumpColl j g).memoryWf = true :=
  keeps_runColl j g _ h

@[simp] theorem keeps_pumpAll {s : State} (h : s.memoryWf = true) : s.pumpAll.memoryWf = true :=
  keeps_foldl _ h fun _ hs _ _ => keeps_pumpColl _ _ hs

@[simp] theorem keeps_execFlitTransmit (p : Nat) {s : State} (h : s.memoryWf = true) : OutWf (execFlitTransmit p s) := by
  simp [execFlitTransmit, h]

theorem keeps_tableGate {s t : State} {j g : Nat} (ht : s.tableGate j g = some t) (h : s.memoryWf = true) : t.memoryWf = true := by
  unfold State.tableGate at ht
  split at ht
  · cases ht
  · exact keeps_agentGate ht h

@[simp] theorem keeps_memberTable {s : State} (j g : Nat) (h : s.memoryWf = true) : (s.memberTable j g).1.memoryWf = true := by
  unfold State.memberTable
  dsimp only
  split
  · exact h
  split
  · exact h
  · split <;> simp [h]

@[simp] theorem keeps_makeColl {s : State} (j g ring seq op alg red : Nat) (bf16 : Bool) (count src dst peer : Nat) (tag : Word)
    (m n r : Nat) (h : s.memoryWf = true) :
    (s.makeColl j g ring seq op alg red bf16 count src dst peer tag m n r).1.memoryWf = true := by
  have ht := keeps_memberTable j g h
  unfold State.makeColl
  dsimp only
  split
  · exact ht
  split
  · exact ht
  · split <;> exact ht

@[simp] theorem keeps_submitColl {s : State} (c : Collective) (h : s.memoryWf = true) : (s.submitColl c).memoryWf = true := by
  unfold State.submitColl
  exact keeps_pumpColl _ _ (by simp [h])

@[simp] theorem keeps_continueLowrank {s : State} (c : Collective) (h : s.memoryWf = true) :
    (s.continueLowrank c).memoryWf = true :=
  keeps_pumpColl _ _ (by simp [h])

theorem outWf_ite {c : Prop} [Decidable c] {a b : Out} (ha : OutWf a) (hb : OutWf b) : OutWf (if c then a else b) := by
  split <;> assumption

@[simp] theorem keeps_execColl (p : Nat) {s : State} (h : s.memoryWf = true) : OutWf (execColl p s) := by
  unfold execColl
  split
  · exact h
  extract_lets m g taken id key
  have htaken : taken.memoryWf = true := by simp [taken, h]
  clear_value taken
  split
  · simp [h]
  extract_lets now staged
  refine outWf_ite htaken (outWf_ite ?_ (outWf_ite ?_ (keeps_pumpColl _ _ ?_))) <;> simp [staged, htaken]

@[simp] theorem keeps_execCollTimeout (j g : Nat) {s : State} (h : s.memoryWf = true) : OutWf (execCollTimeout j g s) := by
  unfold execCollTimeout
  split
  · exact h
  next c _ =>
  extract_lets limit
  split
  · exact h
  split
  · next t ht =>
    split at ht
    · cases ht
    · exact keeps_digestGate ht h
  · exact keeps_pumpColl _ _ (keeps_endColl c true h)

end Sys2Proof.Laws
end

section
/-! SUPPORT. The operand cache and the tile mover keep the memories and tables in canonical form. -/

namespace Sys2Proof.Laws

open Sys2Proof Sys2Proof.Machine

theorem wf_putBits {m : Ram} (l : List (Nat × Nat × Nat)) (h : Memory.wf m = true) : Memory.wf (m.putBits l) = true := by
  refine wf_foldl _ (fun m w hm => ?_) _ _ h
  dsimp only
  split
  · exact wf_setWord _ _ _ hm
  · split
    · exact wf_poison _ hm
    · exact wf_setWord _ _ _ hm

theorem issueWf_ite {c : Prop} [Decidable c] {a b : Issue} (ha : IssueWf a) (hb : IssueWf b) : IssueWf (if c then a else b) := by
  split <;> assumption

theorem keeps_runVector {s : State} (f slot : Nat) (store : Bool) {g : Group} (i : Ins) (h : s.memoryWf = true)
    (hg : groupWf g = true) : IssueWf (runVector f slot store s g i) := by
  unfold runVector
  dsimp only
  refine issueWf_ite trivial (issueWf_ite trivial (issueWf_ite ?_ (issueWf_ite trivial (issueWf_ite trivial
    (issueWf_ite trivial (issueWf_ite trivial ?_))))))
  · simp [h, hg]
  · simp [h, hg]

@[simp] theorem keeps_execOld (f slot : Nat) {s : State} (h : s.memoryWf = true) : OutWf (execOld f slot s) :=
  keeps_issue _ _ _ _ _ _ _ h fun _ _ i hs hg => keeps_runVector f slot false i hs hg

@[simp] theorem keeps_execOst (f slot : Nat) {s : State} (h : s.memoryWf = true) : OutWf (execOst f slot s) :=
  keeps_issue _ _ _ _ _ _ _ h fun _ _ i hs hg => keeps_runVector f slot true i hs hg

theorem keeps_serveOld {s : State} (f : Nat) (o : PortOp) {g : Group} (h : s.memoryWf = true) (hg : groupWf g = true) :
    (s.serveOld f o g).memoryWf = true := by
  unfold State.serveOld
  extract_lets m res bad words s' trap r p was g' first d g''
  have hs' : s'.memoryWf = true := by simp [s', h]
  have hp : PairWf p := pairWf_foldl _ ⟨hs', hg⟩ fun q hq x _ => keeps_writeOp f r x.1 _ hq.1 hq.2
  have hg'' : groupWf g'' = true := by
    clear_value p
    simp only [g'', g', was]
    split <;> simp [hp.2]
  exact keeps_setGroup f o.slot hp.1 hg''

@[simp] theorem keeps_execVectorPortServe (f : Nat) {s : State} (h : s.memoryWf = true) : OutWf (execVectorPortServe f s) := by
  unfold execVectorPortServe
  rw [outWf_next]
  split
  · exact h
  next o rest _ =>
  split
  · exact h
  extract_lets served
  have hserved : served.memoryWf = true := by simp [served, h, Facet.unage]
  clear_value served
  split
  · exact hserved
  split
  · exact keeps_updBlock f o.block hserved fun x hx => wf_putBits _ hx
  split
  · next g hgr => exact keeps_serveOld f o hserved (wf_group hserved hgr)
  · exact hserved

theorem keeps_runTransfer {s : State} (f slot : Nat) (store : Bool) {g : Group} (i : Ins) (h : s.memoryWf = true)
    (hg : groupWf g = true) : IssueWf (runTransfer f slot store s g i) := by
  unfold runTransfer
  dsimp only
  refine issueWf_ite trivial (issueWf_ite ?_ (issueWf_ite trivial (issueWf_ite trivial (issueWf_ite trivial
    (issueWf_ite trivial ?_))))) <;> simp [h, hg]

@[simp] theorem keeps_execTmLd (f slot : Nat) {s : State} (h : s.memoryWf = true) : OutWf (execTmLd f slot s) :=
  keeps_issue _ _ _ _ _ _ _ h fun _ _ i hs hg => keeps_runTransfer f slot false i hs hg

@[simp] theorem keeps_execTmSt (f slot : Nat) {s : State} (h : s.memoryWf = true) : OutWf (execTmSt f slot s) :=
  keeps_issue _ _ _ _ _ _ _ h fun _ _ i hs hg => keeps_runTransfer f slot true i hs hg

@[simp] theorem keeps_execTmWait (f slot : Nat) {s : State} (h : s.memoryWf = true) : OutWf (execTmWait f slot s) := by
  refine keeps_issue _ _ _ _ _ _ _ h fun s g i hs hg => ?_
  refine issueWf_ite trivial (issueWf_ite ?_ (issueWf_ite trivial ?_)) <;> simp [hs, hg]

@[simp] theorem memoryWf_updTransfer (s : State) (f id : Nat) (h : Transfer → Transfer) :
    (s.updTransfer f id h).memoryWf = s.memoryWf := by
  simp [State.updTransfer]

theorem wf_writeGranule (t : Transfer) {m : Ram} (n : Nat) (h : Memory.wf m = true) : Memory.wf (t.writeGranule m n) = true :=
  wf_foldl _ (fun _ _ hm => wf_poison _ hm) _ _ (wf_putBits _ h)

@[simp] theorem keeps_advanceTransfer {s : State} (f id : Nat) (h : s.memoryWf = true) :
    (s.advanceTransfer f id).memoryWf = true := by
  unfold State.advanceTransfer
  split
  · exact h
  next t _ =>
  extract_lets new s' t' finished
  have hs' : s'.memoryWf = true :=
    keeps_updBlock f t.block h fun x hx => wf_foldl _ (fun _ n hm => wf_writeGranule t n hm) _ _ hx
  clear_value s'
  split <;> simp [hs', Facet.unage]

@[simp] theorem keeps_execTmLineRequest (f : Nat) {s : State} (h : s.memoryWf = true) : OutWf (execTmLineRequest f s) := by
  unfold execTmLineRequest
  rw [outWf_next]
  split
  · exact h
  next t _ =>
  split
  · exact h
  split
  · exact keeps_advanceTransfer f t.id h
  · dsimp only
    split
    · exact h
    · simp [h]

@[simp] theorem keeps_returnTile {s : State} (r : LineReq) (h : s.memoryWf = true) : (s.returnTile r).memoryWf = true :=
  keeps_advanceTransfer _ _ (by simp [h])

@[simp] theorem keeps_ackTile {s : State} (r : LineReq) (h : s.memoryWf = true) : (s.ackTile r).memoryWf = true :=
  keeps_advanceTransfer _ _ (by simp [h])

@[simp] theorem keeps_execLineDataReturn (req : Nat) {s : State} (h : s.memoryWf = true) : OutWf (execLineDataReturn req s) := by
  unfold execLineDataReturn
  rw [outWf_next]
  split
  · exact h
  next r _ =>
  split
  · exact h
  split
  · next t hm => exact keeps_markGate hm h
  · exact h
  · exact h
  · exact h
  · exact keeps_returnTile r h
  · exact keeps_returnToGroup r h

@[simp] theorem keeps_execStoreAck (req : Nat) {s : State} (h : s.memoryWf = true) : OutWf (execStoreAck req s) := by
  unfold execStoreAck
  rw [outWf_next]
  split
  · exact h
  next r _ =>
  split
  · exact h
  split
  · next t hm => exact keeps_markGate hm h
  · exact keeps_ackToGroup r h
  · exact keeps_ackToGroup r h
  · exact keeps_ackTile r h
  · exact h

end Sys2Proof.Laws
end

section
/-! SUPPORT. Control, barriers and the dispatch of blocks keep the memories and tables in canonical form. -/

namespace Sys2Proof.Laws

open Sys2Proof Sys2Proof.Machine

@[simp] theorem keeps_execBra (f slot : Nat) {s : State} (h : s.memoryWf = true) : OutWf (execBra f slot s) := by
  refine keeps_issue _ _ _ _ _ _ _ h fun s g i hs hg => ?_
  dsimp only
  refine issueWf_ite trivial (issueWf_ite trivial (issueWf_ite ?_ (issueWf_ite ?_ (issueWf_ite trivial ?_)))) <;> simp [hs, hg]

@[simp] theorem keeps_execExit (f slot : Nat) {s : State} (h : s.memoryWf = true) : OutWf (execExit f slot s) := by
  refine keeps_settleBarriers f slot s (keeps_issue _ _ _ _ _ _ _ h fun s g i hs hg => ?_)
  refine issueWf_ite trivial ?_
  simp [hs, hg]

@[simp] theorem keeps_execGroupSlotRelease (f slot : Nat) {s : State} (h : s.memoryWf = true) :
    OutWf (execGroupSlotRelease f slot s) := by
  unfold execGroupSlotRelease
  rw [outWf_next]
  split
  · exact h
  · split <;> simp [h]

theorem opc_arrive {blk : Block} {n m gidx : Nat} {redb : Option (Nat × Nat × Nat)} {entry : List Word × List Word}
    {dest : Option (Bool × Nat)} {use : Nat} {b : Block} (hb : arrive blk n m gidx redb entry dest use = some b) :
    b.opc = blk.opc := by
  unfold arrive at hb
  dsimp only at hb
  split at hb
  · obtain ⟨-, hb⟩ := Option.ite_none_left_eq_some.1 hb
    rw [← Option.some.inj hb]
  · obtain ⟨-, hb⟩ := Option.ite_none_left_eq_some.1 hb
    rw [← Option.some.inj hb]

/-- An arrival replaces the block by one with the same OPC. -/
theorem keeps_arrived {s : State} {f b : Nat} {x y : Block} (hx : s.block? f b = some x) (hy : y.opc = x.opc)
    (h : s.memoryWf = true) : (s.updBlock f b (fun _ => y)).memoryWf = true := by
  have hw : Memory.wf y.opc = true := by rw [hy]; exact wf_block h hx
  exact keeps_updBlock f b h fun _ _ => hw

theorem keeps_runJoin {s : State} (f slot : Nat) (waits : Bool) {g : Group} (i : Ins) (h : s.memoryWf = true)
    (hg : groupWf g = true) : IssueWf (runJoin f slot waits s g i) := by
  unfold runJoin
  refine issueWf_ite trivial ?_
  split
  · simp [h, hg]
  refine issueWf_ite trivial (issueWf_ite trivial ?_)
  split
  · trivial
  next b hb =>
  split
  · trivial
  · next c hc =>
    have hs := keeps_arrived hb (opc_arrive hc) h
    split <;> simp [hs, hg]

@[simp] theorem keeps_issueJoin {s : State} (f slot op : Nat) (waits : Bool) (h : s.memoryWf = true) :
    (issueJoin s f slot op waits).memoryWf = true :=
  keeps_settleBarriers f slot s (keeps_issue _ _ _ _ _ _ _ h fun _ _ i hs hg => keeps_runJoin f slot waits i hs hg)

@[simp] theorem keeps_execJoinWait (f slot : Nat) {s : State} (h : s.memoryWf = true) : OutWf (execJoinWait f slot s) :=
  keeps_issueJoin f slot _ _ h

@[simp] theorem keeps_execJoinPass (f slot : Nat) {s : State} (h : s.memoryWf = true) : OutWf (execJoinPass f slot s) :=
  keeps_issueJoin f slot _ _ h

@[simp] theorem keeps_execTrap (f slot : Nat) {s : State} (h : s.memoryWf = true) : OutWf (execTrap f slot s) := by
  refine keeps_issue _ _ _ _ _ _ _ h fun s g i hs hg => ?_
  refine issueWf_ite trivial (issueWf_ite ?_ trivial)
  simp [hs, hg]

theorem keeps_runFret {s : State} (f mode : Nat) {g : Group} (i : Ins) (h : s.memoryWf = true) (hg : groupWf g = true) :
    IssueWf (runFret f mode s g i) := by
  unfold runFret
  split
  · trivial
  next k _ =>
  have hleave := fun pc => (groupWf_leaveHandler g k pc).trans hg
  refine issueWf_ite trivial (issueWf_ite ?_ (issueWf_ite ?_ (issueWf_ite ?_ ?_)))
  · simp [h, hg]
  · simp [h, hleave]
  · split <;> simp [h, hleave]
  · simp [h, hleave]

@[simp] theorem keeps_issueFret {s : State} (f slot mode : Nat) (h : s.memoryWf = true) :
    (issueFret s f slot mode).memoryWf = true := by
  unfold issueFret
  dsimp only
  split
  · simp [h]
  · exact keeps_issue _ _ _ _ _ _ _ h fun _ _ i hs hg => keeps_runFret f mode i hs hg

@[simp] theorem keeps_execFretRetry (f slot : Nat) {s : State} (h : s.memoryWf = true) : OutWf (execFretRetry f slot s) :=
  keeps_issueFret f slot _ h

@[simp] theorem keeps_execFretSkip (f slot : Nat) {s : State} (h : s.memoryWf = true) : OutWf (execFretSkip f slot s) :=
  keeps_issueFret f slot _ h

@[simp] theorem keeps_execFretAbort (f slot : Nat) {s : State} (h : s.memoryWf = true) : OutWf (execFretAbort f slot s) := by
  unfold execFretAbort
  have hissue := fun accept => keeps_issue f slot accept (fun _ => ([], [])) (fun _ => ([], [])) false (run := runFret f 0) (fun _ _ _ => []) h
    fun _ _ i hs hg => keeps_runFret f 0 i hs hg
  dsimp only
  rw [outWf_next]
  split
  · exact h
  split
  · split
    · simp [h]
    · exact hissue _
  · exact hissue _

@[simp] theorem keeps_execNop (f slot : Nat) {s : State} (h : s.memoryWf = true) : OutWf (execNop f slot s) := by
  refine keeps_issue _ _ _ _ _ _ _ h fun s g i hs hg => ?_
  refine issueWf_ite trivial ?_
  simp [hs, hg]

@[simp] theorem keeps_execUnassignedOpcode (f slot : Nat) {s : State} (h : s.memoryWf = true) :
    OutWf (execUnassignedOpcode f slot s) :=
  keeps_issue _ _ _ _ _ _ _ h fun _ _ _ _ _ => trivial

@[simp] theorem keeps_execFetchPastRange (f slot : Nat) {s : State} (h : s.memoryWf = true) :
    OutWf (execFetchPastRange f slot s) := by
  unfold execFetchPastRange
  rw [outWf_next]
  split
  · exact h
  next g hgr =>
  split
  · simp [h, wf_group h hgr]
  · exact h

@[simp] theorem keeps_execProgressStall (f slot : Nat) {s : State} (h : s.memoryWf = true) :
    OutWf (execProgressStall f slot s) := by
  unfold execProgressStall
  rw [outWf_next]
  split
  · exact h
  next g hgr =>
  have hg := wf_group h hgr
  extract_lets atBarrier
  clear_value atBarrier
  split
  · exact h
  split <;> simp [h, hg]

theorem keeps_seedLanes {s : State} (l : Launch) (block gidx : Nat) (h : s.memoryWf = true) :
    (s.seedLanes l block gidx).1.memoryWf = true ∧ tableWf 32 (s.seedLanes l block gidx).2 = true := by
  refine List.foldlRecOn (motive := fun p : State × Cells 32 => p.1.memoryWf = true ∧ tableWf 32 p.2 = true)
    _ _ ⟨h, rfl⟩ fun p hp lane _ => ?_
  obtain ⟨hs, ht⟩ := hp
  split
  · exact ⟨hs, tableWf_tset _ _ ht⟩
  · exact ⟨by simp [hs], tableWf_tset _ _ ht⟩

@[simp] theorem keeps_placeGroup {s : State} (f : Nat) (l : Launch) (slotB block gidx : Nat) (h : s.memoryWf = true) :
    (s.placeGroup f l slotB block gidx).memoryWf = true := by
  obtain ⟨hs, ht⟩ := keeps_seedLanes l block gidx h
  refine keeps_setGroup f _ hs ?_
  rw [groupWf_iff]
  exact ⟨rfl, rfl, ht⟩

@[simp] theorem keeps_dispatchOn {s : State} (l : Launch) (f : Nat) (h : s.memoryWf = true) :
    (s.dispatchOn l f).memoryWf = true := by
  unfold State.dispatchOn
  extract_lets slotB b placed started
  have hplaced : placed.memoryWf = true := by
    refine keeps_updFacet h ?_
    rw [tablesWf_iff]
    exact ⟨wf_code h f, blocksWf_aput slotB (wf_blocks h f) rfl, wf_groups h f⟩
  rw [memoryWf_updLaunch]
  exact keeps_foldl _ hplaced fun t ht k _ => keeps_placeGroup f l slotB l.next k ht

@[simp] theorem keeps_withReserved {s : State} (l : Launch) (h : s.memoryWf = true) : (s.withReserved l).memoryWf = true := by
  refine keeps_foldl _ h fun t ht k _ => ?_
  split
  · exact keeps_dispatchOn k _ ht
  · exact ht

@[simp] theorem keeps_execBlockDispatch (launch : Nat) {s : State} (h : s.memoryWf = true) :
    OutWf (execBlockDispatch launch s) := by
  unfold execBlockDispatch
  rw [outWf_next]
  split
  · exact h
  split
  · exact h
  split
  · exact h
  · exact keeps_dispatchOn _ _ h

end Sys2Proof.Laws
end

section
/-! SUPPORT. The Gnomon store keeps the memories and tables in canonical form. -/

namespace Sys2Proof.Laws

open Sys2Proof Sys2Proof.Machine

@[simp] theorem memoryWf_journal (s : State) (type fn gen : Nat) (fields : List (Nat × Nat × Nat)) :
    (s.journal type fn gen fields).memoryWf = s.memoryWf := (rfl)

@[simp] theorem memoryWf_discard (s : State) (gen reason : Nat) : (s.discard gen reason).memoryWf = s.memoryWf := by
  unfold State.discard
  split <;> simp

@[simp] theorem memoryWf_endGeneration (s : State) (gen reason : Nat) : (s.endGeneration gen reason).memoryWf = s.memoryWf := by
  simp [State.endGeneration]

@[simp] theorem memoryWf_trim (s : State) (fn : Nat) : (s.trim fn).memoryWf = s.memoryWf := by
  unfold State.trim
  rw [memoryWf_foldl]
  exact fun s g => memoryWf_discard s g.gen 0

@[simp] theorem memoryWf_makeRoom (s : State) (fn need n : Nat) : (s.makeRoom fn need n).memoryWf = s.memoryWf := by
  induction n generalizing s with
  | zero => rfl
  | succ n ih =>
    unfold State.makeRoom
    split
    · rfl
    split
    · rfl
    · rw [ih, memoryWf_discard]

@[simp] theorem memoryWf_openGeneration (s : State) (fn step buf len : Nat) :
    (s.openGeneration fn step buf len).1.memoryWf = s.memoryWf := by
  unfold State.openGeneration
  dsimp only
  rw [memoryWf_updStore _ _ (by simp), memoryWf_foldl _ (fun s x => memoryWf_journal s _ _ _ _), memoryWf_journal, memoryWf_makeRoom]

@[simp] theorem memoryWf_fillGeneration (s : State) (gen : Nat) (codes : List Code) :
    (s.fillGeneration gen codes).memoryWf = s.memoryWf := (rfl)

@[simp] theorem memoryWf_endStoreLeg (s : State) (gen outcome : Nat) : (s.endStoreLeg gen outcome).memoryWf = s.memoryWf := (rfl)

@[simp] theorem memoryWf_failBlock (s : State) (die plane b : Nat) : (s.failBlock die plane b).1.memoryWf = s.memoryWf := by
  simp only [State.failBlock]
  split <;> simp

@[simp] theorem memoryWf_rate (s : State) : (s.rate).memoryWf = s.memoryWf := by
  simp [State.rate]

@[simp] theorem memoryWf_updGen (s : State) (gen : Nat) (f : Generation → Generation) :
    (s.updGen gen f).memoryWf = s.memoryWf := (rfl)

@[simp] theorem memoryWf_commit (s : State) (g : Generation) : (s.commit g).memoryWf = s.memoryWf := (rfl)

@[simp] theorem memoryWf_inCopyA (s : State) (r : JournalRec) : (s.inCopyA r).memoryWf = s.memoryWf := by
  unfold State.inCopyA
  split <;> simp

@[simp] theorem memoryWf_inCopyB (s : State) (r : JournalRec) : (s.inCopyB r).memoryWf = s.memoryWf := by
  have hs : (s.updStore (fun x => { x.append true r with queue := x.queue.drop 1, inB := false })).memoryWf = s.memoryWf :=
    memoryWf_updStore _ _ (by simp)
  unfold State.inCopyB
  dsimp only
  split
  · rw [memoryWf_trim, memoryWf_endStoreLeg, memoryWf_updGen, hs]
  · exact hs

@[simp] theorem memoryWf_recordPage (s : State) (r : JournalRec) (pass : Bool) : (s.recordPage r pass).memoryWf = s.memoryWf := by
  unfold State.recordPage
  dsimp only
  split
  · exact memoryWf_failBlock _ _ _ _
  split
  · exact memoryWf_inCopyB s r
  · exact memoryWf_inCopyA s r

@[simp] theorem memoryWf_flushJournal (s : State) (n : Nat) : (s.flushJournal n).memoryWf = s.memoryWf := by
  induction n generalizing s with
  | zero => rfl
  | succ n ih =>
    unfold State.flushJournal
    split
    · rfl
    · rw [ih, memoryWf_recordPage]

@[simp] theorem memoryWf_settlePages (s : State) (g : Generation) : (s.settlePages g).memoryWf = s.memoryWf := by
  simp [State.settlePages]

@[simp] theorem memoryWf_finishPages (s : State) : (s.finishPages).memoryWf = s.memoryWf := (rfl)

@[simp] theorem memoryWf_pauseStore (s : State) : (s.pauseStore).memoryWf = s.memoryWf := by
  simp [State.pauseStore]

@[simp] theorem memoryWf_storeGo (s : State) : (s.storeGo).memoryWf = s.memoryWf := by
  simp [State.storeGo]

@[simp] theorem memoryWf_unpauseStore (s : State) : (s.unpauseStore).memoryWf = s.memoryWf := by
  simp [State.unpauseStore]

@[simp] theorem memoryWf_dataPage (s : State) (g : Generation) (pass : Bool) : (s.dataPage g pass).memoryWf = s.memoryWf := by
  simp [State.dataPage]

@[simp] theorem keeps_execPageProgramDone (j : Nat) (pass : Bool) {s : State} (h : s.memoryWf = true) :
    OutWf (execPageProgramDone j pass s) := by
  unfold execPageProgramDone
  dsimp only
  split
  · exact h
  split
  · simp [h]
  split <;> simp [h]

@[simp] theorem storeTables_ite (c : Prop) [Decidable c] (x y : Store) :
    storeTables (if c then x else y) = if c then storeTables x else storeTables y := by
  split <;> rfl

@[simp] theorem memoryWf_relocateSystem (s : State) (b : Nat) : (s.relocateSystem b).memoryWf = s.memoryWf := by
  unfold State.relocateSystem
  dsimp only
  rw [memoryWf_count]
  refine memoryWf_updStore _ _ ?_
  simp only [storeTables_mk, storeTables_ite, storeTables_compact, ite_self]

@[simp] theorem memoryWf_relocateStripe (s : State) (b : Nat) : (s.relocateStripe b).memoryWf = s.memoryWf := by
  unfold State.relocateStripe
  split
  · simp
  · split <;> simp

@[simp] theorem memoryWf_relocateDue (s : State) : s.relocateDue.memoryWf = s.memoryWf := by
  unfold State.relocateDue
  split
  · rfl
  · exact memoryWf_foldl _ (fun s b => by split <;> simp) _ s

@[simp] theorem memoryWf_wantRelocate (s : State) (b : Nat) : (s.wantRelocate b).memoryWf = s.memoryWf := by
  simp [State.wantRelocate]

@[simp] theorem memoryWf_startScrub (s : State) : s.startScrub.memoryWf = s.memoryWf := by
  unfold State.startScrub
  dsimp only
  rw [memoryWf_relocateDue, memoryWf_foldl _ (fun s b => memoryWf_wantRelocate s b), memoryWf_updStore _ _ (by simp)]

@[simp] theorem keeps_execStoreScrubPass {s : State} (h : s.memoryWf = true) : OutWf (execStoreScrubPass s) := by
  unfold execStoreScrubPass
  split
  · exact h
  · dsimp only
    rw [outWf_next]
    split <;> simp [h]

theorem keeps_updStore {s : State} {f : Store → Store} (h : s.memoryWf = true) (ha : (f s.store).areaA.life = s.store.areaA.life)
    (hb : (f s.store).areaB.life = s.store.areaB.life) (he : tableWf 16 (f s.store).erases = true)
    (hr : tableWf 32 (f s.store).reads = true) : (s.updStore f).memoryWf = true := by
  obtain ⟨hcells, hdata, hlive, hA, hB, -, -, hfacets⟩ := (memoryWf_iff s).1 h
  rw [memoryWf_iff]
  exact ⟨hcells, hdata, hlive, ha ▸ hA, hb ▸ hB, he, hr, hfacets⟩

@[simp] theorem keeps_execBlockEraseDone (die plane block : Nat) (pass : Bool) {s : State} (h : s.memoryWf = true) :
    OutWf (execBlockEraseDone die plane block pass s) := by
  unfold execBlockEraseDone
  split
  · exact h
  extract_lets k erased
  have herased : erased.memoryWf = true := by simp [erased, h]
  clear_value erased
  split
  · simp only [outWf_next, memoryWf_rate]
    exact keeps_updStore herased rfl rfl (tableWf_tset _ _ (wf_erases herased)) (tableWf_tset _ _ (wf_reads herased))
  · simp [herased]

@[simp] theorem keeps_restorePage {s : State} (r : Restore) (g : Generation) (bad : List Nat) (h : s.memoryWf = true) :
    (s.restorePage r g bad).memoryWf = true := by
  unfold State.restorePage
  dsimp only
  split
  · next t ht =>
    obtain ⟨e, -, he⟩ := List.exists_of_findSome?_eq_some ht
    obtain ⟨d, -, hd⟩ := Option.bind_eq_some_iff.1 he
    exact keeps_agentGate hd h
  · rw [memoryWf_setRegF, memoryWf_updStore _ _ (by simp)]
    refine keeps_foldl _ h fun t ht e _ => ?_
    split
    · exact keeps_agentWriteCodes _ _ ht
    · exact ht

@[simp] theorem keeps_execPageReadDone (die plane block page retries correctedBits : Nat) (bad : List Nat) {s : State}
    (h : s.memoryWf = true) : OutWf (execPageReadDone die plane block page retries correctedBits bad s) := by
  unfold execPageReadDone
  split
  · exact h
  extract_lets k reads bad' read counted limit b worn scrub scrubbed moved restored
  have hread : read.memoryWf = true := keeps_updStore h rfl rfl (wf_erases h) (tableWf_tset _ _ (wf_reads h))
  have hmoved : moved.memoryWf = true := by
    simp only [moved, scrubbed, worn, counted, memoryWf_ite, memoryWf_wantRelocate, ite_self, memoryWf_count, hread,
      memoryWf_updStore, storeTables_scrubRead]
  clear_value moved
  rw [outWf_next, memoryWf_relocateDue]
  simp only [restored]
  split
  · exact hmoved
  split
  · exact hmoved
  · split
    · exact keeps_restorePage _ _ _ hmoved
    · exact hmoved

@[simp] theorem memoryWf_writeGnGenSel (s : State) (v : Word) : (writeGnGenSel s v).memoryWf = s.memoryWf := by
  simp only [writeGnGenSel]
  split <;> simp

@[simp] theorem memoryWf_restoreResult (s : State) (x : Nat) : (s.restoreResult x).memoryWf = s.memoryWf := (rfl)

@[simp] theorem memoryWf_startRestore (s : State) (buf : Nat) : (startRestore s buf).memoryWf = s.memoryWf := by
  simp only [startRestore]
  split <;> simp

@[simp] theorem memoryWf_cancelRestore (s : State) : (cancelRestore s).memoryWf = s.memoryWf := by
  simp [cancelRestore]

@[simp] theorem memoryWf_writeGnRestore (s : State) (v : Word) : (writeGnRestore s v).memoryWf = s.memoryWf := by
  unfold writeGnRestore
  split <;> simp

@[simp] theorem keeps_execRestoreComplete {s : State} (h : s.memoryWf = true) : OutWf (execRestoreComplete s) := by
  unfold execRestoreComplete
  split
  · exact h
  split
  · exact h
  split
  · exact h
  · simp [h]

@[simp] theorem memoryWf_journalRebuild (s : State) : s.journalRebuild.memoryWf = s.memoryWf := by
  unfold State.journalRebuild
  dsimp only
  rw [memoryWf_flushJournal, memoryWf_foldl, memoryWf_foldl, memoryWf_updStore _ _ (by simp)]
  · exact fun s g => memoryWf_discard s g.gen 1
  · exact fun s j => memoryWf_trim s j

@[simp] theorem memoryWf_storeResume (s : State) : (s.storeResume).memoryWf = s.memoryWf := by
  simp [State.storeResume]

@[simp] theorem memoryWf_restoreReset (s : State) : (s.restoreReset).memoryWf = s.memoryWf := by
  simp [State.restoreReset]

end Sys2Proof.Laws
end

section
/-! SUPPORT. Drains keep the memories and tables in canonical form. -/

namespace Sys2Proof.Laws

open Sys2Proof Sys2Proof.Machine

@[simp] theorem memoryWf_updDrain (s : State) (j : Nat) (f : Drain → Drain) : (s.updDrain j f).memoryWf = s.memoryWf := (rfl)

theorem keeps_mapGate {s t : State} {j : Nat} (ht : s.mapGate j = some t) (h : s.memoryWf = true) : t.memoryWf = true := by
  unfold State.mapGate at ht
  obtain ⟨-, ht⟩ := Option.ite_none_left_eq_some.1 ht
  obtain ⟨d, -, hd⟩ := Option.bind_eq_some_iff.1 ht
  exact keeps_agentGate hd h

@[simp] theorem memoryWf_addStoreLeg (s : State) (j : Nat) : (s.addStoreLeg j).memoryWf = s.memoryWf := by
  unfold State.addStoreLeg
  split
  · rfl
  · dsimp only
    rw [memoryWf_setRegF, memoryWf_updFn, memoryWf_updDrain, memoryWf_openGeneration]

@[simp] theorem memoryWf_scheduleStore (s : State) (j : Nat) (add : Bool) : (s.scheduleStore j add).memoryWf = s.memoryWf := by
  unfold State.scheduleStore
  split
  · rfl
  · dsimp only
    rw [memoryWf_ite, memoryWf_addStoreLeg, memoryWf_updDrain, ite_self]

@[simp] theorem memoryWf_startDrain (s : State) (j ring seq buf legs step : Nat) :
    (s.startDrain j ring seq buf legs step).memoryWf = s.memoryWf := by
  unfold State.startDrain
  extract_lets w buddy marks d added st started counted every
  have hstarted : started.memoryWf = s.memoryWf := by simp [started, added]
  have hcounted : counted.memoryWf = s.memoryWf := by simp [counted, hstarted]
  clear_value started counted
  split
  · rw [memoryWf_addStoreLeg, hstarted]
  split
  · exact hcounted
  · dsimp only
    rw [memoryWf_ite, memoryWf_scheduleStore, memoryWf_updDrain, memoryWf_decisionPoint, ite_self, hcounted]

@[simp] theorem memoryWf_sendCkpt (s : State) (d : Drain) (offset : Nat) (codes : List Code) :
    (s.sendCkpt d offset codes).memoryWf = s.memoryWf := by
  unfold State.sendCkpt
  split <;> simp

@[simp] theorem memoryWf_finishBuddy (s : State) (j : Nat) : (s.finishBuddy j).memoryWf = s.memoryWf := by
  unfold State.finishBuddy
  split <;> simp

@[simp] theorem keeps_clearMark {s : State} (j i : Nat) (h : s.memoryWf = true) : (s.clearMark j i).memoryWf = true := by
  unfold State.clearMark
  split
  · exact h
  · exact keeps_agentWrite _ _ h

@[simp] theorem keeps_drainRead {s : State} (d : Drain) (a n : Nat) (mark : Option Nat) (h : s.memoryWf = true) :
    (s.drainRead d a n mark).memoryWf = true := by
  have hread : (s.agentCodes a n).1.memoryWf = true := by simp [h]
  unfold State.drainRead
  dsimp only
  split
  · simp [hread]
  · simp [hread]

@[simp] theorem keeps_execAgentRead (addr len : Nat) {s : State} (h : s.memoryWf = true) : OutWf (execAgentRead addr len s) := by
  unfold execAgentRead
  dsimp only
  split
  · split
    · next t ht => exact keeps_agentGate ht h
    · split
      · next t ht =>
        obtain ⟨a, -, ha⟩ := Option.bind_eq_some_iff.1 ht
        exact keeps_agentGate ha h
      · exact keeps_drainRead _ _ _ _ h
  · exact keeps_agentReadRow addr len h

@[simp] theorem memoryWf_writeDrainCtrl (s : State) (j : Nat) (v : Word) : (writeDrainCtrl s j v).memoryWf = s.memoryWf := by
  unfold writeDrainCtrl
  split <;> simp

@[simp] theorem keeps_execDrainComplete (j : Nat) {s : State} (h : s.memoryWf = true) : OutWf (execDrainComplete j s) := by
  simp only [execDrainComplete]
  split
  · simp [h]
  · split <;> simp [h]

@[simp] theorem memoryWf_dropDrain (s : State) (j : Nat) (tenant : Bool) : (s.dropDrain j tenant).memoryWf = s.memoryWf := by
  unfold State.dropDrain
  split <;> simp

end Sys2Proof.Laws
end

section
/-! SUPPORT. The Locus path keeps the memories and tables in canonical form. -/

namespace Sys2Proof.Laws

open Sys2Proof Sys2Proof.Machine

@[simp] theorem memoryWf_servedRing (s : State) (j r : Nat) : (s.servedRing j r).memoryWf = s.memoryWf := (rfl)

@[simp] theorem memoryWf_takeHead (s : State) (j r : Nat) : (s.takeHead j r).memoryWf = s.memoryWf := (rfl)

@[simp] theorem memoryWf_refuse (s : State) (j r : Nat) (b : List Byte) (status : Nat) :
    (s.refuse j r b status).memoryWf = s.memoryWf := by
  simp [State.refuse]

@[simp] theorem memoryWf_acceptHead (s : State) (j r : Nat) (b : List Byte) : (s.acceptHead j r b).memoryWf = s.memoryWf := (rfl)

theorem keeps_takeUp {s : State} (j r : Nat) (mine : List Byte → Bool) {go : State → List Byte → State} (h : s.memoryWf = true)
    (hgo : ∀ t b, t.memoryWf = true → (go t b).memoryWf = true) : (s.takeUp j r mine go).memoryWf = true := by
  unfold State.takeUp
  split
  · exact h
  split
  · simp [h]
  next b _ =>
  split
  · exact h
  extract_lets t
  have ht : t.memoryWf = true := by simp [t, h]
  clear_value t
  split
  · simp [ht]
  split
  · exact hgo t b ht
  · exact ht

@[simp] theorem keeps_judgeHead {s : State} (j r : Nat) (h : s.memoryWf = true) : (s.judgeHead j r).memoryWf = true := by
  unfold State.judgeHead
  extract_lets t
  have ht : t.memoryWf = true := by
    simp only [t]
    split <;> simp [h]
  clear_value t
  split
  · simp [ht]
  split
  · simp [ht]
  split <;> simp [ht]

@[simp] theorem keeps_execFrontEndWake (j : Nat) {s : State} (h : s.memoryWf = true) : OutWf (execFrontEndWake j s) := by
  refine outWf_ite h (keeps_foldl _ h fun t ht r _ => ?_)
  split
  · exact keeps_judgeHead j r ht
  · exact ht

@[simp] theorem keeps_acceptLaunch {s : State} (j r : Nat) (b : List Byte) (h : s.memoryWf = true) :
    (s.acceptLaunch j r b).memoryWf = true := by
  unfold State.acceptLaunch
  dsimp only
  split
  · exact h
  split
  · simp [h]
  split
  · exact h
  split
  · simp [h]
  split
  · exact h
  split
  · simp [h]
  split
  · exact h
  · simp [h]

@[simp] theorem keeps_execLaunch (j r : Nat) {s : State} (h : s.memoryWf = true) : OutWf (execLaunch j r s) :=
  keeps_takeUp j r _ h fun _ b ht => keeps_acceptLaunch j r b ht

@[simp] theorem memoryWf_acceptCodeLoad (s : State) (j r : Nat) (b : List Byte) :
    (s.acceptCodeLoad j r b).memoryWf = s.memoryWf := by
  simp [State.acceptCodeLoad]

@[simp] theorem keeps_execCodeLoad (j r : Nat) {s : State} (h : s.memoryWf = true) : OutWf (execCodeLoad j r s) :=
  keeps_takeUp j r _ h fun _ b ht => by simp [ht]

@[simp] theorem keeps_execDrain (j r : Nat) {s : State} (h : s.memoryWf = true) : OutWf (execDrain j r s) := by
  refine keeps_takeUp j r _ h fun t b ht => ?_
  dsimp only
  split
  · simp [ht]
  split
  · next u hu =>
    split at hu
    · exact keeps_mapGate hu ht
    · cases hu
  · simp [ht]

@[simp] theorem keeps_acceptColl {s : State} (j r : Nat) (b : List Byte) (h : s.memoryWf = true) :
    (s.acceptColl j r b).memoryWf = true := by
  unfold State.acceptColl
  extract_lets n g x
  have hx : x.1.memoryWf = true := by simp [x, h]
  clear_value x
  split
  · simp [h]
  split
  · next t ht => exact keeps_tableGate ht h
  split
  · simp [hx]
  · split
    · simp [hx]
    · exact keeps_submitColl _ (by simp [hx])

@[simp] theorem keeps_takeColl {s : State} (j r op : Nat) (h : s.memoryWf = true) : (takeColl s j r op).memoryWf = true :=
  keeps_takeUp j r _ h fun _ b ht => keeps_acceptColl j r b ht

@[simp] theorem keeps_execAllreduce (j r : Nat) {s : State} (h : s.memoryWf = true) : OutWf (execAllreduce j r s) := by
  simp [execAllreduce, h]

@[simp] theorem keeps_execReduceScatter (j r : Nat) {s : State} (h : s.memoryWf = true) : OutWf (execReduceScatter j r s) := by
  simp [execReduceScatter, h]

@[simp] theorem keeps_execAllgather (j r : Nat) {s : State} (h : s.memoryWf = true) : OutWf (execAllgather j r s) := by
  simp [execAllgather, h]

@[simp] theorem keeps_execAlltoall (j r : Nat) {s : State} (h : s.memoryWf = true) : OutWf (execAlltoall j r s) := by
  simp [execAlltoall, h]

@[simp] theorem keeps_execBroadcast (j r : Nat) {s : State} (h : s.memoryWf = true) : OutWf (execBroadcast j r s) := by
  simp [execBroadcast, h]

@[simp] theorem keeps_execSend (j r : Nat) {s : State} (h : s.memoryWf = true) : OutWf (execSend j r s) := by
  simp [execSend, h]

@[simp] theorem keeps_execRecv (j r : Nat) {s : State} (h : s.memoryWf = true) : OutWf (execRecv j r s) := by
  simp [execRecv, h]

@[simp] theorem keeps_execLowrank (j r : Nat) {s : State} (h : s.memoryWf = true) : OutWf (execLowrank j r s) := by
  simp [execLowrank, h]

@[simp] theorem keeps_execLowrankCont (j r : Nat) {s : State} (h : s.memoryWf = true) : OutWf (execLowrankCont j r s) := by
  refine keeps_takeUp j r _ h fun t b ht => ?_
  split
  · simp [ht]
  · exact keeps_continueLowrank _ (by simp [ht])

@[simp] theorem keeps_acceptRemote {s : State} (j r : Nat) (b : List Byte) (h : s.memoryWf = true) :
    (s.acceptRemote j r b).memoryWf = true := by
  unfold State.acceptRemote
  extract_lets n kind len size
  split
  · simp [h]
  split
  · simp [h]
  split
  · exact h
  extract_lets d
  split
  next t clear e =>
  have ht : t.memoryWf = true := by simpa [e] using keeps_clearOfHost d size (kind == 1) h
  split
  · exact ht
  extract_lets tag
  split
  next u words e =>
  have hu : u.memoryWf = true := by
    split at e
    · rw [← (Prod.mk.inj e).1]
      exact ht
    · rw [← (Prod.mk.inj e).1]
      exact keeps_agentRead d size ht
  simp [hu]

@[simp] theorem keeps_takeRemote {s : State} (j r kind : Nat) (h : s.memoryWf = true) : (takeRemote s j r kind).memoryWf = true :=
  keeps_takeUp j r _ h fun _ b ht => keeps_acceptRemote j r b ht

@[simp] theorem keeps_execRemoteRd (j r : Nat) {s : State} (h : s.memoryWf = true) : OutWf (execRemoteRd j r s) := by
  simp [execRemoteRd, h]

@[simp] theorem keeps_execRemoteWr (j r : Nat) {s : State} (h : s.memoryWf = true) : OutWf (execRemoteWr j r s) := by
  simp [execRemoteWr, h]

@[simp] theorem keeps_execRemoteNma (j r : Nat) {s : State} (h : s.memoryWf = true) : OutWf (execRemoteNma j r s) := by
  simp [execRemoteNma, h]

@[simp] theorem keeps_execMark (j r : Nat) {s : State} (h : s.memoryWf = true) : OutWf (execMark j r s) :=
  keeps_takeUp j r _ h fun _ b ht => by simp [ht]

@[simp] theorem memoryWf_chooseLowering (s : State) (key : Nat) (pick : Option Nat) :
    (s.chooseLowering key pick).memoryWf = s.memoryWf := (rfl)

@[simp] theorem keeps_acceptLower {s : State} (j r : Nat) (b : List Byte) (h : s.memoryWf = true) :
    (s.acceptLower j r b).memoryWf = true := by
  unfold State.acceptLower
  extract_lets src
  split
  · simp [h]
  next d _ =>
  split
  next s₁ clear e =>
  have hs₁ : s₁.memoryWf = true := by simpa [e] using keeps_clearOfHost d 64 false h
  split
  · exact hs₁
  split
  next s₂ header bad e =>
  have hs₂ : s₂.memoryWf = true := by simpa [e] using keeps_agentRead d 64 hs₁
  extract_lets ikf len
  split
  · simp [hs₂]
  split
  · simp [hs₂]
  split
  · simp [hs₂]
  split
  next s₃ clear e =>
  have hs₃ : s₃.memoryWf = true := by simpa [e] using keeps_clearOfHost d len false hs₂
  split
  · exact hs₃
  split
  next s₄ bytes bad e =>
  have hs₄ : s₄.memoryWf = true := by simpa [e] using keeps_agentRead d len hs₃
  extract_lets found cands accepted l loaded
  have hloaded : loaded.memoryWf = true := by simp [loaded, accepted, hs₄]
  clear_value loaded
  split
  · simp [hs₄]
  split
  · simp [hloaded]
  · split
    next s₅ waits e =>
    have hs₅ : s₅.memoryWf = true := by simpa [hloaded] using congrArg (fun p => p.1.memoryWf) e.symm
    split <;> simp [hs₅]

@[simp] theorem keeps_execLower (j r : Nat) {s : State} (h : s.memoryWf = true) : OutWf (execLower j r s) :=
  outWf_ite h (keeps_takeUp j r _ h fun _ b ht => keeps_acceptLower j r b ht)

theorem wf_writeCode {m : Ram} (dest : Nat) (bytes : List Byte) (bad : Nat → Bool) (h : Memory.wf m = true) :
    Memory.wf (writeCode m dest bytes bad) = true :=
  wf_foldl _ (fun _ _ hm => wf_poison _ hm) _ _ (wf_write _ _ h)

/-- An image written into the code stores of some Facets. -/
theorem keeps_loadCode {s : State} (targets : List Nat) (dest : Nat) (bytes : List Byte) (bad : Nat → Bool) (h : s.memoryWf = true) :
    (targets.foldl (fun s f => s.updFacet f (fun x => { x with code := writeCode x.code dest bytes bad })) s).memoryWf = true := by
  refine keeps_foldl _ h fun t ht f _ => keeps_updFacet ht ?_
  rw [tablesWf_iff]
  exact ⟨wf_writeCode _ _ _ (wf_code ht f), wf_blocks ht f, wf_groups ht f⟩

@[simp] theorem keeps_execCodeLoadComplete (j r seq : Nat) {s : State} (h : s.memoryWf = true) :
    OutWf (execCodeLoadComplete j r seq s) := by
  unfold execCodeLoadComplete
  split
  · exact h
  next l _ =>
  split
  · exact h
  next d _ =>
  have hcleared := keeps_clearOfHost d l.len false h
  dsimp only
  refine outWf_ite hcleared ?_
  rw [outWf_next, memoryWf_completeEntry]
  exact keeps_loadCode _ _ _ _ (keeps_agentRead d l.len hcleared)

@[simp] theorem keeps_execLowerComplete (j r seq : Nat) {s : State} (h : s.memoryWf = true) :
    OutWf (execLowerComplete j r seq s) := by
  unfold execLowerComplete
  split
  · exact h
  split
  · exact h
  refine outWf_ite h ?_
  dsimp only
  rw [outWf_next, memoryWf_completeEntry]
  exact keeps_loadCode _ _ _ _ h

@[simp] theorem keeps_execLaunchComplete (launch : Nat) {s : State} (h : s.memoryWf = true) :
    OutWf (execLaunchComplete launch s) := by
  unfold execLaunchComplete
  split
  · simp [h]
  split
  · simp [h]
  split
  · simp [h]
  · split <;> simp [h]

@[simp] theorem memoryWf_writeLocusCfg (s : State) (j r : Nat) (v : Word) : (writeLocusCfg s j r v).memoryWf = s.memoryWf := by
  simp [writeLocusCfg]

@[simp] theorem memoryWf_writeLocusBase (s : State) (j r a : Nat) (v : Word) :
    (writeLocusBase s j r a v).memoryWf = s.memoryWf := by
  simp [writeLocusBase]

@[simp] theorem memoryWf_writeHifSelect (s : State) (j : Nat) (v : Word) : (writeHifSelect s j v).memoryWf = s.memoryWf := by
  simp [writeHifSelect]

end Sys2Proof.Laws
end

section
/-! SUPPORT. Tenants, the host and resets keep the memories and tables in canonical form. -/

namespace Sys2Proof.Laws

open Sys2Proof Sys2Proof.Machine

@[simp] theorem memoryWf_setGate (s : State) (id : Nat) (e : BitVec 3) : (s.setGate id e).memoryWf = s.memoryWf := (rfl)

@[simp] theorem memoryWf_writeSrSeedHi (s : State) (j : Nat) (v : Word) : (writeSrSeedHi s j v).memoryWf = s.memoryWf := (rfl)

@[simp] theorem memoryWf_resetRegs (s : State) (j : Nat) (takes : Nat → RegSpec → Bool) :
    (s.resetRegs j takes).memoryWf = s.memoryWf := (rfl)

@[simp] theorem memoryWf_resetTenantRegs (s : State) (j : Nat) (takes : Nat → RegSpec → Bool) :
    (s.resetTenantRegs j takes).memoryWf = s.memoryWf := by
  simp [State.resetTenantRegs]

@[simp] theorem memoryWf_abortPins (s : State) (j : Nat) : (s.abortPins j).memoryWf = s.memoryWf := by
  simp [State.abortPins]

@[simp] theorem memoryWf_resetHull (s : State) (j : Nat) : (s.resetHull j).memoryWf = s.memoryWf := by
  simp [State.resetHull]

@[simp] theorem memoryWf_endEntries (s : State) (j : Nat) : (s.endEntries j).memoryWf = s.memoryWf := by
  simp [State.endEntries]

/-- Facets whose work stops keep their code stores. -/
theorem keeps_stopFacets {s : State} (l : List (Nat × Nat)) (h : s.memoryWf = true) :
    (l.foldl (fun s e => s.updFacet e.2 Facet.stopped) s).memoryWf = true :=
  keeps_foldl l h fun _ ht e _ => keeps_updFacet ht (tablesWf_stopped (wf_facet ht e.2))

@[simp] theorem keeps_stopFn {s : State} (j : Nat) (h : s.memoryWf = true) : (s.stopFn j).memoryWf = true := by
  unfold State.stopFn
  extract_lets owed told ended drained emptied stopped
  have htold : told.memoryWf = true := keeps_flushDigests _ _ (by simp [h])
  have hdrained : drained.memoryWf = true := by simp [drained, ended, htold]
  rw [memoryWf_resetHull]
  refine keeps_stopFacets _ ?_
  simp [emptied, hdrained]

@[simp] theorem keeps_beginReset {s : State} (j : Nat) (disable : Bool) (h : s.memoryWf = true) :
    (s.beginReset j disable).memoryWf = true := by
  unfold State.beginReset
  extract_lets t begun forgotten
  have ht : t.memoryWf = true := by simp [t, h]
  have hforgotten : forgotten.memoryWf = true := by simp [forgotten, begun, ht]
  clear_value t forgotten
  split
  · exact ht
  · exact keeps_stopFn j (by simp [hforgotten])

@[simp] theorem keeps_replaceFacet {s : State} (pos f : Nat) (h : s.memoryWf = true) : (s.replaceFacet pos f).memoryWf = true := by
  unfold State.replaceFacet
  split <;> simp [h]

@[simp] theorem keeps_endReset {s : State} (j : Nat) (h : s.memoryWf = true) : (s.endReset j).memoryWf = true := by
  unfold State.endReset
  split
  · exact h
  extract_lets told forgotten aborted unpinned emptied cleared rx replaced short off fresh code done
  have htold : told.memoryWf = true := keeps_flushDigests j _ h
  have hunpinned : unpinned.memoryWf = true := by
    simp [unpinned, aborted, forgotten, htold]
  have hemptied : emptied.memoryWf = true := by
    refine keeps_foldl _ hunpinned fun t ht e _ => keeps_updFacet ht ?_
    rw [tablesWf_iff]
    exact ⟨rfl, wf_blocks ht _, wf_groups ht _⟩
  have hreplaced : replaced.memoryWf = true := by
    refine keeps_foldl _ ?_ fun t ht e _ => keeps_replaceFacet _ _ ht
    simp only [rx, cleared, memoryWf_resetRegs, memoryWf_resetTenantRegs, hemptied]
  have hdone : done.memoryWf = true := by simp [done, fresh, hreplaced]
  clear_value told done
  split
  · exact htold
  · simp [hdone]

@[simp] theorem keeps_execTenantResetComplete (j : Nat) {s : State} (h : s.memoryWf = true) :
    OutWf (execTenantResetComplete j s) := by
  unfold execTenantResetComplete
  rw [outWf_next]
  split
  · exact h
  · exact keeps_endReset j h

@[simp] theorem keeps_execFlrVf (j : Nat) {s : State} (h : s.memoryWf = true) : OutWf (execFlrVf j s) := by
  simp [execFlrVf, h]

@[simp] theorem keeps_execFlrPf0 {s : State} (h : s.memoryWf = true) : OutWf (execFlrPf0 s) := by
  unfold execFlrPf0
  dsimp only
  rw [outWf_next, memoryWf_resetTenantRegs, memoryWf_updFn]
  exact keeps_foldl _ h fun t ht k _ => keeps_beginReset _ _ ht

@[simp] theorem keeps_execTenantRecoveryReset (j : Nat) {s : State} (h : s.memoryWf = true) :
    OutWf (execTenantRecoveryReset j s) := by
  simp [execTenantRecoveryReset, h]

@[simp] theorem memoryWf_enableTenant (s : State) (j : Nat) : (s.enableTenant j).memoryWf = s.memoryWf := by
  simp [State.enableTenant]

@[simp] theorem keeps_writeTenCtrl {s : State} (j : Nat) (v : Word) (h : s.memoryWf = true) :
    (writeTenCtrl s j v).memoryWf = true := by
  simp [writeTenCtrl, h]

@[simp] theorem keeps_writeTenSelf {s : State} (j : Nat) (v : Word) (h : s.memoryWf = true) :
    (writeTenSelf s j v).memoryWf = true := by
  simp [writeTenSelf, h]

@[simp] theorem memoryWf_writeTenMap (s : State) (j a : Nat) (v : Word) : (writeTenMap s j a v).memoryWf = s.memoryWf := by
  simp [writeTenMap]

@[simp] theorem keeps_execFacetFault (f : Nat) {s : State} (h : s.memoryWf = true) : OutWf (execFacetFault f s) := by
  simp [execFacetFault, h]

@[simp] theorem keeps_resetFacet {s : State} (f : Nat) (h : s.memoryWf = true) : (s.resetFacet f).memoryWf = true := by
  have hlost : (s.loseBlocks f).memoryWf = true := by simp [h]
  unfold State.resetFacet
  extract_lets lost owned cleared
  have hcleared : cleared.memoryWf = true := keeps_updFacet hlost rfl
  clear_value cleared
  simp [hcleared]

@[simp] theorem keeps_execCxlMemRead (addr : Nat) (cache : Bool) {s : State} (h : s.memoryWf = true) :
    OutWf (execCxlMemRead addr cache s) := by
  unfold execCxlMemRead
  extract_lets a line grant hull outs
  refine outWf_ite trivial (outWf_ite h (outWf_ite (by simp [h]) ?_))
  split
  · split
    · exact h
    · refine outWf_ite h ?_
      simp [h, hull]
  split
  · next t ht => exact (memoryWf_agentTurn ht).trans h
  split
  next t bytes bad e =>
  have ht : t.memoryWf = true := by simpa [e] using keeps_agentRead a 64 h
  extract_lets answered out noted kept
  have hnoted : noted.memoryWf = true := by
    have ha : answered.memoryWf = true := by simp [answered, ht]
    clear_value answered
    simp only [noted]
    split <;> simp [ha]
  clear_value noted
  simp [kept, hnoted]

@[simp] theorem memoryWf_wakeRings (s : State) (a : Nat) : (s.wakeRings a).memoryWf = s.memoryWf := by
  refine memoryWf_foldl _ (fun t j => memoryWf_foldl _ (fun u r => ?_) _ t) _ s
  split
  · rfl
  dsimp only
  split
  · rfl
  · rw [memoryWf_ite, memoryWf_updRing, ite_self]

@[simp] theorem keeps_execCxlMemWrite (addr : Nat) (bytes : List Byte) (mask : DWord) (poison : Bool) {s : State}
    (h : s.memoryWf = true) : OutWf (execCxlMemWrite addr bytes mask poison s) := by
  unfold execCxlMemWrite
  extract_lets a
  refine outWf_ite trivial (outWf_ite h (outWf_ite (by simp [h]) ?_))
  split
  · next t ht => exact (memoryWf_agentTurn ht).trans h
  · rw [outWf_next, memoryWf_ite, memoryWf_wakeRings, ite_self, memoryWf_answer]
    exact keeps_agentPut _ h

@[simp] theorem keeps_execBirsp (addr : Nat) (dirty : List Byte) {s : State} (h : s.memoryWf = true) :
    OutWf (execBirsp addr dirty s) := by
  unfold execBirsp
  extract_lets line hull returned written
  have hreturned : returned.memoryWf = true := by simp [returned, hull, h]
  have hwritten : written.memoryWf = true := by
    simp only [written]
    split
    · exact hreturned
    · exact keeps_agentWrite _ _ hreturned
  exact outWf_ite h (keeps_pumpAll (keeps_landAll hwritten))

@[simp] theorem memoryWf_release (s : State) : (s.release).memoryWf = s.memoryWf := by
  simp [State.release]

@[simp] theorem keeps_coldReset {s : State} (source : Nat) (h : s.memoryWf = true) : (s.coldReset source).memoryWf = true := by
  unfold State.coldReset
  extract_lets r b boot power store t
  have ht : t.memoryWf = true := by
    have hstore : storeTables t.store = storeTables s.store := by simp [t, store]
    simp only [storeTables, Prod.mk.injEq] at hstore
    obtain ⟨ha, hb, he, hr⟩ := hstore
    rw [memoryWf_iff, ha, hb, he, hr]
    exact ⟨rfl, rfl, wf_areaA h, wf_areaA h, wf_areaB h, wf_erases h, wf_reads h, rfl⟩
  clear_value t
  simp [ht]

@[simp] theorem memoryWf_dropChord (s : State) : (s.dropChord).memoryWf = s.memoryWf := (rfl)

theorem facetsWf_stopped {l : List (Nat × Facet)} (hl : facetsWf l = true) :
    facetsWf (l.map (fun e => (e.1, e.2.stopped))) = true :=
  facetsWf_map _ (fun _ he => tablesWf_stopped he) hl

@[simp] theorem keeps_warmReset {s : State} (source : Nat) (h : s.memoryWf = true) : (s.warmReset source).memoryWf = true := by
  unfold State.warmReset
  split
  · exact h
  · have hd : s.dropChord.memoryWf = true := by simp [h]
    dsimp only
    apply keeps_mk <;> simp [hd, facetsWf_stopped]

@[simp] theorem memoryWf_flushHull (s : State) : (s.flushHull).memoryWf = s.memoryWf := by
  simp [State.flushHull]

/-- Every engine in turn. -/
theorem keeps_engines {s : State} {f : State → Nat → State} (hf : ∀ t k, t.memoryWf = true → (f t k).memoryWf = true)
    (h : s.memoryWf = true) : (s.hbm.pcs.foldl (fun s e => f s e.1) s).memoryWf = true :=
  keeps_foldl _ h fun t ht e _ => hf t e.1 ht

@[simp] theorem keeps_quiesceHbm {s : State} (h : s.memoryWf = true) : s.quiesceHbm.memoryWf = true := by
  unfold State.quiesceHbm
  extract_lets t
  have ht : t.memoryWf = true := keeps_engines (f := State.flushEngine) (fun _ k ht => keeps_flushEngine k ht) h
  clear_value t
  exact keeps_withHbm ht (wf_cells ht)

@[simp] theorem keeps_quietEngine {s : State} (k : Nat) (h : s.memoryWf = true) : (s.quietEngine k).memoryWf = true := by
  unfold State.quietEngine
  dsimp only
  rw [memoryWf_updPc]
  refine keeps_foldl _ (keeps_foldl _ (by simp [h]) fun t ht n _ => ?_) fun t ht w _ => keeps_retire w ht
  split
  · exact keeps_applyNma k ht
  · exact ht

@[simp] theorem keeps_selfRefreshAll {s : State} (h : s.memoryWf = true) : s.selfRefreshAll.memoryWf = true := by
  unfold State.selfRefreshAll
  extract_lets t
  have ht : t.memoryWf = true := keeps_engines (f := State.quietEngine) (fun _ k ht => keeps_quietEngine k ht) h
  clear_value t
  exact keeps_withHbm ht (wf_cells ht)

@[simp] theorem memoryWf_wakeEngines (s : State) : (s.wakeEngines).memoryWf = s.memoryWf := (rfl)

theorem keeps_saveLife {s : State} {f : SysArea → SysArea} (hf : ∀ a, (f a).life = s.life.live) (h : s.memoryWf = true) :
    (s.saveArea f).memoryWf = true := by
  apply keeps_mk <;> simp [h, hf]

@[simp] theorem keeps_persistLife {s : State} (h : s.memoryWf = true) : s.persistLife.memoryWf = true := by
  unfold State.persistLife
  split
  · exact keeps_saveLife (fun _ => rfl) h
  · exact h

@[simp] theorem memoryWf_warmRegs (s : State) : s.warmRegs.memoryWf = s.memoryWf := by
  unfold State.warmRegs
  rw [memoryWf_foldl]
  intro t j
  dsimp only
  rw [memoryWf_setRegF, memoryWf_updFn, memoryWf_resetRegs]

theorem facetsWf_warm {l : List (Nat × Facet)} (hl : facetsWf l = true) :
    facetsWf (l.map (fun e => (e.1, ({ failed := e.2.failed } : Facet)))) = true :=
  facetsWf_map _ (fun _ _ => rfl) hl

@[simp] theorem keeps_execWarmEntryComplete {s : State} (h : s.memoryWf = true) : OutWf (execWarmEntryComplete s) := by
  unfold execWarmEntryComplete
  refine outWf_ite h ?_
  extract_lets quiet kept fresh store boot side warm
  have hquiet : quiet.memoryWf = true := keeps_quiesceHbm (by simp [h])
  have hfresh : fresh.memoryWf = true := by simp [fresh, kept, hquiet]
  clear_value fresh
  have hwarm : warm.memoryWf = true := by
    apply keeps_mk <;> simp [store, Store.restarting, hfresh, facetsWf_warm, Hull.warm]
  clear_value warm
  simp [hwarm]

@[simp] theorem memoryWf_resetPort (s : State) (p : Nat) : (s.resetPort p).memoryWf = s.memoryWf := by
  simp [State.resetPort]

end Sys2Proof.Laws
end

section
/-! SUPPORT. Decisions and module faults keep the memories and tables in canonical form. -/

namespace Sys2Proof.Laws

open Sys2Proof Sys2Proof.Machine

@[simp] theorem memoryWf_takeOver (s : State) (j p : Nat) : (s.takeOver j p).memoryWf = s.memoryWf := by
  simp [State.takeOver]

@[simp] theorem memoryWf_writeSpareTake (s : State) (v : Word) : (writeSpareTake s v).memoryWf = s.memoryWf := by
  simp [writeSpareTake]

@[simp] theorem memoryWf_settle (s : State) : (s.settle).memoryWf = s.memoryWf := (rfl)

@[simp] theorem memoryWf_applyRow (s : State) (row : Nat) : (s.applyRow row).memoryWf = s.memoryWf := (rfl)

@[simp] theorem memoryWf_abortHandover (s : State) (result : Nat) : (s.abortHandover result).memoryWf = s.memoryWf := by
  simp [State.abortHandover]

@[simp] theorem memoryWf_emergencyEdge (s : State) (old : Power) : (s.emergencyEdge old).memoryWf = s.memoryWf := by
  simp [State.emergencyEdge]

@[simp] theorem keeps_takeAction {s : State} (d : Decision) (h : s.memoryWf = true) : (s.takeAction d).memoryWf = true := by
  unfold State.takeAction
  split
  · simp [h]
  · simp [h]
  · simp [h]
  · simp [h]
  · simp [h]
  · split <;> simp [h]
  · split
    · simp [h]
    · simp [h]
    · exact keeps_warmReset 6 (by simp [h])
  · simp [h]
  · simp [h]

theorem keeps_answerDecision {s t : State} {d : Decision} {a : Nat} (ht : s.answerDecision d a = some t) (h : s.memoryWf = true) :
    t.memoryWf = true := by
  have htake := keeps_takeAction d h
  unfold State.answerDecision at ht
  split at ht
  case h_15 => cases ht
  case h_14 =>
    obtain ⟨-, ht⟩ := Option.ite_none_right_eq_some.1 ht
    simp [← Option.some.inj ht, h]
  all_goals
    rw [← Option.some.inj ht]
    simp [h, htake]

@[simp] theorem memoryWf_dropDecision (s : State) (fn subject : Nat) : (s.dropDecision fn subject).memoryWf = s.memoryWf := by
  unfold State.dropDecision
  split <;> simp

@[simp] theorem keeps_writeDecAnswer {s : State} (v : Word) (h : s.memoryWf = true) : (writeDecAnswer s v).memoryWf = true := by
  have hstale : (s.count 0 Reg.decPending 31 24 1).memoryWf = true := by simp [h]
  unfold writeDecAnswer
  dsimp only
  split
  · exact hstale
  split
  · exact hstale
  · refine keeps_getD hstale fun t ht => keeps_answerDecision ht ?_
    simp [h]

@[simp] theorem keeps_execDecisionWaitExpire (fn subject : Nat) {s : State} (h : s.memoryWf = true) :
    OutWf (execDecisionWaitExpire fn subject s) := by
  unfold execDecisionWaitExpire
  split
  · exact h
  · exact outWf_ite h (keeps_takeAction _ (by simp [h]))

@[simp] theorem keeps_execEdgeUeRateExceeded {s : State} (h : s.memoryWf = true) : OutWf (execEdgeUeRateExceeded s) := by
  unfold execEdgeUeRateExceeded
  refine outWf_ite h ?_
  dsimp only
  rw [outWf_next]
  have hcounted : (s.free.1.count 0 Reg.pathErr 15 0 (1001 + (Config.freeWord s.free.2).toNat)).memoryWf = true := by simp [h]
  split
  · rw [memoryWf_decisionPoint]
    exact hcounted
  · exact keeps_warmReset 6 ((memoryWf_decisionPoint _ _ _ _).trans hcounted)

@[simp] theorem memoryWf_logicBack (s : State) : (s.logicBack).memoryWf = s.memoryWf := (rfl)

@[simp] theorem keeps_enterHold {s : State} (cause : Nat) (h : s.memoryWf = true) : (s.enterHold cause).memoryWf = true := by
  unfold State.enterHold
  split
  · exact h
  extract_lets old holds refreshed back power held
  have hrefreshed : refreshed.memoryWf = true := by
    simp only [refreshed]
    split
    · exact keeps_selfRefreshAll h
    · exact h
  have hback : back.memoryWf = true := by simp [back, hrefreshed]
  clear_value back
  have hheld : held.memoryWf = true := by simp [held, hback]
  simp [hheld]

@[simp] theorem memoryWf_stopForFault (s : State) : s.stopForFault.memoryWf = s.memoryWf := by
  unfold State.stopForFault
  extract_lets reported closed ended boot
  have hended : ended.memoryWf = s.memoryWf := by
    simp only [ended]
    rw [memoryWf_foldl]
    · simp [closed, reported]
    · exact memoryWf_endEntries
  clear_value ended
  simp [hended]

@[simp] theorem keeps_faultHold {s : State} (h : s.memoryWf = true) : s.faultHold.memoryWf = true := by
  unfold State.faultHold
  rw [memoryWf_darkPorts]
  exact keeps_enterHold 3 h

@[simp] theorem keeps_runFault {s : State} (h : s.memoryWf = true) : s.runFault.memoryWf = true := by
  have hstopped : s.stopForFault.memoryWf = true := by simp [h]
  unfold State.runFault
  split
  · exact keeps_coldReset 7 hstopped
  · exact keeps_faultHold hstopped

@[simp] theorem keeps_execModuleFault {s : State} (h : s.memoryWf = true) : OutWf (execModuleFault s) := by
  have hesc : s.escalateModule.memoryWf = true := by simp [h]
  unfold execModuleFault
  refine outWf_ite (keeps_runFault h) (outWf_ite h ?_)
  dsimp only
  rw [outWf_next]
  split
  · exact keeps_runFault hesc
  · exact hesc

@[simp] theorem keeps_execLifePersist {s : State} (h : s.memoryWf = true) : OutWf (execLifePersist s) := keeps_persistLife h

@[simp] theorem keeps_execLifeSample {s : State} (h : s.memoryWf = true) : OutWf (execLifeSample s) :=
  keeps_life _ _ (keeps_life _ _ (keeps_life _ _ h))

@[simp] theorem memoryWf_writeLifeSel (s : State) (v : Word) : (writeLifeSel s v).memoryWf = s.memoryWf := (rfl)

end Sys2Proof.Laws
end

section
/-! SUPPORT. Power, the reduction unit and the Prisms keep the memories and tables in canonical form. -/

namespace Sys2Proof.Laws

open Sys2Proof Sys2Proof.Machine

@[simp] theorem keeps_execXtalStable {s : State} (h : s.memoryWf = true) : OutWf (execXtalStable s) := by
  unfold execXtalStable
  split <;> simp [h]

@[simp] theorem keeps_execXtalTimeout {s : State} (h : s.memoryWf = true) : OutWf (execXtalTimeout s) := by
  unfold execXtalTimeout
  split <;> simp [h]

@[simp] theorem keeps_execXtalLoss {s : State} (h : s.memoryWf = true) : OutWf (execXtalLoss s) := by
  unfold execXtalLoss
  split <;> simp [h]

@[simp] theorem keeps_execPllUnlock (pll : Nat) {s : State} (h : s.memoryWf = true) : OutWf (execPllUnlock pll s) := by
  unfold execPllUnlock
  split <;> simp [h]

@[simp] theorem keeps_execOriginRelockTimeout (die : Nat) {s : State} (h : s.memoryWf = true) :
    OutWf (execOriginRelockTimeout die s) := by
  unfold execOriginRelockTimeout
  split <;> simp [h]

@[simp] theorem keeps_execChordRefclkLoss {s : State} (h : s.memoryWf = true) : OutWf (execChordRefclkLoss s) := by
  simp [execChordRefclkLoss, h]

@[simp] theorem keeps_execRefclkLoss {s : State} (h : s.memoryWf = true) : OutWf (execRefclkLoss s) := by
  simp [execRefclkLoss, h]

@[simp] theorem keeps_execPllRetune (island n mv : Nat) {s : State} (h : s.memoryWf = true) :
    OutWf (execPllRetune island n mv s) := by
  simp only [execPllRetune]
  split
  · simp [h]
  · split <;> simp [h]

@[simp] theorem memoryWf_sense (s : State) (junction die : Nat) : (s.sense junction die).memoryWf = s.memoryWf := (rfl)

@[simp] theorem keeps_execJunctionThrottle (junction die : Nat) {s : State} (h : s.memoryWf = true) :
    OutWf (execJunctionThrottle junction die s) := by
  simp only [execJunctionThrottle]
  split <;> simp [h]

@[simp] theorem keeps_execThrottleRelease (junction die : Nat) {s : State} (h : s.memoryWf = true) :
    OutWf (execThrottleRelease junction die s) := by
  simp only [execThrottleRelease]
  split <;> simp [h]

@[simp] theorem keeps_execJunctionTrip (junction die : Nat) {s : State} (h : s.memoryWf = true) :
    OutWf (execJunctionTrip junction die s) := by
  simp [execJunctionTrip, h]

@[simp] theorem keeps_execInletLimit (inlet : Nat) {s : State} (h : s.memoryWf = true) : OutWf (execInletLimit inlet s) := by
  simp [execInletLimit, h]

@[simp] theorem memoryWf_startWake (s : State) (source : Nat) : (s.startWake source).memoryWf = s.memoryWf := by
  simp only [State.startWake]
  split <;> simp

@[simp] theorem memoryWf_releaseHold (s : State) (gone : List Nat) (source : Nat) :
    (s.releaseHold gone source).memoryWf = s.memoryWf := by
  simp [State.releaseHold]

@[simp] theorem keeps_execThermalRelease (junction die inlet : Nat) {s : State} (h : s.memoryWf = true) :
    OutWf (execThermalRelease junction die inlet s) := by
  unfold execThermalRelease
  split <;> simp [h]

@[simp] theorem keeps_execFastCurrentClamp (ma : Nat) {s : State} (h : s.memoryWf = true) : OutWf (execFastCurrentClamp ma s) := by
  simp [execFastCurrentClamp, h]

@[simp] theorem keeps_execClampRelease (ma : Nat) {s : State} (h : s.memoryWf = true) : OutWf (execClampRelease ma s) := by
  simp [execClampRelease, h]

@[simp] theorem keeps_execLimiterPeriod (meanW maxMa capW : Nat) {s : State} (h : s.memoryWf = true) :
    OutWf (execLimiterPeriod meanW maxMa capW s) := by
  simp [execLimiterPeriod, h]

@[simp] theorem memoryWf_levelLoop (s : State) (p : Nat) : (s.levelLoop p).memoryWf = s.memoryWf := by
  simp [State.levelLoop]

@[simp] theorem memoryWf_clampRequests (s : State) : (s.clampRequests).memoryWf = s.memoryWf := by
  simp [State.clampRequests]

@[simp] theorem memoryWf_storeWindow (s : State) : (s.storeWindow).memoryWf = s.memoryWf := (rfl)

@[simp] theorem keeps_execWindowPeriod (meanW : Nat) {s : State} (h : s.memoryWf = true) : OutWf (execWindowPeriod meanW s) := by
  simp [execWindowPeriod, h]

@[simp] theorem keeps_execNRampStep {s : State} (h : s.memoryWf = true) : OutWf (execNRampStep s) := by
  unfold execNRampStep
  split <;> simp [h]

@[simp] theorem keeps_execLevelWindowEnd (meanW : Nat) {s : State} (h : s.memoryWf = true) :
    OutWf (execLevelWindowEnd meanW s) := by
  unfold execLevelWindowEnd
  split <;> simp [h]

@[simp] theorem keeps_execPpHeartbeat {s : State} (h : s.memoryWf = true) : OutWf (execPpHeartbeat s) := by
  unfold execPpHeartbeat
  split <;> simp [h]

@[simp] theorem keeps_execPpHeartbeatTimeout {s : State} (h : s.memoryWf = true) : OutWf (execPpHeartbeatTimeout s) := by
  unfold execPpHeartbeatTimeout
  split <;> simp [h]

@[simp] theorem keeps_execDeratingStep (inlet : Nat) {s : State} (h : s.memoryWf = true) : OutWf (execDeratingStep inlet s) := by
  simp only [execDeratingStep]
  split
  · split
    · simp [h]
    · split <;> simp [h]
  split
  · simp [h]
  · split <;> simp [h]

@[simp] theorem keeps_execSupplyWarning (mv : Nat) {s : State} (h : s.memoryWf = true) : OutWf (execSupplyWarning mv s) := by
  simp only [execSupplyWarning]
  split <;> simp [h]

@[simp] theorem keeps_execSupplyRelease (mv : Nat) {s : State} (h : s.memoryWf = true) : OutWf (execSupplyRelease mv s) := by
  unfold execSupplyRelease
  extract_lets power t old
  have ht : t.memoryWf = true := by simp [t, h]
  clear_value t
  split
  · exact ht
  refine outWf_ite ht ?_
  extract_lets len last counted power ramping held back
  have hcounted : counted.memoryWf = true := keeps_life _ _ (by simp [last, ht])
  clear_value counted
  have hback : back.memoryWf = true := by simp [back, held, ramping, hcounted]
  clear_value back
  simp [hback]

@[simp] theorem keeps_execSupplyHold {s : State} (h : s.memoryWf = true) : OutWf (execSupplyHold s) := by
  unfold execSupplyHold
  split
  · simp [h]
  · split <;> simp [h]

@[simp] theorem keeps_execSupplyReset (mv : Nat) {s : State} (h : s.memoryWf = true) : OutWf (execSupplyReset mv s) := by
  simp [execSupplyReset, h]

@[simp] theorem memoryWf_writePwrCmd (s : State) (v : Word) : (writePwrCmd s v).memoryWf = s.memoryWf := by
  simp [writePwrCmd]

@[simp] theorem keeps_execPowerEntryComplete {s : State} (h : s.memoryWf = true) : OutWf (execPowerEntryComplete s) := by
  simp only [execPowerEntryComplete]
  split
  · simp [h]
  · split <;> simp [h]

@[simp] theorem memoryWf_wake (s : State) (source : Nat) : (s.wake source).memoryWf = s.memoryWf := by
  simp [State.wake]

@[simp] theorem keeps_execWakeSense {s : State} (h : s.memoryWf = true) : OutWf (execWakeSense s) := by
  simp [execWakeSense, h]

@[simp] theorem keeps_execInletWake (inlet : Nat) {s : State} (h : s.memoryWf = true) : OutWf (execInletWake inlet s) := by
  simp [execInletWake, h]

@[simp] theorem memoryWf_finishWake (s : State) : (s.finishWake).memoryWf = s.memoryWf := by
  simp [State.finishWake]

@[simp] theorem memoryWf_writeGateCmd (s : State) (v : Word) : (writeGateCmd s v).memoryWf = s.memoryWf := by
  simp [writeGateCmd]

@[simp] theorem memoryWf_writeLevelCfg (s : State) (v : Word) : (writeLevelCfg s v).memoryWf = s.memoryWf := by
  simp [writeLevelCfg]

@[simp] theorem memoryWf_redBad (s : State) (g : Group) (i : Ins) : (s.redBad g i).memoryWf = s.memoryWf := by
  simp [State.redBad]

@[simp] theorem memoryWf_pushRdu (s : State) (f : Nat) (op : RduOp) : (s.pushRdu f op).memoryWf = s.memoryWf := by
  simp [State.pushRdu]

theorem keeps_runRedg {s : State} (f slot : Nat) {g : Group} (i : Ins) (h : s.memoryWf = true) (hg : groupWf g = true) :
    IssueWf (runRedg f slot s g i) := by
  unfold runRedg
  dsimp only
  refine issueWf_ite trivial (issueWf_ite trivial ?_)
  split
  · simp [h, hg]
  refine issueWf_ite trivial (issueWf_ite trivial ?_)
  simp [h, hg]

@[simp] theorem keeps_execRedg (f slot : Nat) {s : State} (h : s.memoryWf = true) : OutWf (execRedg f slot s) :=
  keeps_issue _ _ _ _ _ _ _ h fun _ _ i hs hg => keeps_runRedg f slot i hs hg

theorem facets_redBad (s : State) (g : Group) (i : Ins) : (s.redBad g i).facets = s.facets := by
  unfold State.redBad
  dsimp only
  rw [apply_ite State.facets]
  exact ite_self _

theorem keeps_runRedb {s : State} (f slot : Nat) {g : Group} (i : Ins) (h : s.memoryWf = true) (hg : groupWf g = true) :
    IssueWf (runRedb f slot s g i) := by
  unfold runRedb
  dsimp only
  refine issueWf_ite trivial (issueWf_ite trivial ?_)
  split
  · simp [h, hg]
  refine issueWf_ite trivial (issueWf_ite trivial ?_)
  split
  · trivial
  next b hb =>
  split
  · trivial
  · next c hc =>
    have hread : (s.fresh.1.redBad g i).memoryWf = true := by simp [h]
    have hblock : (s.fresh.1.redBad g i).block? f g.block = some b := by
      rw [State.block?, State.facet, facets_redBad]
      exact hb
    have hs := keeps_arrived hblock (opc_arrive hc) hread
    simp [hs, hg]

@[simp] theorem keeps_execRedb (f slot : Nat) {s : State} (h : s.memoryWf = true) : OutWf (execRedb f slot s) :=
  keeps_settleBarriers f slot s (keeps_issue _ _ _ _ _ _ _ h fun _ _ i hs hg => keeps_runRedb f slot i hs hg)

theorem keeps_runRedR {s : State} (f slot : Nat) {g : Group} (i : Ins) (h : s.memoryWf = true) (hg : groupWf g = true) :
    IssueWf (runRedR f slot s g i) := by
  unfold runRedR
  dsimp only
  refine issueWf_ite trivial (issueWf_ite trivial (issueWf_ite ?_ (issueWf_ite trivial (issueWf_ite trivial
    (issueWf_ite trivial (issueWf_ite trivial ?_))))))
  · simp [h, hg]
  · simp [h, hg]

@[simp] theorem keeps_execRedR (f slot : Nat) {s : State} (h : s.memoryWf = true) : OutWf (execRedR f slot s) :=
  keeps_issue _ _ _ _ _ _ _ h fun _ _ i hs hg => keeps_runRedR f slot i hs hg

@[simp] theorem keeps_execRduAccept (f : Nat) {s : State} (h : s.memoryWf = true) : OutWf (execRduAccept f s) := by
  unfold execRduAccept
  rw [outWf_next]
  split
  · exact h
  next o rest _ =>
  split
  · exact h
  dsimp only
  split
  · exact keeps_foldl _ (by simp [h]) fun t ht d _ => keeps_writeReduced f d _ _ _ ht
  · exact keeps_finishRedb f (by simp [h])
  · split
    · exact h
    · refine keeps_foldl _ ?_ fun t ht d _ => keeps_writeReduced f d _ _ _ ht
      simp [h, Facet.unage]

@[simp] theorem memoryWf_updPrism (s : State) (f q : Nat) (h : Prism → Prism) : (s.updPrism f q h).memoryWf = s.memoryWf := by
  simp [State.updPrism]

theorem keeps_runMma {s : State} (f slot : Nat) {g : Group} (i : Ins) (h : s.memoryWf = true) (hg : groupWf g = true) :
    IssueWf (runMma f slot s g i) := by
  unfold runMma
  refine issueWf_ite trivial (issueWf_ite trivial ?_)
  split
  · simp [h, hg]
  refine issueWf_ite trivial ?_
  dsimp only
  refine issueWf_ite trivial (issueWf_ite trivial (issueWf_ite trivial ?_))
  simp [h, hg]

@[simp] theorem keeps_issueMma {s : State} (f slot op : Nat) (h : s.memoryWf = true) : (issueMma s f slot op).memoryWf = true :=
  keeps_issue _ _ _ _ _ _ _ h fun _ _ i hs hg => keeps_runMma f slot i hs hg

@[simp] theorem keeps_execMmaH (f slot : Nat) {s : State} (h : s.memoryWf = true) : OutWf (execMmaH f slot s) := by
  simp [execMmaH, h]

@[simp] theorem keeps_execMmaB (f slot : Nat) {s : State} (h : s.memoryWf = true) : OutWf (execMmaB f slot s) := by
  simp [execMmaB, h]

@[simp] theorem keeps_execMmaQ (f slot : Nat) {s : State} (h : s.memoryWf = true) : OutWf (execMmaQ f slot s) := by
  simp [execMmaQ, h]

@[simp] theorem keeps_execMmaF (f slot : Nat) {s : State} (h : s.memoryWf = true) : OutWf (execMmaF f slot s) := by
  simp [execMmaF, h]

@[simp] theorem keeps_execMmaSr (f slot : Nat) {s : State} (h : s.memoryWf = true) : OutWf (execMmaSr f slot s) := by
  refine keeps_issue _ _ _ _ _ _ _ h fun s g i hs hg => ?_
  refine issueWf_ite trivial (issueWf_ite trivial (issueWf_ite ?_ ?_))
  · simp [hs, hg]
  · exact ⟨hs, groupWf_setU _ _ ((groupWf_next g i).trans hg)⟩

@[simp] theorem keeps_execMmaSw (f slot : Nat) {s : State} (h : s.memoryWf = true) : OutWf (execMmaSw f slot s) := by
  refine keeps_issue _ _ _ _ _ _ _ h fun s g i hs hg => ?_
  dsimp only
  refine issueWf_ite trivial (issueWf_ite trivial (issueWf_ite ?_ ?_)) <;> simp [hs, hg]

@[simp] theorem groupWf_writeTile {g : Group} (o : MmaOp) (t : List Word) (h : groupWf g = true) :
    groupWf (g.writeTile o t) = true := by
  refine groupWf_foldl _ h fun k hk e _ => ?_
  dsimp only
  split
  · exact hk
  · exact groupWf_setLane _ _ _ hk

@[simp] theorem keeps_execPrismAccept (f q : Nat) {s : State} (h : s.memoryWf = true) : OutWf (execPrismAccept f q s) := by
  unfold execPrismAccept
  rw [outWf_next]
  extract_lets p
  split
  · exact h
  next o rest _ =>
  split
  · exact h
  extract_lets fromLatch acc o' queued
  have hqueued : queued.memoryWf = true := by simp [queued, h]
  clear_value queued
  split
  · exact hqueued
  next g hgr =>
  have hg := wf_group hqueued hgr
  extract_lets bad noted
  have hnoted : noted.memoryWf = true := keeps_setGroup f _ hqueued ((groupWf_writes g _).trans hg)
  split <;> simp [hnoted]

/-- The Prism's own state, and the ages of the bank requests, are no memory. -/
theorem keeps_prismStep {s : State} (f q slot : Nat) {g : Group} (k : Prism → Prism) (h : s.memoryWf = true) (hg : groupWf g = true) :
    (((s.updFacet f (·.unage q)).setGroup f slot g).updPrism f q k).memoryWf = true := by
  have hs : (s.updFacet f (·.unage q)).memoryWf = true := by simp [h, Facet.unage]
  simp [hs, hg]

@[simp] theorem keeps_execPrismLastBeat (f q : Nat) {s : State} (h : s.memoryWf = true) : OutWf (execPrismLastBeat f q s) := by
  unfold execPrismLastBeat
  rw [outWf_next]
  extract_lets p
  split
  · exact h
  next o rest _ =>
  split
  · exact h
  next g hgr =>
  split
  · exact h
  extract_lets m words read now c again
  have hg := wf_group h hgr
  have hread : read.memoryWf = true := by
    simp only [read, memoryWf_pathErr]
    split <;> simp [h]
  clear_value read
  split
  next t choice e =>
  have ht : t.memoryWf = true := by
    split at e
    · rw [← (Prod.mk.inj e).1]
      exact hread
    · rw [← (Prod.mk.inj e).1]
      simp [hread]
  extract_lets a b r retried passed judged latch written done
  have hretried : retried.memoryWf = true := by simp [retried, ht]
  have hpassed : passed.memoryWf = true := by simp [passed, ht]
  have hjudged : groupWf judged = true := by simp [judged, hg]
  have hdone : groupWf done = true :=
    (groupWf_writes written _).trans ((groupWf_progressed _).trans (groupWf_writeTile _ _ hjudged))
  clear_value r retried passed judged done
  split
  · simp [hretried, hg]
  split
  · exact keeps_prismStep f q o.slot _ hpassed hdone
  · exact keeps_prismStep f q o.slot _ hpassed hjudged

@[simp] theorem keeps_execOutputStageAccept (f q : Nat) {s : State} (h : s.memoryWf = true) :
    OutWf (execOutputStageAccept f q s) := by
  unfold execOutputStageAccept
  rw [outWf_next]
  extract_lets p
  split
  · exact h
  next o tile rest _ =>
  split
  · exact h
  next g hgr =>
  split
  · exact h
  extract_lets d sreg read rows tiled put stats was done
  have hg := wf_group h hgr
  have htiled : groupWf tiled = true := groupWf_writeTile _ _ hg
  have hput : ∀ k n l x, groupWf k = true → groupWf (put k n l x) = true := by
    intro k n l x hk
    simp only [put]
    split
    · exact hk
    · exact groupWf_setLane _ _ _ hk
  have hstats : groupWf stats = true :=
    groupWf_foldl _ htiled fun k hk r _ => hput _ _ _ _ (hput _ _ _ _ (hput _ _ _ _ (hput _ _ _ _ hk)))
  have hdone : groupWf done = true := (groupWf_writes was _).trans ((groupWf_progressed stats).trans hstats)
  simp [h, hdone]

@[simp] theorem keeps_execOpcRequestAged (f client bank : Nat) (write : Bool) {s : State} (h : s.memoryWf = true) :
    OutWf (execOpcRequestAged f client bank write s) := by
  simp [execOpcRequestAged, h]

end Sys2Proof.Laws
end

section
/-! SUPPORT. Firmware and debugging keep the memories and tables in canonical form. -/

namespace Sys2Proof.Laws

open Sys2Proof Sys2Proof.Machine

@[simp] theorem memoryWf_fwResult (s : State) (code : Nat) : (s.fwResult code).memoryWf = s.memoryWf := (rfl)

@[simp] theorem memoryWf_startStage (s : State) (slot : Nat) : (startStage s slot).memoryWf = s.memoryWf := by
  simp [startStage]

@[simp] theorem keeps_execFwStageComplete {s : State} (h : s.memoryWf = true) : OutWf (execFwStageComplete s) := by
  unfold execFwStageComplete
  split
  · exact h
  next slot base len _ =>
  refine outWf_ite h (outWf_ite (by simp [h]) ?_)
  split
  · next t ht => exact keeps_agentGate ht h
  split
  next t image bad e =>
  have ht : t.memoryWf = true := by simpa [e] using keeps_agentRead base len h
  dsimp only
  refine outWf_ite ?_ ?_ <;> simp [ht]

@[simp] theorem memoryWf_activate (s : State) : (activate s).memoryWf = s.memoryWf := by
  simp [activate]

@[simp] theorem memoryWf_raiseCounters (s : State) (l : List (Nat × Nat)) : (s.raiseCounters l).memoryWf = s.memoryWf := by
  simp [State.raiseCounters]

@[simp] theorem memoryWf_commitSvn (s : State) : (commitSvn s).memoryWf = s.memoryWf := by
  simp [commitSvn]

@[simp] theorem memoryWf_recoveryBegin (s : State) (slot : Nat) : (recoveryBegin s slot).memoryWf = s.memoryWf := (rfl)

@[simp] theorem memoryWf_recoveryEnd (s : State) : (recoveryEnd s).memoryWf = s.memoryWf := by
  unfold recoveryEnd
  split <;> simp

@[simp] theorem memoryWf_writeFwCmd (s : State) (v : Word) : (writeFwCmd s v).memoryWf = s.memoryWf := by
  unfold writeFwCmd
  split
  · split <;> simp
  · split <;> simp

@[simp] theorem memoryWf_writeFwData (s : State) (v : Word) : (writeFwData s v).memoryWf = s.memoryWf := by
  unfold writeFwData
  split <;> simp

@[simp] theorem keeps_writeResetCtrl {s : State} (v : Word) (h : s.memoryWf = true) : (writeResetCtrl s v).memoryWf = true := by
  unfold writeResetCtrl
  split
  · exact h
  dsimp only
  split
  · exact keeps_warmReset 5 h
  · split <;> simp [h]
  · split <;> simp [h]
  · split <;> simp [h]
  · exact h

@[simp] theorem memoryWf_spReturns (s : State) : (s.spReturns).memoryWf = s.memoryWf := by
  simp [State.spReturns]

theorem wf_dbgGroup {s : State} {f slot : Nat} {g : Group} (hd : s.dbgGroup = some (f, slot, g)) (h : s.memoryWf = true) :
    groupWf g = true := by
  unfold State.dbgGroup at hd
  dsimp only at hd
  split at hd
  · cases hd
  split at hd
  · next k hk =>
    obtain ⟨-, hd⟩ := Option.ite_none_right_eq_some.1 hd
    cases hd
    exact wf_group h hk
  · cases hd

@[simp] theorem keeps_letGo {s : State} (f slot : Nat) {g : Group} (k : Halt) (h : s.memoryWf = true) (hg : groupWf g = true) :
    (s.letGo f slot g k).memoryWf = true := by
  unfold State.letGo
  split <;> simp [h, hg]

@[simp] theorem keeps_writeDbgCmd {s : State} (v : Word) (h : s.memoryWf = true) : (writeDbgCmd s v).memoryWf = true := by
  unfold writeDbgCmd
  split
  · exact h
  next f slot g hd =>
  have hg := wf_dbgGroup hd h
  split
  · exact h
  split
  · split <;> simp [h, hg]
  · split <;> simp [h, hg]
  · split
    · exact h
    split <;> simp [h, hg]
  · exact h

@[simp] theorem keeps_execHaltTakesEffect (f slot : Nat) {s : State} (h : s.memoryWf = true) :
    OutWf (execHaltTakesEffect f slot s) := by
  unfold execHaltTakesEffect
  split
  · exact h
  next g hgr =>
  dsimp only
  rw [outWf_next]
  split
  · simp [h, wf_group h hgr]
  · exact h

@[simp] theorem keeps_writeDbgEnable {s : State} (v : Word) (h : s.memoryWf = true) : (writeDbgEnable s v).memoryWf = true := by
  refine keeps_foldl _ (by simp [h]) fun t ht e _ => keeps_foldl _ ht fun u hu x _ => ?_
  split
  · next g hgr =>
    split
    · exact keeps_letGo _ _ _ hu (wf_group hu hgr)
    · exact hu
  · exact hu

@[simp] theorem keeps_setDbgWord {s : State} (f slot : Nat) {g : Group} (space idx : Nat) (v : Word) (h : s.memoryWf = true)
    (hg : groupWf g = true) : (s.setDbgWord f slot g space idx v).memoryWf = true := by
  unfold State.setDbgWord
  split
  · split <;> simp [h, hg]
  · split
    · exact keeps_setGroup f slot h (groupWf_setU _ _ hg)
    · split <;> simp [h, hg]
  · split
    · simp [h, hg]
    · dsimp only
      split <;> simp [h, hg]
  · split
    · exact h
    · split
      · exact h
      · exact keeps_updBlock f g.block h fun _ hx => wf_write _ _ hx

@[simp] theorem memoryWf_dbgAdvance (s : State) : (s.dbgAdvance).memoryWf = s.memoryWf := (rfl)

@[simp] theorem memoryWf_readDbgData (s : State) : (readDbgData s).1.memoryWf = s.memoryWf := by
  simp only [readDbgData]
  split <;> simp

@[simp] theorem keeps_writeDbgData {s : State} (v : Word) (h : s.memoryWf = true) : (writeDbgData s v).memoryWf = true := by
  unfold writeDbgData
  dsimp only
  rw [memoryWf_dbgAdvance]
  split
  · next f slot g hd =>
    split
    · exact keeps_setDbgWord f slot _ _ v h (wf_dbgGroup hd h)
    · simp [h]
  · simp [h]

end Sys2Proof.Laws
end

section
/-! SUPPORT. Window accesses keep the memories and tables in canonical form. -/

namespace Sys2Proof.Laws

open Sys2Proof Sys2Proof.Machine

@[simp] theorem memoryWf_plainWrite (s : State) (j a : Nat) (v : Word) : (s.plainWrite j a v).memoryWf = s.memoryWf := by
  unfold State.plainWrite
  split <;> simp

@[simp] theorem memoryWf_writeGnCfg (s : State) (v : Word) : (writeGnCfg s v).memoryWf = s.memoryWf := (rfl)

theorem keeps_ite {c : Prop} [Decidable c] {s t : State} (hs : s.memoryWf = true) (ht : t.memoryWf = true) :
    (if c then s else t).memoryWf = true := by
  split <;> assumption

@[simp] theorem keeps_writePf0 {s : State} (a : Nat) (v : Word) (h : s.memoryWf = true) : (writePf0 s a v).memoryWf = true := by
  unfold writePf0
  refine keeps_ite ?_ (keeps_ite (keeps_writeDbgEnable v h) (keeps_ite (keeps_writeDbgCmd v h) (keeps_ite (keeps_writeDbgData v h) ?_)))
  · dsimp only
    refine keeps_ite (keeps_writeTenCtrl _ v h) ?_
    split <;> simp [h]
  · refine keeps_ite ?_ (keeps_ite ?_ (keeps_ite ?_ (keeps_ite ?_ (keeps_ite ?_ (keeps_ite ?_
      (keeps_ite (keeps_writeDecAnswer v h) (keeps_ite ?_ (keeps_ite ?_ (keeps_ite ?_ (keeps_ite ?_ (keeps_ite ?_ (keeps_ite ?_
      (keeps_ite ?_ (keeps_ite ?_ (keeps_ite ?_ (keeps_ite ?_ (keeps_ite (keeps_writeResetCtrl v h)
      (keeps_ite ?_ ?_)))))))))))))))))) <;> simp [h]

@[simp] theorem keeps_writeVf {s : State} (j a : Nat) (v : Word) (h : s.memoryWf = true) : (writeVf s j a v).memoryWf = true := by
  unfold writeVf
  refine keeps_ite ?_ (keeps_ite ?_ (keeps_ite (keeps_writeTenSelf j v h) (keeps_ite ?_ (keeps_ite ?_ (keeps_ite ?_ ?_)))))
  · dsimp only
    refine keeps_ite ?_ ?_
    · simp [h]
    · split <;> simp [h]
  all_goals simp [h]

@[simp] theorem keeps_applyWrite {s : State} (j a : Nat) (v : Word) (h : s.memoryWf = true) :
    (s.applyWrite j a v).memoryWf = true := by
  simp [State.applyWrite, h]

@[simp] theorem keeps_capture {s : State} (j a size : Nat) (v : Word) (h : s.memoryWf = true) :
    (s.capture j a size v).memoryWf = true := by
  unfold State.capture
  refine keeps_ite h (keeps_ite ?_ (keeps_ite (keeps_applyWrite j a v h) (keeps_ite ?_ ?_))) <;> simp [h]

@[simp] theorem memoryWf_windowAnswer (s : State) (j a : Nat) (v : Word) : (s.windowAnswer j a v).memoryWf = s.memoryWf := (rfl)

@[simp] theorem memoryWf_answerDbgData (s : State) : (s.answerDbgData).memoryWf = s.memoryWf := by
  simp [State.answerDbgData]

@[simp] theorem keeps_applyAccess {s : State} (a : Held) (h : s.memoryWf = true) : (s.applyAccess a).memoryWf = true := by
  simp [State.applyAccess, h]

@[simp] theorem memoryWf_retryReads (s : State) : (s.retryReads).memoryWf = s.memoryWf := by
  simp [State.retryReads]

@[simp] theorem keeps_applyHeld {s : State} (n : Nat) (h : s.memoryWf = true) : (s.applyHeld n).memoryWf = true := by
  induction n generalizing s with
  | zero => exact h
  | succ n ih =>
    unfold State.applyHeld
    split
    · exact h
    split
    · exact h
    · exact ih (keeps_applyAccess _ (by simp [h]))

@[simp] theorem keeps_mpReturns {s : State} (h : s.memoryWf = true) : s.mpReturns.memoryWf = true := keeps_applyHeld _ h

@[simp] theorem keeps_execWindowWrite (j addr size : Nat) (v : Word) {s : State} (h : s.memoryWf = true) :
    OutWf (execWindowWrite j addr size v s) := by
  simp [execWindowWrite, h]

@[simp] theorem keeps_execWindowBadSizeRead (j addr size : Nat) {s : State} (h : s.memoryWf = true) :
    OutWf (execWindowBadSizeRead j addr size s) := by
  unfold execWindowBadSizeRead
  split <;> simp [h]

@[simp] theorem keeps_command {s : State} (ok : Bool) (j a : Nat) (v : Word) (h : s.memoryWf = true) :
    OutWf (s.command ok j a v) :=
  keeps_ite (keeps_capture j a 4 v h) h

@[simp] theorem keeps_execDbgHalt {s : State} (h : s.memoryWf = true) : OutWf (execDbgHalt s) := by
  simp [execDbgHalt, h]

@[simp] theorem keeps_execDbgResume {s : State} (h : s.memoryWf = true) : OutWf (execDbgResume s) := by
  simp [execDbgResume, h]

@[simp] theorem keeps_execDbgStep {s : State} (h : s.memoryWf = true) : OutWf (execDbgStep s) := by
  simp [execDbgStep, h]

@[simp] theorem keeps_execDbgDataWrite (v : Word) {s : State} (h : s.memoryWf = true) : OutWf (execDbgDataWrite v s) := by
  simp [execDbgDataWrite, h]

@[simp] theorem keeps_execDbgEnableWrite (v : Word) {s : State} (h : s.memoryWf = true) : OutWf (execDbgEnableWrite v s) := by
  simp [execDbgEnableWrite, h]

@[simp] theorem keeps_execDbgDataRead {s : State} (h : s.memoryWf = true) : OutWf (execDbgDataRead s) := by
  unfold execDbgDataRead
  split
  · simp [h]
  split
  · simp [h]
  · split <;> simp [h]

@[simp] theorem keeps_execPinCmdPin (j : Nat) {s : State} (h : s.memoryWf = true) : OutWf (execPinCmdPin j s) := by
  simp [execPinCmdPin, h]

@[simp] theorem keeps_execPinCmdUnpin (j : Nat) {s : State} (h : s.memoryWf = true) : OutWf (execPinCmdUnpin j s) := by
  simp [execPinCmdUnpin, h]

@[simp] theorem keeps_execHullQuotaWrite (j : Nat) (v : Word) {s : State} (h : s.memoryWf = true) :
    OutWf (execHullQuotaWrite j v s) := by
  simp [execHullQuotaWrite, h]

@[simp] theorem keeps_execHullTgCfgWrite (j : Nat) (v : Word) {s : State} (h : s.memoryWf = true) :
    OutWf (execHullTgCfgWrite j v s) := by
  simp [execHullTgCfgWrite, h]

@[simp] theorem keeps_execMemVerifyWrite (v : Word) {s : State} (h : s.memoryWf = true) : OutWf (execMemVerifyWrite v s) := by
  simp [execMemVerifyWrite, h]

@[simp] theorem keeps_execHbmInjectWrite (v : Word) {s : State} (h : s.memoryWf = true) : OutWf (execHbmInjectWrite v s) := by
  simp [execHbmInjectWrite, h]

@[simp] theorem keeps_execChordFnPosWrite (j : Nat) (v : Word) {s : State} (h : s.memoryWf = true) :
    OutWf (execChordFnPosWrite j v s) := by
  simp [execChordFnPosWrite, h]

@[simp] theorem keeps_portCmd {s : State} (p cmd : Nat) (h : s.memoryWf = true) : OutWf (s.portCmd p cmd) := by
  simp [State.portCmd, h]

@[simp] theorem keeps_execPortCmdRetrainFull (p : Nat) {s : State} (h : s.memoryWf = true) :
    OutWf (execPortCmdRetrainFull p s) := by
  simp [execPortCmdRetrainFull, h]

@[simp] theorem keeps_execPortCmdRetrainReduced (p : Nat) {s : State} (h : s.memoryWf = true) :
    OutWf (execPortCmdRetrainReduced p s) := by
  simp [execPortCmdRetrainReduced, h]

@[simp] theorem keeps_execPortCmdKeepOut (p : Nat) {s : State} (h : s.memoryWf = true) : OutWf (execPortCmdKeepOut p s) := by
  simp [execPortCmdKeepOut, h]

@[simp] theorem keeps_execLocusCfgWrite (j r : Nat) (v : Word) {s : State} (h : s.memoryWf = true) :
    OutWf (execLocusCfgWrite j r v s) := by
  simp [execLocusCfgWrite, h]

@[simp] theorem keeps_execHifSelectWrite (j : Nat) (v : Word) {s : State} (h : s.memoryWf = true) :
    OutWf (execHifSelectWrite j v s) := by
  simp [execHifSelectWrite, h]

@[simp] theorem keeps_execTenEnable (j : Nat) {s : State} (h : s.memoryWf = true) : OutWf (execTenEnable j s) := by
  simp [execTenEnable, h]

@[simp] theorem keeps_execTenDisable (j : Nat) {s : State} (h : s.memoryWf = true) : OutWf (execTenDisable j s) := by
  simp [execTenDisable, h]

@[simp] theorem keeps_execTenCtrlReset (j : Nat) {s : State} (h : s.memoryWf = true) : OutWf (execTenCtrlReset j s) := by
  simp [execTenCtrlReset, h]

@[simp] theorem keeps_execTenSelfReset (j : Nat) {s : State} (h : s.memoryWf = true) : OutWf (execTenSelfReset j s) := by
  simp [execTenSelfReset, h]

@[simp] theorem keeps_execSrSeedHiWrite (j : Nat) (v : Word) {s : State} (h : s.memoryWf = true) :
    OutWf (execSrSeedHiWrite j v s) := by
  simp [execSrSeedHiWrite, h]

@[simp] theorem keeps_execDrainAbortStore (j : Nat) {s : State} (h : s.memoryWf = true) : OutWf (execDrainAbortStore j s) := by
  simp [execDrainAbortStore, h]

@[simp] theorem keeps_execGnGenSelWrite (v : Word) {s : State} (h : s.memoryWf = true) : OutWf (execGnGenSelWrite v s) := by
  simp [execGnGenSelWrite, h]

@[simp] theorem keeps_execGnRestore (v : Word) {s : State} (h : s.memoryWf = true) : OutWf (execGnRestore v s) := by
  simp [execGnRestore, h]

@[simp] theorem keeps_execGnRestoreCancel {s : State} (h : s.memoryWf = true) : OutWf (execGnRestoreCancel s) := by
  simp [execGnRestoreCancel, h]

@[simp] theorem keeps_execDecAnswerWrite (v : Word) {s : State} (h : s.memoryWf = true) : OutWf (execDecAnswerWrite v s) := by
  simp [execDecAnswerWrite, h]

@[simp] theorem keeps_execSpareTakeWrite (v : Word) {s : State} (h : s.memoryWf = true) : OutWf (execSpareTakeWrite v s) := by
  simp [execSpareTakeWrite, h]

@[simp] theorem keeps_execLifeSelWrite (v : Word) {s : State} (h : s.memoryWf = true) : OutWf (execLifeSelWrite v s) := by
  simp [execLifeSelWrite, h]

@[simp] theorem keeps_execPwrCmdP0 {s : State} (h : s.memoryWf = true) : OutWf (execPwrCmdP0 s) := by
  simp [execPwrCmdP0, h]

@[simp] theorem keeps_execPwrCmdS1 {s : State} (h : s.memoryWf = true) : OutWf (execPwrCmdS1 s) := by
  simp [execPwrCmdS1, h]

@[simp] theorem keeps_execPwrCmdS2 {s : State} (h : s.memoryWf = true) : OutWf (execPwrCmdS2 s) := by
  simp [execPwrCmdS2, h]

@[simp] theorem keeps_execGateCmdWrite (v : Word) {s : State} (h : s.memoryWf = true) : OutWf (execGateCmdWrite v s) := by
  simp [execGateCmdWrite, h]

@[simp] theorem keeps_execLevelCfgWrite (v : Word) {s : State} (h : s.memoryWf = true) : OutWf (execLevelCfgWrite v s) := by
  simp [execLevelCfgWrite, h]

@[simp] theorem keeps_execFwStage (slot : Nat) {s : State} (h : s.memoryWf = true) : OutWf (execFwStage slot s) := by
  simp [execFwStage, h]

@[simp] theorem keeps_execFwActivate {s : State} (h : s.memoryWf = true) : OutWf (execFwActivate s) := by
  simp [execFwActivate, h]

@[simp] theorem keeps_execFwCommitSvn {s : State} (h : s.memoryWf = true) : OutWf (execFwCommitSvn s) := by
  simp [execFwCommitSvn, h]

@[simp] theorem keeps_execFwRecoveryBegin (slot : Nat) {s : State} (h : s.memoryWf = true) :
    OutWf (execFwRecoveryBegin slot s) := by
  simp [execFwRecoveryBegin, h]

@[simp] theorem keeps_execFwDataWrite (v : Word) {s : State} (h : s.memoryWf = true) : OutWf (execFwDataWrite v s) := by
  simp [execFwDataWrite, h]

@[simp] theorem keeps_execFwRecoveryEnd {s : State} (h : s.memoryWf = true) : OutWf (execFwRecoveryEnd s) := by
  simp [execFwRecoveryEnd, h]

@[simp] theorem keeps_execResetCtrlWarm {s : State} (h : s.memoryWf = true) : OutWf (execResetCtrlWarm s) := by
  simp [execResetCtrlWarm, h]

@[simp] theorem keeps_execResetCtrlCold {s : State} (h : s.memoryWf = true) : OutWf (execResetCtrlCold s) := by
  simp [execResetCtrlCold, h]

@[simp] theorem keeps_execResetCtrlFacet (die mm : Nat) {s : State} (h : s.memoryWf = true) :
    OutWf (execResetCtrlFacet die mm s) := by
  simp [execResetCtrlFacet, h]

@[simp] theorem keeps_execResetCtrlPort (p : Nat) {s : State} (h : s.memoryWf = true) : OutWf (execResetCtrlPort p s) := by
  simp [execResetCtrlPort, h]

@[simp] theorem keeps_execLogSelWrite (v : Word) {s : State} (h : s.memoryWf = true) : OutWf (execLogSelWrite v s) := by
  simp [execLogSelWrite, h]

end Sys2Proof.Laws
end

section
/-! SUPPORT. The start, the side interfaces and the passing of time keep the memories and tables in canonical form. -/

namespace Sys2Proof.Laws

open Sys2Proof Sys2Proof.Machine

@[simp] theorem keeps_execSupplyFirst47v {s : State} (h : s.memoryWf = true) : OutWf (execSupplyFirst47v s) := by
  simp [execSupplyFirst47v, h]

@[simp] theorem keeps_execInrushLimitEnd {s : State} (h : s.memoryWf = true) : OutWf (execInrushLimitEnd s) := by
  simp [execInrushLimitEnd, h]

@[simp] theorem keeps_execModResetAssert {s : State} (h : s.memoryWf = true) : OutWf (execModResetAssert s) := by
  simp [execModResetAssert, h]

@[simp] theorem keeps_execModResetRelease {s : State} (h : s.memoryWf = true) : OutWf (execModResetRelease s) := by
  simp [execModResetRelease, h]

@[simp] theorem keeps_execHostPerstAssert {s : State} (h : s.memoryWf = true) : OutWf (execHostPerstAssert s) := by
  unfold execHostPerstAssert
  split <;> simp [h]

@[simp] theorem keeps_execHostPerstRelease {s : State} (h : s.memoryWf = true) : OutWf (execHostPerstRelease s) := by
  simp [execHostPerstRelease, h]

@[simp] theorem keeps_execCxlLinkUp {s : State} (h : s.memoryWf = true) : OutWf (execCxlLinkUp s) := by
  simp only [execCxlLinkUp]
  split
  · split <;> simp [h]
  · split <;> simp [h]
  · split <;> simp [h]
  · simp [h]

@[simp] theorem memoryWf_assignPositions (s : State) : (s.assignPositions).memoryWf = s.memoryWf := by
  simp [State.assignPositions]

@[simp] theorem memoryWf_loadRemaps (s : State) (rows : List (Nat × Nat × Nat × Nat × Nat)) :
    (s.loadRemaps rows).memoryWf = s.memoryWf := (rfl)

@[simp] theorem memoryWf_seal (s : State) : (s.seal).memoryWf = s.memoryWf := (rfl)

@[simp] theorem memoryWf_invalidRegion (s : State) (region cause : Nat) :
    (s.invalidRegion region cause).memoryWf = s.memoryWf := (rfl)

@[simp] theorem memoryWf_setIdentity (s : State) (id : Nat) (key : Option (List Byte)) :
    (s.setIdentity id key).memoryWf = s.memoryWf := (rfl)

@[simp] theorem memoryWf_unwrap (s : State) (puf : List Byte) : (s.unwrap puf).memoryWf = s.memoryWf := by
  simp only [State.unwrap]
  split
  · simp
  split
  · split <;> simp
  · simp

@[simp] theorem memoryWf_markBlocks (s : State) (l : List (Nat × Nat × Nat)) : (s.markBlocks l).memoryWf = s.memoryWf := by
  simp [State.markBlocks]

@[simp] theorem keeps_openUp {s : State} (x : StartReport) (h : s.memoryWf = true) : (s.openUp x).memoryWf = true := by
  unfold State.openUp
  extract_lets trained rebuilt marked hbm power boot up settled boot' opened
  have htrained : trained.memoryWf = true := keeps_foldl _ h fun t ht e _ => by simp [ht]
  have hmarked : marked.memoryWf = true := by simp [marked, rebuilt, htrained]
  have hup : up.memoryWf = true := by simp [up, hbm, hmarked]
  have hsettled : settled.memoryWf = true := by simp [settled, hup]
  clear_value settled
  refine keeps_mpReturns ?_
  simp only [opened]
  split <;> simp [hsettled]

@[simp] theorem keeps_recover {s : State} (h : s.memoryWf = true) : (s.recover).memoryWf = true := by
  simp [State.recover, h]

@[simp] theorem memoryWf_chooseSlot (s : State) (p : Nat) : (s.chooseSlot p).1.memoryWf = s.memoryWf := by
  simp only [State.chooseSlot]
  split
  · simp
  · split <;> simp

@[simp] theorem memoryWf_takeSite (s : State) : (s.takeSite).1.memoryWf = s.memoryWf := by
  simp only [State.takeSite]
  split
  · simp
  · split <;> simp

@[simp] theorem memoryWf_verify (s : State) (preferred : Nat) : (s.verify preferred).1.memoryWf = s.memoryWf := by
  have hchosen := memoryWf_chooseSlot s preferred
  unfold State.verify
  split
  · next t e => rwa [e] at hchosen
  next t slot e =>
  rw [e] at hchosen
  dsimp only at hchosen ⊢
  split
  · simpa using hchosen
  · simpa using hchosen

@[simp] theorem memoryWf_applySite (s : State) (b : Option (List Byte)) : (s.applySite b).memoryWf = s.memoryWf := by
  unfold State.applySite
  split <;> simp

@[simp] theorem memoryWf_showFallback (s : State) : (s.showFallback).memoryWf = s.memoryWf := by
  simp [State.showFallback]

@[simp] theorem keeps_coldStart {s : State} (x : StartReport) (h : s.memoryWf = true) : (s.coldStart x).memoryWf = true := by
  unfold State.coldStart
  extract_lets filled
  have hfilled : filled.memoryWf = true := by simp [filled, h]
  have hv := (memoryWf_verify filled filled.boot.flash.preferred).trans hfilled
  clear_value filled
  split
  · next t e =>
    rw [e] at hv
    exact keeps_recover hv
  next t slot site e =>
  rw [e] at hv
  extract_lets record image boot taken bad out placed
  have hplaced : placed.memoryWf = true := by simp [placed, out, taken, hv]
  clear_value placed
  exact keeps_openUp x (keeps_life _ _ (by simp [hplaced]))

@[simp] theorem keeps_warmStart {s : State} (x : StartReport) (h : s.memoryWf = true) : (s.warmStart x).memoryWf = true := by
  unfold State.warmStart
  split
  · simp [h]
  have hv := (memoryWf_verify s s.boot.active).trans h
  split
  · next t e =>
    rw [e] at hv
    exact keeps_recover hv
  next t slot site e =>
  rw [e] at hv
  dsimp only at hv
  extract_lets boot shown defaulted boot' reported unwrapped bad faulted woken
  have hshown : shown.memoryWf = true := by simp [shown, hv]
  have hreported : reported.memoryWf = true := by
    simp only [reported, defaulted]
    split <;> simp [hshown]
  have hfaulted : faulted.memoryWf = true :=
    keeps_foldl _ (by simp [unwrapped, hreported]) fun u hu f _ => keeps_facetFault f hu
  have hwoken : woken.memoryWf = true := by simp [woken, hfaulted]
  clear_value woken
  exact keeps_openUp x (keeps_life _ _ (by simp [hwoken]))

@[simp] theorem keeps_execStartComplete (x : StartReport) {s : State} (h : s.memoryWf = true) : OutWf (execStartComplete x s) := by
  unfold execStartComplete
  exact outWf_ite h (outWf_ite (outWf_ite h (keeps_warmStart x h)) (keeps_coldStart x h))

@[simp] theorem keeps_execHandoverPhaseDone {s : State} (h : s.memoryWf = true) : OutWf (execHandoverPhaseDone s) := by
  simp only [execHandoverPhaseDone]
  split
  · simp [h]
  · split <;> simp [h]
  · simp [h]
  · simp [h]
  · simp [h]
  · simp [h]

@[simp] theorem keeps_execProcCrash (proc kind : Nat) {s : State} (h : s.memoryWf = true) : OutWf (execProcCrash proc kind s) := by
  unfold execProcCrash
  split
  · simp [h]
  · split <;> simp [h]

@[simp] theorem keeps_procBack {s : State} (proc : Nat) (h : s.memoryWf = true) : (s.procBack proc).memoryWf = true := by
  unfold State.procBack
  split <;> simp [h]

@[simp] theorem keeps_execProcRestart (proc : Nat) {s : State} (h : s.memoryWf = true) : OutWf (execProcRestart proc s) := by
  unfold execProcRestart
  split
  · simp [h]
  · split <;> simp [h]

@[simp] theorem keeps_execProcRestartTimeout (proc : Nat) {s : State} (h : s.memoryWf = true) :
    OutWf (execProcRestartTimeout proc s) := by
  unfold execProcRestartTimeout
  split <;> simp [h]

@[simp] theorem keeps_execWakeComplete {s : State} (h : s.memoryWf = true) : OutWf (execWakeComplete s) := by
  have hwoken : s.finishWake.memoryWf = true := by simp [h]
  unfold execWakeComplete
  refine outWf_ite h (outWf_ite (keeps_pumpAll (keeps_landAll hwoken)) (outWf_ite h ?_))
  refine keeps_pumpAll (keeps_landAll (keeps_mpReturns ?_))
  split <;> simp [hwoken]

@[simp] theorem keeps_execPllLock (pll : Nat) {s : State} (h : s.memoryWf = true) : OutWf (execPllLock pll s) := by
  unfold execPllLock
  refine outWf_ite h ?_
  extract_lets t
  have ht : t.memoryWf = true := keeps_pumpAll (by simp [h])
  clear_value t
  refine keeps_mpReturns ?_
  split <;> simp [ht]

@[simp] theorem keeps_execI3cOffsetWrite (offset : Byte) {s : State} (h : s.memoryWf = true) :
    OutWf (execI3cOffsetWrite offset s) := by
  simp [execI3cOffsetWrite, h]

@[simp] theorem memoryWf_i3cByte (s : State) : (s.i3cByte).1.memoryWf = s.memoryWf := (rfl)

@[simp] theorem memoryWf_i3cBytes (s : State) (n : Nat) : (s.i3cBytes n).1.memoryWf = s.memoryWf := by
  induction n generalizing s with
  | zero => rfl
  | succ n ih => exact (ih _).trans (memoryWf_i3cByte s)

@[simp] theorem keeps_execI3cRead (count : Nat) {s : State} (h : s.memoryWf = true) : OutWf (execI3cRead count s) := by
  unfold execI3cRead
  dsimp only
  rw [outWf_next, memoryWf_answer, memoryWf_i3cBytes]
  exact h

@[simp] theorem keeps_execRstdaa {s : State} (h : s.memoryWf = true) : OutWf (execRstdaa s) := by
  simp [execRstdaa, h]

@[simp] theorem memoryWf_takeAddress (s : State) (a : Nat) : (s.takeAddress a).memoryWf = s.memoryWf := by
  simp [State.takeAddress]

@[simp] theorem keeps_execEntdaa (addr : Nat) {s : State} (h : s.memoryWf = true) : OutWf (execEntdaa addr s) := by
  simp [execEntdaa, h]

@[simp] theorem keeps_execSetdasa (addr : Nat) {s : State} (h : s.memoryWf = true) : OutWf (execSetdasa addr s) := by
  simp [execSetdasa, h]

@[simp] theorem memoryWf_ccc (s : State) (code : Nat) (bytes : List Byte) : (s.ccc code bytes).memoryWf = s.memoryWf := by
  simp [State.ccc]

@[simp] theorem keeps_execGetpid {s : State} (h : s.memoryWf = true) : OutWf (execGetpid s) :=
  (memoryWf_ccc s _ _).trans h

@[simp] theorem keeps_execGetbcr {s : State} (h : s.memoryWf = true) : OutWf (execGetbcr s) := by
  simp [execGetbcr, h]

@[simp] theorem keeps_execGetdcr {s : State} (h : s.memoryWf = true) : OutWf (execGetdcr s) := by
  simp [execGetdcr, h]

@[simp] theorem keeps_execGetstatus {s : State} (h : s.memoryWf = true) : OutWf (execGetstatus s) := by
  unfold execGetstatus
  split <;> simp [h]

@[simp] theorem keeps_execDoeRequest (object : List Byte) {s : State} (h : s.memoryWf = true) :
    OutWf (execDoeRequest object s) := by
  simp only [execDoeRequest]
  split
  · simp [h]
  · split <;> simp [h]

@[simp] theorem keeps_tickFacets {s : State} (h : s.memoryWf = true) : s.tickFacets.memoryWf = true := by
  refine keeps_withFacets h (facetsWf_map _ (fun e he => ?_) (wf_facets h))
  dsimp only
  split
  · exact tablesWf_tick _ he
  · exact he

@[simp] theorem keeps_tick {s : State} (h : s.memoryWf = true) : s.tick.memoryWf = true := by
  unfold State.tick
  extract_lets out timed counted
  have htimed : timed.memoryWf = true := keeps_life _ _ (by simp [h])
  refine keeps_tickFacets ?_
  simp only [counted]
  split
  · exact keeps_life _ _ (by simp [htimed])
  · exact htimed

end Sys2Proof.Laws
end

section
/-! PROOF. Every step keeps the memories and tables in canonical form (O60). -/

namespace Sys2Proof.Laws

open Sys2Proof Sys2Proof.Machine

/-- Every command has its own lemma above, and one of them is cited for each. -/
theorem keeps_exec (c : Instr) {s : State} (h : s.memoryWf = true) : OutWf (exec c s) := by
  cases c <;> simp [exec, h]

theorem keeps_step {s : State} (h : s.memoryWf = true) : OutWf (step s) := by
  unfold step
  split
  · exact keeps_tick h
  · exact keeps_exec _ (by simp [h])

/-- Settles O60: the invariant is proved of every operation of the model, then of every command and of a cycle without one. -/
theorem memoryInvariant : Obligations.MemoryInvariant := by
  unfold Obligations.MemoryInvariant
  intro s t h ht
  have hstep := keeps_step h
  rwa [ht, outWf_next] at hstep

end Sys2Proof.Laws
end

section
/-! PROOF. A step without a command is one cycle of the always-on clock (O58). -/

namespace Sys2Proof.Laws

open Sys2Proof Sys2Proof.Machine

/-- An entry of a keyed list after a map that keeps the keys. -/
theorem aget_map (f : Nat → α → β) (l : List (Nat × α)) (k : Nat) :
    aget? (l.map (fun e => (e.1, f e.1 e.2))) k = (aget? l k).map (f k) := by
  induction l with
  | nil => rfl
  | cons e l ih =>
    simp only [List.map_cons, aget?]
    split
    · next hk => rw [hk, Option.map_some]
    · exact ih

/-- A group keeps its registers, its predicates and its place in the code. -/
def SameProgram (g h : Group) : Prop := h.v = g.v ∧ h.u = g.u ∧ h.p = g.p ∧ h.pc = g.pc

theorem SameProgram.refl (g : Group) : SameProgram g g := ⟨rfl, rfl, rfl, rfl⟩

/-- A group of a Facet after `n` more half cycles of its clock (R73, R75). -/
def tickGroup (x : Facet) (n : Nat) (g : Group) : Group :=
  if g.done || x.groups.any (fun e => e.2.block == g.block && e.2.halt == .halted) then g else { g with progress := g.progress + n }

theorem groups_tick (x : Facet) (parts : Nat) :
    (x.tick parts).groups = x.groups.map (fun e => (e.1, tickGroup x ((x.parts + parts) / 64) e.2)) := rfl

theorem sameProgram_tickGroup (x : Facet) (n : Nat) (g : Group) : SameProgram g (tickGroup x n g) := by
  unfold tickGroup
  split <;> exact ⟨rfl, rfl, rfl, rfl⟩

theorem group_tick {x : Facet} {slot : Nat} {g : Group} (parts : Nat) (hg : aget? x.groups slot = some g) :
    ∃ h, aget? (x.tick parts).groups slot = some h ∧ SameProgram g h := by
  refine ⟨_, ?_, sameProgram_tickGroup x ((x.parts + parts) / 64) g⟩
  rw [groups_tick, aget_map (fun _ => tickGroup x ((x.parts + parts) / 64)), hg, Option.map_some]

theorem aget_of_agetD {l : List (Nat × Facet)} {f slot : Nat} {g : Group} (h : aget? (agetD l f {}).groups slot = some g) :
    ∃ x, aget? l f = some x ∧ aget? x.groups slot = some g := by
  unfold agetD at h
  cases hx : aget? l f with
  | none => simp [hx, aget?] at h
  | some x => exact ⟨x, rfl, by simpa [hx] using h⟩

theorem group_tickFacets {s : State} {f slot : Nat} {g : Group} (hg : s.group? f slot = some g) :
    ∃ h, s.tickFacets.group? f slot = some h ∧ SameProgram g h := by
  obtain ⟨x, hx, hslot⟩ := aget_of_agetD hg
  have hmap := aget_map (fun f x => if s.facetRuns f then x.tick (5 * s.facetRate (f / 52)) else x) s.facets f
  rw [hx, Option.map_some] at hmap
  rw [State.group?, State.facet, agetD, State.tickFacets, hmap, Option.getD_some]
  split
  · exact group_tick _ hslot
  · exact ⟨g, hslot, .refl g⟩

theorem wf_life_live {s : State} (k n : Nat) (hw : tableWf 64 s.life.live = true) : tableWf 64 (s.life! k n).life.live = true :=
  tableWf_tset _ _ hw

theorem live_life_ne {s : State} {k m : Nat} (n : Nat) (hw : tableWf 64 s.life.live = true) (hm : m ≠ k) :
    tget (s.life! k n).life.live m = tget s.life.live m :=
  (life_life s k n m hw).trans (if_neg hm)

theorem live_life_succ {s : State} {k : Nat} (hw : tableWf 64 s.life.live = true) (hn : (tget s.life.live k).toNat < 2 ^ 64 - 1) :
    (tget (s.life! k 1).life.live k).toNat = (tget s.life.live k).toNat + 1 := by
  rw [life_life s k 1 k hw, if_pos rfl, BitVec.toNat_ofNat]
  omega

/-- What one cycle counts, before the Facets' clocks run. -/
theorem tick_counts (s : State) (hw : tableWf 64 s.life.live = true) (hn : (tget s.life.live 0x110).toNat < 2 ^ 64 - 1) :
    ∃ t : State, s.tick = t.tickFacets ∧ t = { s with now := s.now + 1, fns := t.fns, life := t.life } ∧
      (tget t.life.live 0x110).toNat = (tget s.life.live 0x110).toNat + 1 ∧
      t.reg 0 Reg.avail = if s.unavailable then addCount (s.reg 0 Reg.avail) 31 0 1 else s.reg 0 Reg.avail := by
  refine ⟨_, rfl, ?_⟩
  have hup := live_life_succ (s := { s with now := s.now + 1 }) hw hn
  have hwf := wf_life_live (s := { s with now := s.now + 1 }) 0x110 1 hw
  generalize hc : ({ s with now := s.now + 1 } : State).life! 0x110 1 = c at hup hwf
  have hreg : c.reg 0 Reg.avail = s.reg 0 Reg.avail := by rw [← hc]; rfl
  have hrest : c = { s with now := s.now + 1, life := c.life } := by rw [← hc]; rfl
  split
  · have hdown := live_life_ne (s := c.count 0 Reg.avail 31 0 1) (k := 0x111) (m := 0x110) 1 hwf (by decide)
    refine ⟨by rw [hrest]; rfl, (congrArg BitVec.toNat hdown).trans hup, ?_⟩
    rw [← hreg]
    exact reg_setReg c 0 Reg.avail _
  · refine ⟨?_, hup, hreg⟩
    rw [hrest]

theorem step_of_no_command {s : State} (hp : s.pending = []) : step s = .next s.tick := by
  rw [step, hp]

/-- Settles O58: the cycle's counts, and that the Facets' clocks touch the progress counters alone. -/
theorem idleStepIsOneCycle : Obligations.IdleStepIsOneCycle := by
  unfold Obligations.IdleStepIsOneCycle
  intro s hp hw hn
  obtain ⟨t, htick, ht, hup, havail⟩ := tick_counts s hw hn
  refine ⟨s.tick, step_of_no_command hp, ?_⟩
  rw [htick]
  refine ⟨?_, hup, havail, ?_, ?_, ?_, ?_, ?_, ?_, ?_, ?_, fun f slot g hg => group_tickFacets ?_⟩ <;> rw [ht]
  case refine_2 => exact hp
  case refine_10 => exact hg
  all_goals rfl

end Sys2Proof.Laws
end

section
/-! PROOF. Accesses through the window: the size of an access, the presence of MP, plain registers, saturating counts (O45). -/

namespace Sys2Proof.Laws

open Sys2Proof Sys2Proof.Machine

theorem getLsbD_fieldMask {hi lo b : Nat} (hb : b < 32) : (fieldMask hi lo).getLsbD b = decide (lo ≤ b ∧ b ≤ hi) := by
  rw [fieldMask, BitVec.getLsbD_ofNat, Nat.testBit_shiftLeft, Nat.testBit_two_pow_sub_one]
  simp only [hb, decide_true, Bool.true_and, ← Bool.decide_and, decide_eq_decide, ge_iff_le]
  omega

theorem getLsbD_setField {w : Word} {hi lo b : Nat} (x : Nat) (hb : b < 32) :
    (setField w hi lo x).getLsbD b = if lo ≤ b ∧ b ≤ hi then x.testBit (b - lo) else w.getLsbD b := by
  rw [setField, BitVec.getLsbD_or, BitVec.getLsbD_and, BitVec.getLsbD_not, getLsbD_fieldMask hb, BitVec.getLsbD_ofNat,
    Nat.testBit_shiftLeft, Nat.testBit_mod_two_pow]
  by_cases h : lo ≤ b ∧ b ≤ hi
  · have : b - lo < hi + 1 - lo := by omega
    simp [h, hb, this]
  · have : ¬ (lo ≤ b ∧ b - lo < hi + 1 - lo) := by omega
    by_cases hlo : lo ≤ b
    · have : ¬ b - lo < hi + 1 - lo := fun h => this ⟨hlo, h⟩
      simp [h, hb, this]
    · simp [hb, hlo]

theorem testBit_field (w : Word) (hi lo i : Nat) : (field w hi lo).testBit i = (decide (i < hi + 1 - lo) && w.getLsbD (lo + i)) := by
  rw [field, fieldN, Nat.testBit_mod_two_pow, Nat.testBit_shiftRight]
  rfl

theorem field_setField {w : Word} {hi lo : Nat} (x : Nat) (hh : hi < 32) :
    field (setField w hi lo x) hi lo = x % 2 ^ (hi + 1 - lo) := by
  refine Nat.eq_of_testBit_eq fun i => ?_
  rw [testBit_field, Nat.testBit_mod_two_pow]
  by_cases hi' : i < hi + 1 - lo
  · rw [getLsbD_setField x (by omega), if_pos (by omega), Nat.add_sub_cancel_left]
  · simp [hi']

/-- A count stops at the largest value of its field (R20). -/
theorem field_addCount {hi lo : Nat} (w : Word) (n : Nat) (hh : hi < 32) :
    field (addCount w hi lo n) hi lo = min (2 ^ (hi + 1 - lo) - 1) (field w hi lo + n) := by
  have hpos := Nat.two_pow_pos (hi + 1 - lo)
  rw [addCount, field_setField _ hh, Nat.mod_eq_of_lt (by omega)]

theorem getLsbD_addCount_outside {hi lo b : Nat} (w : Word) (n : Nat) (hb : b < 32) (ho : b < lo ∨ hi < b) :
    (addCount w hi lo n).getLsbD b = w.getLsbD b := by
  rw [addCount, getLsbD_setField _ hb, if_neg (by omega)]

theorem onlyRegs_setReg (s : State) (j a : Nat) (v : Word) : OnlyRegs s (s.setReg j a v) (fun k x => k = j ∧ x = a) where
  rest := rfl
  regs k x hk := by rw [reg_setReg_iff, if_neg hk]
  fields k := by
    by_cases hk : k = j
    · rw [hk, State.setReg, fn_updFn]
    · rw [State.setReg, fn_updFn_ne _ _ hk]

theorem regF_setRegF (s : State) (j a : Nat) {hi lo : Nat} (x : Nat) (hh : hi < 32) :
    (s.setRegF j a hi lo x).regF j a hi lo = x % 2 ^ (hi + 1 - lo) := by
  rw [State.regF, State.setRegF, reg_setReg, field_setField x hh]

section
variable {s : State} {j a size : Nat} (v : Word) (hj : j ≤ 16) (hup : s.side.cxlUp = true)
include hj hup

/-- R379: an access of another size than 32 bits. -/
theorem capture_badSize (hbad : size ≠ 4 ∨ a % 4 ≠ 0) : s.capture j a size v = s.setRegF j Reg.winStatus 31 31 1 := by
  rw [State.capture, if_neg (by simp [hup, hj]), if_pos (by simpa using hbad)]

theorem capture_aligned (ha : a % 4 = 0) : s.capture j a 4 v =
    if s.serves j then s.applyWrite j a v
    else if (s.held.filter (fun h => h.fn == j && !h.read)).length < 32 then
      { s with held := s.held ++ [{ fn := j, addr := a, size := 4, value := v }] }
    else s.count j Reg.winStatus 15 0 1 := by
  rw [State.capture, if_neg (by simp [hup, hj]), if_neg (by simp [ha])]

theorem badSizeRead_answers (hbad : size ≠ 4 ∨ a % 4 ≠ 0) : exec (.windowBadSizeRead j a size) s =
    .next ((s.setRegF j Reg.winStatus 31 31 1).windowAnswer j a (if s.serves j then 0xFFFFFFFF else 0xFFFFFFFE)) := by
  have h4 : size = 4 → a % 4 ≠ 0 := fun h => hbad.resolve_left (absurd h)
  show execWindowBadSizeRead j a size s = _
  rw [execWindowBadSizeRead, if_neg (by simpa [hup, hj] using h4)]

end

/-! Plain registers (R16): the row of the register table, the write, and where the windows send it. -/

/-- Every VF's window holds the same registers (R378). -/
theorem regSpec?_vf {j : Nat} (a : Nat) (hj : j ≠ 0) : regSpec? j a = regSpec? 1 a := by
  have h : ∀ r : RegSpec, r.inWindow j = r.inWindow 1 := by
    intro r
    unfold RegSpec.inWindow
    split <;> simp [hj]
  simp only [regSpec?, h]

/-- The masks of a register's row are those the list of plain registers names. -/
theorem spec_of_plainRegs : ∀ e ∈ plainRegs, e.2.1 % 4 = 0 ∧ e.2.2.1 &&& e.2.2.2 = 0 ∧
    (regSpec? (if e.1 then 0 else 1) e.2.1).map (fun r => (r.rw, r.w1c)) = some (e.2.2.1, e.2.2.2) := by
  decide +kernel

/-- A write of one of them is no command of its window: no branch of `writePf0` or `writeVf` but the last is taken. -/
theorem write_of_plainRegs : ∀ e ∈ plainRegs,
    if e.1 then ∀ s v, writePf0 s e.2.1 v = s.plainWrite 0 e.2.1 v else ∀ s j v, writeVf s j e.2.1 v = s.plainWrite j e.2.1 v := by
  simp only [plainRegs, List.forall_mem_cons, List.not_mem_nil, false_implies, implies_true, ite_true, Bool.false_eq_true, ite_false,
    and_true]
  and_intros <;> intros <;> rfl

/-- What a plain write leaves in a register, bit for bit (R16). -/
theorem getLsbD_plain {old v rw w1c : Word} {b : Nat} (hd : rw &&& w1c = 0) (hb : b < 32) :
    ((old &&& ~~~ (rw ||| w1c)) ||| (v &&& rw &&& ~~~ w1c) ||| (old &&& ~~~ v &&& w1c)).getLsbD b =
      if rw.getLsbD b then v.getLsbD b
      else if w1c.getLsbD b then old.getLsbD b && !v.getLsbD b else old.getLsbD b := by
  have hdis : (rw.getLsbD b && w1c.getLsbD b) = false := by
    rw [← BitVec.getLsbD_and, hd]
    exact BitVec.getLsbD_zero
  simp only [BitVec.getLsbD_or, BitVec.getLsbD_and, BitVec.getLsbD_not, hb, decide_true, Bool.true_and]
  generalize old.getLsbD b = o, v.getLsbD b = x, rw.getLsbD b = r, w1c.getLsbD b = c at hdis ⊢
  revert o x r c
  decide

theorem plainWrite_spec {s : State} {j a : Nat} {rw w1c : Word} (v : Word) (hd : rw &&& w1c = 0)
    (hr : (regSpec? j a).map (fun r => (r.rw, r.w1c)) = some (rw, w1c)) :
    OnlyRegs s (s.plainWrite j a v) (fun k x => k = j ∧ x = a) ∧ ∀ b < 32,
      ((s.plainWrite j a v).reg j a).getLsbD b =
        if rw.getLsbD b then v.getLsbD b
        else if w1c.getLsbD b then (s.reg j a).getLsbD b && !v.getLsbD b else (s.reg j a).getLsbD b := by
  obtain ⟨r, hspec, hmask⟩ := Option.map_eq_some_iff.1 hr
  obtain ⟨rfl, rfl⟩ := Prod.mk.inj hmask
  simp only [State.plainWrite, hspec]
  refine ⟨onlyRegs_setReg _ _ _ _, fun b hb => ?_⟩
  rw [reg_setReg, getLsbD_plain hd hb]

theorem applyWrite_of_plainRegs {e : Bool × Nat × Word × Word} (he : e ∈ plainRegs) (s : State) {j : Nat} (v : Word)
    (hj : if e.1 then j = 0 else 1 ≤ j ∧ j ≤ 16) :
    s.applyWrite j e.2.1 v = s.plainWrite j e.2.1 v ∧
      (regSpec? j e.2.1).map (fun r => (r.rw, r.w1c)) = some (e.2.2.1, e.2.2.2) := by
  obtain ⟨-, -, hspec⟩ := spec_of_plainRegs e he
  have hwrite := write_of_plainRegs e he
  split at hj
  · next hpf =>
    rw [if_pos hpf] at hspec hwrite
    subst hj
    exact ⟨hwrite s v, hspec⟩
  · next hvf =>
    have hj0 : j ≠ 0 := by omega
    rw [if_neg hvf] at hspec hwrite
    rw [State.applyWrite, if_neg hj0, regSpec?_vf _ hj0]
    exact ⟨hwrite s j v, hspec⟩

/-- A plain register as a window write finds it (R16 to R18). -/
theorem windowWrite_plain {e : Bool × Nat × Word × Word} (he : e ∈ plainRegs) {s : State} {j : Nat} (v : Word)
    (hj : if e.1 then j = 0 else 1 ≤ j ∧ j ≤ 16) (ho : s.windowOpen j) :
    exec (.windowWrite j e.2.1 4 v) s = .next (s.plainWrite j e.2.1 v) := by
  obtain ⟨hup, hserves⟩ := ho
  have hj16 : j ≤ 16 := by split at hj <;> omega
  show Host.Outcome.next (s.capture j e.2.1 4 v) = _
  rw [capture_aligned v hj16 hup (spec_of_plainRegs e he).1, if_pos hserves, (applyWrite_of_plainRegs he s v hj).1]

theorem leBytes_answer (p : Bool) :
    leBytes 4 (if p then 0xFFFFFFFF else 0xFFFFFFFE : Word).toNat = [if p then 0xFF else 0xFE, 0xFF, 0xFF, 0xFF] := by
  cases p <;> rfl

/-- Settles O45: each case of the capture unit, the plain write bit for bit, and the saturating sum. -/
theorem windowAccess : Obligations.WindowAccess := by
  unfold Obligations.WindowAccess
  refine ⟨fun s j a size v hj hup => ⟨fun hbad => ?_, fun ha hs hroom => ?_, fun ha hs hfull => ?_, fun hbad => ?_⟩,
    fun e he s j v hj ho => ?_, fun w hi lo n _ hh => ⟨field_addCount w n hh, fun b hb ho => getLsbD_addCount_outside w n hb ho⟩⟩
  · refine ⟨_, congrArg Host.Outcome.next (capture_badSize v hj hup hbad), ?_, onlyRegs_setReg _ _ _ _⟩
    exact regF_setRegF s j Reg.winStatus 1 (by decide)
  · refine congrArg Host.Outcome.next ((capture_aligned v hj hup ha).trans ?_)
    rw [if_neg (by simp [hs]), if_pos hroom]
  · refine ⟨s.count j Reg.winStatus 15 0 1, congrArg Host.Outcome.next ((capture_aligned v hj hup ha).trans ?_), rfl, ?_⟩
    · rw [if_neg (by simp [hs]), if_neg (by omega)]
    · rw [State.regF, State.count, reg_setReg]
      exact field_addCount _ 1 (by decide)
  · refine ⟨_, badSizeRead_answers hj hup hbad, ?_, ?_, fun k x hk => ?_⟩
    · rw [← leBytes_answer]
      rfl
    · exact regF_setRegF s j Reg.winStatus 1 (by decide)
    · exact (onlyRegs_setReg s j Reg.winStatus _).regs k x hk
  · obtain ⟨-, hd, -⟩ := spec_of_plainRegs e he
    exact ⟨_, windowWrite_plain he v hj ho, plainWrite_spec v hd (applyWrite_of_plainRegs he s v hj).2⟩

end Sys2Proof.Laws
end

section
/-! PROOF. The integer instructions: the table of R107 on bit vectors, and the forms it makes illegal (O2). -/

namespace Sys2Proof.Laws

open Sys2Proof Sys2Proof.Machine

theorem low32_eq (x : Int) : low32 x = (BitVec.ofInt 32 x).toNat := by
  simp [low32, BitVec.toNat_ofInt]

theorem low64_eq (x : Int) : low64 x = (BitVec.ofInt 64 x).toNat := by
  simp [low64, BitVec.toNat_ofInt]

theorem low32_add (a b : Word) : low32 (a.toNat + b.toNat) = (a + b).toNat := by
  rw [low32_eq, ← Int.natCast_add, BitVec.ofInt_natCast, BitVec.toNat_ofNat, BitVec.toNat_add]

theorem low32_sub (a b : Word) : low32 (a.toNat - b.toNat : Int) = (a - b).toNat := by
  have := a.isLt
  have := b.isLt
  rw [low32, BitVec.toNat_sub]
  omega

theorem low32_mul (a b : Word) : low32 (a.toNat * b.toNat) = (a * b).toNat := by
  rw [low32_eq, ← Int.natCast_mul, BitVec.ofInt_natCast, BitVec.toNat_ofNat, BitVec.toNat_mul]

theorem low32_mad (a b c : Word) : low32 (a.toNat * b.toNat + c.toNat) = (a * b + c).toNat := by
  rw [low32_eq, ← Int.natCast_mul, ← Int.natCast_add, BitVec.ofInt_natCast, BitVec.toNat_ofNat, BitVec.toNat_add, BitVec.toNat_mul,
    Nat.mod_add_mod]

theorem signedN_toNat (a : Word) : signedN 32 a.toNat = a.toInt := by
  rw [BitVec.toInt_eq_toNat_cond]
  rfl

theorem intOfType_toNat (i : Ins) (a : Word) : intOfType i a.toNat = if i.type = 1 then a.toInt else (a.toNat : Int) := by
  rw [intOfType, signedN_toNat]

/-- The high half of a product, taken of the exact product or of its 64 bits. -/
theorem high32_eq (p : Int) : low32 (p / 2 ^ 32) = ((BitVec.ofInt 64 p).extractLsb' 32 32).toNat := by
  rw [low32, BitVec.extractLsb'_toNat, BitVec.toNat_ofInt, Nat.shiftRight_eq_div_pow]
  omega

theorem imulh_eq (i : Ins) (a b : Word) : low32 (intOfType i a.toNat * intOfType i b.toNat / 2 ^ 32) =
    (if i.type = 1 then (a.signExtend 64 * b.signExtend 64).extractLsb' 32 32
      else (a.setWidth 64 * b.setWidth 64).extractLsb' 32 32).toNat := by
  have hz (x : Word) : BitVec.ofInt 64 (x.toNat : Int) = x.setWidth 64 := by
    rw [BitVec.ofInt_natCast, BitVec.ofNat_toNat]
  rw [high32_eq, BitVec.ofInt_mul, intOfType_toNat, intOfType_toNat]
  split
  · rfl
  · rw [hz, hz]

theorem imin_eq (i : Ins) (a b : Word) : (if intOfType i b.toNat < intOfType i a.toNat then b.toNat else a.toNat) =
    (if (if i.type = 1 then b.slt a else b.ult a) then b else a).toNat := by
  rw [intOfType_toNat, intOfType_toNat]
  by_cases h : i.type = 1 <;> simp [h, BitVec.slt, BitVec.ult, apply_ite BitVec.toNat]

theorem imax_eq (i : Ins) (a b : Word) : (if intOfType i a.toNat < intOfType i b.toNat then b.toNat else a.toNat) =
    (if (if i.type = 1 then a.slt b else a.ult b) then b else a).toNat := by
  rw [intOfType_toNat, intOfType_toNat]
  by_cases h : i.type = 1 <;> simp [h, BitVec.slt, BitVec.ult, apply_ite BitVec.toNat]

theorem iabs_eq (a : Word) : low32 (signedN 32 a.toNat).natAbs = (if a.msb then -a else a).toNat := by
  rw [low32_eq, signedN_toNat, BitVec.msb_eq_toInt]
  by_cases h : a.toInt < 0
  · rw [if_pos (by simpa using h), Int.ofNat_natAbs_of_nonpos h.le, BitVec.ofInt_neg, BitVec.ofInt_toInt]
  · rw [if_neg (by simpa using h), Int.natAbs_of_nonneg (by omega), BitVec.ofInt_toInt]

theorem shl_eq (a : Word) (k : Nat) : low32 (a.toNat <<< k : Nat) = (a <<< k).toNat := by
  rw [low32_eq, BitVec.ofInt_natCast, BitVec.toNat_ofNat, BitVec.toNat_shiftLeft]

theorem sar_eq (a : Word) (k : Nat) : low32 (signedN 32 a.toNat / 2 ^ k) = (a.sshiftRight k).toNat := by
  rw [low32_eq, signedN_toNat, BitVec.sshiftRight, Int.shiftRight_eq_div_pow]
  norm_cast

theorem popc_eq (a : Word) : popCount (BitVec.ofNat 32 a.toNat) = (BitVec.ofNat 32 (countOnes a)).toNat := by
  have h : countOnes a ≤ 32 := List.countP_le_length.trans_eq List.length_range
  rw [BitVec.toNat_ofNat, Nat.mod_eq_of_lt (by omega), BitVec.ofNat_toNat, BitVec.setWidth_eq]
  exact List.countP_eq_length_filter.symm

theorem leadingZeros_of_ne_zero {a : Word} (h : a ≠ 0) : leadingZeros a = 31 - Nat.log2 a.toNat := by
  have h0 : a.toNat ≠ 0 := fun h' => h (BitVec.eq_of_toNat_eq h')
  have hlog : Nat.log2 a.toNat < 32 := (Nat.log2_lt h0).2 a.isLt
  have hfind : (List.range 32).find? (fun k => a.getLsbD (31 - k)) = some (31 - Nat.log2 a.toNat) := by
    rw [List.find?_range_eq_some]
    refine ⟨?_, by simp; omega, fun j hj => ?_⟩
    · rw [show 31 - (31 - Nat.log2 a.toNat) = Nat.log2 a.toNat by omega]
      exact Nat.testBit_log2 h0
    · rw [Bool.not_eq_true']
      exact Nat.testBit_lt_two_pow ((Nat.log2_lt h0).1 (by omega))
  rw [leadingZeros, hfind]
  rfl

theorem clz_eq (a : Word) : (if a.toNat = 0 then 32 else 31 - Nat.log2 a.toNat) = (BitVec.ofNat 32 (leadingZeros a)).toNat := by
  by_cases h : a = 0
  · subst h
    decide
  · have h0 : a.toNat ≠ 0 := fun h' => h (BitVec.eq_of_toNat_eq h')
    rw [if_neg h0, leadingZeros_of_ne_zero h, BitVec.toNat_ofNat, Nat.mod_eq_of_lt (by omega)]

/-- That the function a command computes a lane's result with is its rule in the table, on the values a lane can hold. -/
structure ComputesRule (e : WordRule) (fn : Ins → Lane → Nat) : Prop where
  command : ∀ f slot s, exec (e.cmd f slot) s = .next (issueInt s f slot e.op e.shape fn)
  spans : e.shape.a ≤ 1 ∧ e.shape.b ≤ 1 ∧ e.shape.c ≤ 1
  formats : e.shape.formats = [0, 1]
  value : ∀ (i : Ins) (a b c : Word) (d n : Nat), fn i ⟨a.toNat, b.toNat, c.toNat, d, n⟩ = (e.rule i a b c).toNat

/-- Every instruction of the table computes its rule. -/
theorem wordRules_computed : ∀ e ∈ wordRules, ∃ fn, ComputesRule e fn := by
  simp only [wordRules, List.forall_mem_cons, List.not_mem_nil, false_implies, implies_true, and_true]
  and_intros <;> refine ⟨_, fun _ _ _ => rfl, by decide, rfl, fun i a b c d n => ?_⟩
  · rfl
  · exact low32_add a b
  · exact low32_sub a b
  · exact low32_mul a b
  · exact imulh_eq i a b
  · exact low32_mad a b c
  · exact imin_eq i a b
  · exact imax_eq i a b
  · exact iabs_eq a
  · exact (BitVec.toNat_and ..).symm
  · exact (BitVec.toNat_or ..).symm
  · exact (BitVec.toNat_xor ..).symm
  · exact (BitVec.toNat_not).symm
  · exact shl_eq a _
  · exact (BitVec.toNat_ushiftRight ..).symm
  · exact sar_eq a _
  · exact popc_eq a
  · exact clz_eq a

/-- A rule's value in a lane whose operands are 32-bit values. -/
theorem ComputesRule.lane {e : WordRule} {fn : Ins → Lane → Nat} (h : ComputesRule e fn) (i : Ins) {l : Lane}
    (ha : l.a < 2 ^ 32) (hb : l.b < 2 ^ 32) (hc : l.c < 2 ^ 32) :
    fn i l = (e.rule i (BitVec.ofNat 32 l.a) (BitVec.ofNat 32 l.b) (BitVec.ofNat 32 l.c)).toNat := by
  rw [← h.value i _ _ _ l.d l.lane, BitVec.toNat_ofNat, BitVec.toNat_ofNat, BitVec.toNat_ofNat, Nat.mod_eq_of_lt ha,
    Nat.mod_eq_of_lt hb, Nat.mod_eq_of_lt hc]

theorem span_lt {x n : Nat} (hx : x < 2 ^ (32 * n)) (hn : n ≤ 1) : x < 2 ^ 32 :=
  hx.trans_le (Nat.pow_le_pow_right (by decide) (by omega))

/-- R98: formats R and I. -/
theorem contains_format {i : Ins} (hf : i.fmt ≤ 1) : ([0, 1] : List Nat).contains i.fmt = true := by
  have h : i.fmt = 0 ∨ i.fmt = 1 := by omega
  rcases h with h | h <;> simp [h]

/-- A rule of the table in a legal form gives each lane its value (R107). -/
theorem exec_wordRule {e : WordRule} (he : e ∈ wordRules) {s : State} {f slot : Nat} {g : Machine.Group} {i : Ins}
    (hi : AluAtIssue s f slot g i e.shape) (ho : i.op = e.op) (hf : i.fmt ≤ 1)
    (hc : aluChecks s g e.shape i (ownInt i) = none) (hr : rlxHeld s f slot i = false) :
    exec (e.cmd f slot) s = .next (aluResult s f slot g i e.shape (immInt i (32 * e.shape.b))
      (fun l => (e.rule i (BitVec.ofNat 32 l.a) (BitVec.ofNat 32 l.b) (BitVec.ofNat 32 l.c)).toNat)) := by
  obtain ⟨fn, h⟩ := wordRules_computed e he
  obtain ⟨hsa, hsb, hsc⟩ := h.spans
  rw [h.command, issueInt_result hi ho (h.formats ▸ contains_format hf) hc hr]
  refine congrArg _ (aluResult_congr _ _ _ _ _ _ _ fun l => ?_)
  obtain ⟨ha, hb, hc⟩ := readLane_lt s f g e.shape i (immInt i (32 * e.shape.b)) l (immInt_lt _ _)
  exact h.lane i (span_lt ha hsa) (span_lt hb hsb) (span_lt hc hsc)

/-! An ALU instruction in an illegal form (R98, R102). -/

theorem aluChecks_of_illegal {s : State} {g : Machine.Group} {h : Shape} {i : Ins} {own : Bool}
    (hl : h.legal i (s.ralelle g) own = false) : aluChecks s g h i own = some 4 := by
  simp [aluChecks, hl]

/-- An ALU instruction at issue. -/
theorem issueAlu_settled {s : State} {f slot op : Nat} {g : Machine.Group} {i : Ins} {shape : Ins → Shape} {own : Ins → Bool}
    {imm : Ins → Nat} {fn : Ins → Machine.Group → List Lane → Lane → Nat} (h : AluAtIssue s f slot g i (shape i)) (ho : i.op = op)
    (hf : (shape i).formats.contains i.fmt = true) :
    issueAlu s f slot op shape own imm fn =
      settled s f slot g i (runAlu f slot (shape i) (own i) (imm i) (fn i g) s g i) := by
  unfold issueAlu
  refine issue_plain h ?_
  rw [ho, hf, beq_self_eq_true, Bool.and_self]

/-- An illegal encoding is a fault of every lane of the group (log entry 21). -/
theorem issueAlu_illegal {s : State} {f slot op : Nat} {g : Machine.Group} {i : Ins} {shape : Ins → Shape} {own : Ins → Bool}
    {imm : Ins → Nat} {fn : Ins → Machine.Group → List Lane → Lane → Nat} (h : AluAtIssue s f slot g i (shape i)) (ho : i.op = op)
    (hf : (shape i).formats.contains i.fmt = true) (hl : (shape i).legal i (s.ralelle g) (own i) = false) :
    issueAlu s f slot op shape own imm fn = s.raise f slot g 4 g.pc g.live 0 0 0 0 := by
  rw [issueAlu_settled h ho hf, runAlu, aluChecks_of_illegal hl]
  rfl

/-- R102: a predicate destination of the second bank, or a uniform one. -/
theorem legal_predicate {h : Shape} {i : Ins} {rlx own : Bool} (hd : h.dest = 0) (hi : 8 ≤ i.d ∨ i.ud = true) :
    h.legal i rlx own = false := by
  rcases hi with hi | hi <;> simp [Shape.legal, hd, hi]

/-- R98: a third source leaves no room for an immediate. -/
theorem legal_immediate {h : Shape} {i : Ins} {rlx own : Bool} (hc : h.c ≠ 0) (hf : i.fmt = 1) : h.legal i rlx own = false := by
  simp [Shape.legal, Ins.isI, hf, hc]

theorem legal_own {h : Shape} {i : Ins} {rlx own : Bool} (ho : own = false) : h.legal i rlx own = false := by
  simp [Shape.legal, ho]

theorem own_of_aluChecks {s : State} {g : Machine.Group} {h : Shape} {i : Ins} {own : Bool} (hc : aluChecks s g h i own = none) :
    own = true := by
  cases own with
  | true => rfl
  | false => simp [aluChecks, Shape.legal] at hc

/-- R107: TYPE of the integer class is U32 or S32. -/
theorem ownInt_of_type {i : Ins} (h : 2 ≤ i.type) : ownInt i = false := by
  have : ¬ i.type ≤ 1 := by omega
  simp [ownInt, this]

/-! The other instructions of the class: pairs, the comparison, SEL and MOVS. -/

theorem iadd64_eq (a b : Nat) : low64 (a + b) = (BitVec.ofNat 64 a + BitVec.ofNat 64 b).toNat := by
  rw [low64_eq, BitVec.ofInt_add, BitVec.ofInt_natCast, BitVec.ofInt_natCast]

theorem imad64_eq (i : Ins) {a b : Nat} (c : Nat) (ha : a < 2 ^ 32) (hb : b < 2 ^ 32) :
    let wide (x : Nat) : BitVec 64 := if i.type = 1 then (BitVec.ofNat 32 x).signExtend 64 else (BitVec.ofNat 32 x).setWidth 64
    low64 (intOfType i a * intOfType i b + c) = (wide a * wide b + BitVec.ofNat 64 c).toNat := by
  have hwide (x : Word) : BitVec.ofInt 64 (intOfType i x.toNat) = if i.type = 1 then x.signExtend 64 else x.setWidth 64 := by
    rw [intOfType_toNat]
    split
    · rfl
    · rw [BitVec.ofInt_natCast, BitVec.ofNat_toNat]
  have hval {x : Nat} (hx : x < 2 ^ 32) : BitVec.ofInt 64 (intOfType i x) =
      if i.type = 1 then (BitVec.ofNat 32 x).signExtend 64 else (BitVec.ofNat 32 x).setWidth 64 := by
    rw [← hwide, BitVec.toNat_ofNat, Nat.mod_eq_of_lt hx]
  rw [low64_eq, BitVec.ofInt_add, BitVec.ofInt_mul, BitVec.ofInt_natCast, hval ha, hval hb]

/-- The order of ICMP on bit vectors: signed for TYPE S32 (R107). -/
def wordLess (i : Ins) (x y : Word) : Bool := if i.type = 1 then x.slt y else x.ult y

/-- The conditions of ICMP on bit vectors (R107). -/
def wordCond (i : Ins) (m : Nat) (a b : Word) : Bool :=
  match m with
  | 0 => a == b
  | 1 => a != b
  | 2 => wordLess i a b
  | 3 => !wordLess i b a
  | 4 => wordLess i b a
  | _ => !wordLess i a b

theorem icond_eq (i : Ins) (m : Nat) (a b : Word) : icond m (intOfType i a.toNat) (intOfType i b.toNat) = wordCond i m a b := by
  have hlt (x y : Word) : decide (intOfType i x.toNat < intOfType i y.toNat) = wordLess i x y := by
    rw [intOfType_toNat, intOfType_toNat, wordLess]
    split <;> simp [BitVec.slt, BitVec.ult]
  have hle (x y : Word) : decide (intOfType i x.toNat ≤ intOfType i y.toNat) = !wordLess i y x := by
    rw [← hlt, ← decide_not, decide_eq_decide, not_lt]
  have hinj : intOfType i a.toNat = intOfType i b.toNat ↔ a = b := by
    rw [intOfType_toNat, intOfType_toNat]
    split
    · exact BitVec.toInt_inj
    · rw [Int.natCast_inj, BitVec.toNat_inj]
  rcases m with _ | _ | _ | _ | _ | m
  · exact decide_eq_decide.2 hinj
  · exact (decide_eq_decide.2 (not_congr hinj)).trans (by rw [decide_not]; rfl)
  · exact hlt a b
  · exact hle a b
  · exact hlt b a
  · exact hle b a

end Sys2Proof.Laws
end
section
namespace Sys2Proof.Laws
open Sys2Proof Sys2Proof.Machine

/-- What a legal ALU instruction with independent lanes comes to. -/
theorem settled_runAlu {s : State} {f slot : Nat} {g : Machine.Group} {i : Ins} {h : Shape} {own : Bool} (imm : Nat) (fn : Lane → Nat)
    (hc : aluChecks s g h i own = none) (hr : rlxHeld s f slot i = false) :
    settled s f slot g i (runAlu f slot h own imm (fun _ l => fn l) s g i) = aluResult s f slot g i h imm fn := by
  rw [runAlu, hc]
  simp only [hr, Bool.false_eq_true, if_false, settled, aluEffect_lanes]
  rfl

/-- MOVS at issue (R105). -/
theorem exec_movs {s : State} {f slot : Nat} {g : Machine.Group} {i : Ins} (h : AluAtIssue s f slot g i {}) (ho : i.op = 0x01)
    (hf : i.fmt ≤ 1) (hc : aluChecks s g {} i (ownInt i && (specialValue s f slot g i.a 0).isSome && !i.ua) = none)
    (hr : rlxHeld s f slot i = false) :
    exec (.movs f slot) s = .next (aluResult s f slot g i {} 0 (fun l => (specialValue s f slot g i.a l.lane).getD 0)) := by
  show execMovs f slot s = _
  rw [execMovs, issue_plain (g := g) (i := i)]
  · rw [← settled_runAlu 0 _ hc hr]
  · exact h
  · simp [ho, hf]

section
variable {s : State} {f slot : Nat} {g : Machine.Group} {i : Ins} (hf : i.fmt ≤ 1) (hr : rlxHeld s f slot i = false)
include hf hr

theorem exec_iadd64 (h : AluAtIssue s f slot g i { a := 2, b := 2, dest := 2 }) (ho : i.op = 0x15)
    (hc : aluChecks s g { a := 2, b := 2, dest := 2 } i (ownInt i) = none) :
    exec (.iadd64 f slot) s = .next (aluResult s f slot g i { a := 2, b := 2, dest := 2 } (immInt i 64)
      (fun l => (BitVec.ofNat 64 l.a + BitVec.ofNat 64 l.b).toNat)) := by
  show execIadd64 f slot s = _
  rw [execIadd64, issueInt_result h ho (contains_format hf) hc hr]
  exact congrArg _ (aluResult_congr _ _ _ _ _ _ _ fun l => iadd64_eq _ _)

theorem exec_imad64 (h : AluAtIssue s f slot g i { a := 1, b := 1, c := 2, dest := 2 }) (ho : i.op = 0x16)
    (hc : aluChecks s g { a := 1, b := 1, c := 2, dest := 2 } i (ownInt i) = none) :
    exec (.imad64 f slot) s = .next (aluResult s f slot g i { a := 1, b := 1, c := 2, dest := 2 } (immInt i 32)
      (fun l =>
        let wide (x : Nat) : BitVec 64 := if i.type = 1 then (BitVec.ofNat 32 x).signExtend 64 else (BitVec.ofNat 32 x).setWidth 64
        (wide l.a * wide l.b + BitVec.ofNat 64 l.c).toNat)) := by
  show execImad64 f slot s = _
  rw [execImad64, issueInt_result h ho (contains_format hf) hc hr]
  refine congrArg _ (aluResult_congr _ _ _ _ _ _ _ fun l => ?_)
  obtain ⟨ha, hb, -⟩ := readLane_lt s f g { a := 1, b := 1, c := 2, dest := 2 } i (immInt i 32) l (immInt_lt _ _)
  exact imad64_eq i _ ha hb

theorem exec_icmp (h : AluAtIssue s f slot g i { a := 1, b := 1, dest := 0 }) (ho : i.op = 0x13)
    (hc : aluChecks s g { a := 1, b := 1, dest := 0 } i (decide (i.type ≤ 1) && decide (i.mod ≤ 5) && i.ext3 == 0) = none) :
    exec (.icmp f slot) s = .next (aluResult s f slot g i { a := 1, b := 1, dest := 0 } (immInt i 32)
      (fun l => if wordCond i i.mod (BitVec.ofNat 32 l.a) (BitVec.ofNat 32 l.b) then 1 else 0)) := by
  show execIcmp f slot s = _
  rw [execIcmp, issueAlu_result h ho (contains_format hf) hc hr]
  refine congrArg _ (aluResult_congr _ _ _ _ _ _ _ fun l => ?_)
  obtain ⟨ha, hb, -⟩ := readLane_lt s f g { a := 1, b := 1, dest := 0 } i (immInt i 32) l (immInt_lt _ _)
  rw [← icond_eq, BitVec.toNat_ofNat, BitVec.toNat_ofNat, Nat.mod_eq_of_lt (span_lt ha le_rfl), Nat.mod_eq_of_lt (span_lt hb le_rfl)]

/-- SEL takes A where its predicate holds (R107), whatever the TYPE (log entry 109). -/
theorem exec_sel (h : AluAtIssue s f slot g i { a := 1, b := 1 }) (ho : i.op = 0x14)
    (hc : aluChecks s g { a := 1, b := 1 } i
      (decide (i.type ≤ 13) && i.mod == 0 && i.ext3 == 0 && !i.isI && decide (i.c < 8) && !i.uc && !i.ud) = none) :
    exec (.sel f slot) s = .next (aluResult s f slot g i { a := 1, b := 1 } (immInt i 32)
      (fun l => if (tget g.p i.c).getLsbD l.lane then l.a else l.b)) := by
  have hown := own_of_aluChecks hc
  have hi8 : i.c % 8 = i.c := by
    simp only [Bool.and_eq_true, decide_eq_true_eq] at hown
    exact Nat.mod_eq_of_lt hown.1.1.2
  show execSel f slot s = _
  rw [execSel, issueAlu_result h ho (contains_format hf) hc hr, hi8]

end

/-- R98, R102, R107: the illegal forms. -/
theorem exec_integer_illegal {s : State} {f slot : Nat} {g : Machine.Group} {i : Ins} (hf : i.fmt ≤ 1) :
    let illegal := s.raise f slot g 4 g.pc g.live 0 0 0 0
    (AluAtIssue s f slot g i { a := 1, b := 1, dest := 0 } → i.op = 0x13 → 8 ≤ i.d ∨ i.ud = true → exec (.icmp f slot) s = .next illegal) ∧
    (AluAtIssue s f slot g i { a := 1, b := 1 } → i.op = 0x14 → 8 ≤ i.c ∨ i.uc = true ∨ i.ud = true ∨ i.fmt = 1 →
      exec (.sel f slot) s = .next illegal) ∧
    (AluAtIssue s f slot g i { a := 1, b := 1, c := 1 } → i.op = 0x06 → i.fmt = 1 → exec (.imad f slot) s = .next illegal) ∧
    (AluAtIssue s f slot g i { a := 1, b := 1, c := 2, dest := 2 } → i.op = 0x16 → i.fmt = 1 → exec (.imad64 f slot) s = .next illegal) ∧
    (∀ e ∈ wordRules, AluAtIssue s f slot g i e.shape → i.op = e.op → 2 ≤ i.type → exec (e.cmd f slot) s = .next illegal) := by
  intro illegal
  refine ⟨fun h ho hd => ?_, fun h ho hx => ?_, fun h ho hi => ?_, fun h ho hi => ?_, fun e he h ho ht => ?_⟩
  · exact congrArg Host.Outcome.next (issueAlu_illegal h ho (contains_format hf) (legal_predicate rfl hd))
  · refine congrArg Host.Outcome.next (issueAlu_illegal h ho (contains_format hf) (legal_own ?_))
    rcases hx with hx | hx | hx | hx
    · simp [Nat.not_lt.2 hx]
    · simp [hx]
    · simp [hx]
    · simp [Ins.isI, hx]
  · exact congrArg Host.Outcome.next (issueAlu_illegal h ho (contains_format hf) (legal_immediate (by decide) hi))
  · exact congrArg Host.Outcome.next (issueAlu_illegal h ho (contains_format hf) (legal_immediate (by decide) hi))
  · obtain ⟨fn, hfn⟩ := wordRules_computed e he
    rw [hfn.command]
    exact congrArg Host.Outcome.next (issueAlu_illegal h ho (hfn.formats ▸ contains_format hf) (legal_own (ownInt_of_type ht)))

/-- Settles O2: each row of the table on bit vectors, and the forms that R98, R102 and R107 make illegal. -/
theorem integerResults : Obligations.IntegerResults := by
  unfold Obligations.IntegerResults
  refine ⟨fun e he s f slot g i hi ho hf hc hr => ⟨_, exec_wordRule he hi ho hf hc hr, onlyGroup_aluResult .., rfl⟩,
    fun s f slot g i hr => ⟨fun h ho hf hc => exec_iadd64 hf hr h ho hc, fun h ho hf hc => exec_imad64 hf hr h ho hc,
      fun h ho hf hc => exec_icmp hf hr h ho hc, fun h ho hf _ hc => exec_sel hf hr h ho hc,
      fun h ho hf _ hc => exec_movs h ho hf hc hr⟩,
    fun s f slot g i hf => exec_integer_illegal hf⟩

end Sys2Proof.Laws
end

section
/-! PROOF. The floating-point instructions: one rounding of the exact result, and what the four modes do (O3). -/

namespace Sys2Proof.Laws

open Sys2Proof Sys2Proof.Machine

/-- That a command of the ALU computes each lane by its rule, whatever the other lanes hold. -/
def ComputesLanes (e : LaneRule) : Prop :=
  ∀ f slot s, exec (e.cmd f slot) s = .next (issueAlu s f slot e.op e.shape e.own e.imm (fun i _ _ l => e.rule i l))

/-- Such a command in a legal form gives each lane its value and touches nothing outside its group. -/
theorem ComputesLanes.result {e : LaneRule} (he : ComputesLanes e) {s : State} {f slot : Nat} {g : Machine.Group} {i : Ins}
    (hi : AluAtIssue s f slot g i (e.shape i)) (ho : i.op = e.op) (hf : (e.shape i).formats.contains i.fmt = true)
    (hc : aluChecks s g (e.shape i) i (e.own i) = none) (hr : rlxHeld s f slot i = false) :
    ∃ t, exec (e.cmd f slot) s = .next t ∧ OnlyGroup s t f slot ∧
      t = aluResult s f slot g i (e.shape i) (e.imm i) (e.rule i) :=
  ⟨_, (he f slot s).trans (congrArg _ (issueAlu_result hi ho hf hc hr)), onlyGroup_aluResult .., rfl⟩

theorem floatRules_computed : ∀ e ∈ floatRules, ComputesLanes e := by
  simp only [floatRules, List.forall_mem_cons, List.not_mem_nil, false_implies, implies_true, and_true]
  and_intros <;> exact fun _ _ _ => rfl

theorem floatRules_formats : ∀ e ∈ floatRules, ∀ i, (e.shape i).formats = [0, 1] := by
  simp [floatRules]

/-! Rounding `m` units of 2^-n to whole units (R108, R154). The discarded part is compared with half a unit. -/

/-- How a remainder compares with half a unit, as `roundsUp` takes it. -/
def halfCode (r h : Nat) : Nat := if r = 0 then 0 else if r < h then 1 else if r = h then 2 else 3

theorem roundQuot_whole (mode : Nat) (neg : Bool) (m : Nat) {n : Nat} (hn : 0 < n) :
    roundQuot mode neg m 0 n false = m / 2 ^ n +
      if roundsUp mode neg (m / 2 ^ n % 2 == 1) (halfCode (m % 2 ^ n) (2 ^ (n - 1))) then 1 else 0 := by
  have h : ¬ (n : Int) ≤ 0 := by omega
  rw [roundQuot, if_neg h, halfCode]
  simp only [Int.sub_zero, Int.toNat_natCast, Nat.shiftRight_eq_div_pow, Bool.false_eq_true, if_false]
  exact (apply_ite (m / 2 ^ n + ·) _ 1 0).symm

theorem ceilDiv_pow (m n : Nat) : ceilDiv m (2 ^ n) = m / 2 ^ n + if m % 2 ^ n = 0 then 0 else 1 := by
  have hpos := Nat.two_pow_pos n
  have hr := Nat.mod_lt m hpos
  have hm := Nat.div_add_mod m (2 ^ n)
  rw [ceilDiv]
  split
  · next h0 => exact Nat.div_eq_of_lt_le (by rw [Nat.add_zero, Nat.mul_comm]; omega) (by rw [Nat.add_zero, Nat.succ_mul, Nat.mul_comm]; omega)
  · next h0 =>
    exact Nat.div_eq_of_lt_le (by rw [Nat.succ_mul, Nat.mul_comm]; omega) (by rw [Nat.succ_mul, Nat.succ_mul, Nat.mul_comm]; omega)

/-- Mode 0 takes the next unit above half a unit, and at exactly half where the quotient is odd (R108). -/
theorem roundsUp_nearest (neg : Bool) (q : Nat) {r h : Nat} (hh : 0 < h) :
    roundsUp 0 neg (q % 2 == 1) (halfCode r h) = true ↔ h < r ∨ (r = h ∧ q % 2 = 1) := by
  simp only [roundsUp, halfCode, Bool.or_eq_true, Bool.and_eq_true, beq_iff_eq]
  split_ifs <;> simp <;> omega

/-- Mode 0: within half a unit, and even at exactly half (R108). -/
theorem roundQuot_nearest (neg : Bool) (m : Nat) {n : Nat} (hn : 0 < n) :
    let q := roundQuot 0 neg m 0 n false
    2 * (q * 2 ^ n) ≤ 2 * m + 2 ^ n ∧ 2 * m ≤ 2 * (q * 2 ^ n) + 2 ^ n ∧
      (2 * m = 2 * (q * 2 ^ n) + 2 ^ n ∨ 2 * (q * 2 ^ n) = 2 * m + 2 ^ n → q % 2 = 0) := by
  have hhalf : 2 ^ n = 2 * 2 ^ (n - 1) := by rw [← Nat.pow_succ']; congr 1; omega
  have hr := Nat.mod_lt m (Nat.two_pow_pos n)
  have hm := Nat.mod_add_div' m (2 ^ n)
  have hup := roundsUp_nearest neg (m / 2 ^ n) (r := m % 2 ^ n) (Nat.two_pow_pos (n - 1))
  rw [roundQuot_whole 0 neg m hn]
  dsimp only
  generalize m / 2 ^ n = q, m % 2 ^ n = r at hr hm hup ⊢
  generalize 2 ^ (n - 1) = h, 2 ^ n = u at hhalf hr hm hup ⊢
  split
  · next h1 =>
    have := hup.1 h1
    rw [Nat.add_mul, Nat.one_mul]
    omega
  · next h1 =>
    have := mt hup.2 h1
    rw [Nat.add_zero]
    omega

theorem halfCode_ne_zero (r h : Nat) : (halfCode r h != 0) = decide (r ≠ 0) := by
  unfold halfCode
  split_ifs with h0 h1 h2 <;> simp [h0]

/-- Modes 1 to 3: toward zero, toward plus and toward minus infinity (R108). -/
theorem roundQuot_directed (neg : Bool) (m : Nat) {n : Nat} (hn : 0 < n) :
    roundQuot 1 neg m 0 n false = m / 2 ^ n ∧
    roundQuot 2 neg m 0 n false = (if neg then m / 2 ^ n else ceilDiv m (2 ^ n)) ∧
    roundQuot 3 neg m 0 n false = (if neg then ceilDiv m (2 ^ n) else m / 2 ^ n) := by
  simp only [roundQuot_whole _ neg m hn, ceilDiv_pow, roundsUp, halfCode_ne_zero]
  by_cases h0 : m % 2 ^ n = 0 <;> cases neg <;> simp [h0]

/-- Settles O3: the rows of the table, and the four modes by the remainder's comparison with half a unit. -/
theorem floatResultsAndRounding : Obligations.FloatResultsAndRounding := by
  unfold Obligations.FloatResultsAndRounding
  refine ⟨⟨fun e he s f slot g i hi ho hf hc hr => ?_, fun s f slot g i hi ho hf hc hr => ?_⟩, fun neg m n hn => ?_⟩
  · exact (floatRules_computed e he).result hi ho (floatRules_formats e he i ▸ contains_format hf) hc hr
  · exact congrArg Host.Outcome.next (issueAlu_result hi ho (contains_format hf) hc hr)
  · obtain ⟨hle, hge, heven⟩ := roundQuot_nearest neg m hn
    exact ⟨⟨hle, hge, heven⟩, roundQuot_directed neg m hn⟩

end Sys2Proof.Laws
end

section
/-! PROOF. The special functions: each lane takes its function, and the results at NaNs, zeros and infinities (O4). -/

namespace Sys2Proof.Laws

open Sys2Proof Sys2Proof.Machine

theorem specialRules_computed : ∀ e ∈ specialRules, ComputesLanes e := by
  simp only [specialRules, List.forall_mem_cons, List.not_mem_nil, false_implies, implies_true, and_true]
  and_intros <;> exact fun _ _ _ => rfl

theorem specialRules_formats : ∀ e ∈ specialRules, ∀ i, (e.shape i).formats = [0, 1] := by
  simp [specialRules]

/-! Not-a-number and invalid arguments give the canonical NaN (R146, R152). -/

theorem f32_nanBits : f32.nanBits = 0x7FC00000 := by decide

theorem special_of_nan {x : Nat} (h : f32.decode x = .nan) (key : Nat) (invalid : Val → Bool) (noZero : Bool) (g : Int → Nat → Nat) :
    special key invalid noZero g x = 0x7FC00000 := by
  simp [special, h, f32_nanBits]

theorem special_of_invalid {x : Nat} {invalid : Val → Bool} (h : invalid (f32.decode x) = true) (key : Nat) (noZero : Bool)
    (g : Int → Nat → Nat) : special key invalid noZero g x = 0x7FC00000 := by
  simp [special, h, f32_nanBits]

theorem rcp32_of_nan {x : Nat} (h : f32.decode x = .nan) : rcp32 x = 0x7FC00000 := by
  rw [rcp32, h]
  exact f32_nanBits

theorem sqrt32_of_nan {x : Nat} (h : f32.decode x = .nan) : sqrt32 x = 0x7FC00000 := by
  rw [sqrt32, h]
  exact f32_nanBits

theorem expValue_of_nan {x : Nat} (h : f32.decode x = .nan) : expValue x = 0x7FC00000 := by
  rw [expValue, h]
  exact special_of_nan h _ _ _ _

theorem actValue_of_nan {x : Nat} (h : f32.decode x = .nan) (m c : Nat) : actValue m x c = 0x7FC00000 := by
  rw [actValue.eq_def, h]
  exact f32_nanBits

/-- R152: the square root of a negative value other than −0 is invalid. -/
theorem sqrt32_of_negative {x : Nat} (h : negative (f32.decode x) = true) : sqrt32 x = 0x7FC00000 := by
  cases hx : f32.decode x with
  | nan => exact sqrt32_of_nan hx
  | inf neg =>
    obtain rfl : neg = true := by simpa [hx, negative] using h
    rw [sqrt32, hx]
    exact f32_nanBits
  | fin neg m e =>
    obtain ⟨rfl, hm⟩ : neg = true ∧ m ≠ 0 := by simpa [hx, negative] using h
    simp [sqrt32, hx, hm, f32_nanBits]

theorem specialRules_of_nan : ∀ e ∈ specialRules, e.cmd ≠ .actd → ∀ (i : Ins) (l : Lane), f32.decode l.a = .nan →
    e.rule i l = 0x7FC00000 := by
  simp only [specialRules, List.forall_mem_cons, List.not_mem_nil, false_implies, implies_true, and_true]
  and_intros
  · exact fun _ _ _ h => rcp32_of_nan h
  · exact fun _ _ _ h => special_of_nan h _ _ _ _
  · exact fun _ _ _ h => sqrt32_of_nan h
  · exact fun _ _ _ h => special_of_nan h _ _ _ _
  · exact fun _ _ l h => (if_pos (by simp [h])).trans f32_nanBits
  · exact fun _ _ _ h => special_of_nan h _ _ _ _
  · exact fun _ _ _ h => special_of_nan h _ _ _ _
  · exact fun _ _ _ h => expValue_of_nan h
  · exact fun _ _ _ h => actValue_of_nan h _ _
  · exact fun hcmd => absurd rfl hcmd

/-! ACT at the infinities (R529). -/

theorem decode_posInf : f32.decode 0x7F800000 = .inf false := by decide
theorem decode_negInf : f32.decode 0xFF800000 = .inf true := by decide

theorem actValue_posInf (m c : Nat) : actValue m 0x7F800000 c = if m ≤ 1 then 0x3F800000 else 0x7F800000 := by
  rw [actValue.eq_def, decode_posInf]
  rfl

theorem actValue_negInf (c : Nat) : (∀ m ∈ [0, 2, 5, 6], actValue m 0xFF800000 c = 0) ∧
    (∀ m ∈ [1, 4], actValue m 0xFF800000 c = 0xBF800000) ∧ (∀ m ∈ [7, 8], actValue m 0xFF800000 c = 0x80000000) ∧
    actValue 3 0xFF800000 c = f32.mul 0 c 0xFF800000 := by
  simp only [List.forall_mem_cons, List.not_mem_nil, false_implies, implies_true, and_true, actValue.eq_def, decode_negInf]
  decide

/-- Settles O4: the rows of the table, and their results where no bound of R110 speaks. -/
theorem specialFunctionResults : Obligations.SpecialFunctionResults := by
  unfold Obligations.SpecialFunctionResults
  refine ⟨fun e he s f slot g i hi ho hf hc hr => ?_, fun e he hcmd i l _ h => specialRules_of_nan e he hcmd i l h,
    fun x hx => ⟨sqrt32_of_negative hx, special_of_invalid hx _ _ _⟩, by decide, by decide, by decide, by decide,
    fun c => ⟨actValue_posInf 0 c, actValue_posInf 1 c, fun m hm _ => (actValue_posInf m c).trans (if_neg (by omega)), actValue_negInf c⟩⟩
  exact (specialRules_computed e he).result hi ho (specialRules_formats e he i ▸ contains_format hf) hc hr

end Sys2Proof.Laws
end

section
/-! PROOF. Moves and conversions: I2I, BSWZ, PACK, UNPK, and two forms of SEL and MOVS (O5). -/

namespace Sys2Proof.Laws

open Sys2Proof Sys2Proof.Machine

/-- Commands of the ALU that compute equal values in each lane come to the same. -/
theorem issueAlu_congr {s : State} {f slot op : Nat} {shape : Ins → Shape} {own : Ins → Bool} {imm : Ins → Nat} {v w : Ins → Lane → Nat}
    (h : ∀ i l, v i l = w i l) :
    Host.Outcome.next (issueAlu s f slot op shape own imm (fun i _ _ l => v i l)) =
      (.next (issueAlu s f slot op shape own imm (fun i _ _ l => w i l)) : Out) := by
  simp only [h]

/-- The byte a selector of BSWZ gives for byte `k` (R113). -/
def selectedByte (sel k a d : Nat) : Nat :=
  match sel with
  | 4 => 0
  | 5 => 255
  | 6 => byteOf d k
  | 7 => 255 - byteOf d k
  | n => byteOf a n

theorem byteOf_lt (x k : Nat) : byteOf x k < 256 := Nat.mod_lt _ (by decide)

theorem swizzleByte_eq {sel : Nat} (hs : sel < 8) (k a d : Nat) :
    swizzleByte sel k a d = (BitVec.ofNat 8 (selectedByte sel k a d)).toNat := by
  have hd := byteOf_lt d k
  have ha := byteOf_lt a sel
  rw [BitVec.toNat_ofNat]
  obtain h | rfl | rfl | rfl | rfl : sel < 4 ∨ sel = 4 ∨ sel = 5 ∨ sel = 6 ∨ sel = 7 := by omega
  · have hsel : selectedByte sel k a d = byteOf a sel := by
      unfold selectedByte
      split <;> omega
    rw [hsel, Nat.mod_eq_of_lt ha, swizzleByte, if_pos h]
    rfl
  · rfl
  · rfl
  · exact (Nat.mod_eq_of_lt hd).symm
  · exact (Nat.mod_eq_of_lt (Nat.lt_of_le_of_lt (Nat.sub_le ..) (by decide))).symm

theorem leNat_concat (l : List Byte) (b : Byte) : leNat (l ++ [b]) = leNat l + b.toNat * 256 ^ l.length := by
  induction l with
  | nil => simp [leNat]
  | cons x l ih =>
    rw [List.cons_append, leNat, ih, leNat, List.length_cons, pow_succ]
    ring

/-- Bytes summed by their places are the number they make up, byte 0 lowest (R13). -/
theorem sum_bytes (v : Nat → Byte) (n : Nat) :
    (List.range n).foldl (fun x k => x + (v k).toNat * 256 ^ k) 0 = leNat ((List.range n).map v) := by
  induction n with
  | zero => rfl
  | succ n ih =>
    rw [List.range_succ, List.foldl_append, ih, List.map_append, List.map_singleton, leNat_concat, List.length_map, List.length_range]
    rfl

theorem swizzle_eq (a b d : Nat) :
    (List.range 4).foldl (fun x k => x + swizzleByte (b / 8 ^ k % 8) k a d * 256 ^ k) 0 =
      leNat ((List.range 4).map (fun k => BitVec.ofNat 8 (selectedByte (b / 8 ^ k % 8) k a d))) := by
  simp only [swizzleByte_eq (Nat.mod_lt _ (show 8 > 0 by decide))]
  exact sum_bytes _ 4

/-- PACK replaces one field and keeps the others: what is below the field, the field, and what is above it (R113). -/
theorem replaceField_eq (d v lo w : Nat) : d - ((d >>> lo) % 2 ^ w) <<< lo + v <<< lo =
    d % 2 ^ lo + v * 2 ^ lo + d / 2 ^ (lo + w) * 2 ^ (lo + w) := by
  have hlow := Nat.mod_add_div' d (2 ^ lo)
  have hfield := Nat.mod_add_div' (d / 2 ^ lo) (2 ^ w)
  have hsplit : d = d % 2 ^ lo + d / 2 ^ lo % 2 ^ w * 2 ^ lo + d / 2 ^ (lo + w) * 2 ^ (lo + w) := by
    conv_lhs => rw [← hlow, ← hfield]
    rw [Nat.div_div_eq_div_mul, ← Nat.pow_add, Nat.add_mul, Nat.add_assoc, Nat.mul_assoc (d / 2 ^ (lo + w)), ← Nat.pow_add, Nat.add_comm w]
  simp only [Nat.shiftRight_eq_div_pow, Nat.shiftLeft_eq]
  omega

theorem moveRules_computed : ∀ e ∈ moveRules, ComputesLanes e := by
  simp only [moveRules, List.forall_mem_cons, List.not_mem_nil, false_implies, implies_true, and_true]
  and_intros
  · exact fun _ _ _ => rfl
  · exact fun _ _ _ => issueAlu_congr fun i l => swizzle_eq l.a l.b l.d
  · exact fun _ _ _ => issueAlu_congr fun i l => replaceField_eq l.d _ _ _
  · refine fun _ _ _ => issueAlu_congr fun i l => ?_
    simp only [Nat.shiftRight_eq_div_pow]
    rfl

/-- A type code of 13 or less and no other field beyond it: the encoding rule of SEL (R107), of TYPE F64 too (log entry 109). -/
theorem sel_own {i : Ins} (hf : i.fmt = 0) (ht : i.type = 3) (hm : i.mod = 0) (he : i.ext3 = 0) (hc : i.c < 8) (huc : i.uc = false)
    (hud : i.ud = false) :
    (decide (i.type ≤ 13) && i.mod == 0 && i.ext3 == 0 && !i.isI && decide (i.c < 8) && !i.uc && !i.ud) = true := by
  simp [Ins.isI, hf, ht, hm, he, hc, huc, hud]

/-- Settles O5: the table of R112, R113 and R530, and the two forms of R107 that the model chose. -/
theorem moveResults : Obligations.MoveResults := by
  unfold Obligations.MoveResults
  refine ⟨fun e he s f slot g i hi ho hf hc hr => (moveRules_computed e he).result hi ho hf hc hr,
    fun s f slot g i hr => ⟨fun h ho hf ht hm he hc huc hud hck => ?_, fun h ho hf hud ha hua hck => ?_⟩⟩
  · exact exec_sel (by omega) hr h ho (by rw [sel_own hf ht hm he hc huc hud]; exact hck)
  · have hown : (ownInt i && (specialValue s f slot g i.a 0).isSome && !i.ua) = ownInt i := by
      simp [ha, hua, specialValue]
    rw [exec_movs h ho hf (by rw [hown]; exact hck) hr, ha]
    rfl

end Sys2Proof.Laws
end

section
/-! PROOF. FENCE, NOP, TRAP, opcodes the table does not list, and execution outside the code range (O12). -/

namespace Sys2Proof.Laws

open Sys2Proof Sys2Proof.Machine

section
variable {s : State} {f slot : Nat} {g : Machine.Group} {i : Ins}

/-- Issuing an instruction that names no register. -/
theorem issue_bare {accept : Ins → Bool} {run : State → Machine.Group → Ins → Issue} (h : AtIssue s f slot g i [] [] [])
    (ha : accept i = true) :
    s.issue f slot accept (fun _ => ([], [])) (fun _ => ([], [])) false run = settled s f slot g i (run s g i) :=
  issue_plain h ha

/-- The same at a FENCE, JOIN or EXIT. -/
theorem issue_barePoint {accept : Ins → Bool} {run : State → Machine.Group → Ins → Issue} (h : AtIssue s f slot g i [] [] [])
    (hp : AtPoint s g i) (ha : accept i = true) :
    s.issue f slot accept (fun _ => ([], [])) (fun _ => ([], [])) true run = settled s f slot g i (run s g i) :=
  issue_point h hp ha

theorem settled_illegal (s : State) (f slot : Nat) (g : Machine.Group) (i : Ins) :
    settled s f slot g i (.fault 4 g.live 0) = s.raise f slot g 4 g.pc g.live 0 0 0 0 := rfl

theorem settled_next (s : State) (f slot : Nat) (g : Machine.Group) (i : Ins) :
    settled s f slot g i (.done s (g.next i)) = s.afterIssue f slot (g.next i) := rfl

/-- Issuing an instruction that names no register, whatever words its fetch corrects (R325). -/
theorem issue_corrected {accept : Ins → Bool} {run : State → Machine.Group → Ins → Issue} (h : Issuing s f slot g i [] [] [] [])
    (ha : accept i = true) {t : State} {k : Machine.Group} (hr : run (s.fetched f g i) g i = .done t k) :
    s.issue f slot accept (fun _ => ([], [])) (fun _ => ([], [])) false run = t.afterIssue f slot k := by
  have h2 : (decide (i.fmt = 4) && !s.inCode g (g.pc + 8)) = false := by
    by_cases hf : i.fmt = 4
    · simp [hf, h.second hf]
    · simp [hf]
  have hd : (if g.lanes i = 0 then [] else g.deferred.filter (fun d => false || d.vregs.any ([] : List Nat).contains)) = [] := by
    split
    · rfl
    · exact List.filter_eq_nil_iff.2 fun d _ => by simp
  have hpaid : g.owes (List.filter (fun r => !([] : List Nat).contains r) ([] ++ [])) ([] ++ []) = false := h.paid
  unfold State.issue
  simp only [h.resident, h.free, h.clocked, h.inside, h.fetched, ha, h.within, hpaid, h.taken, h2, hd, hr, Bool.not_true, Bool.or_self,
    Bool.false_eq_true, if_false, Bool.false_and, List.find?_nil, List.head?_nil, Option.orElse]

theorem fence_at (h : AtIssue s f slot g i [] [] []) (hp : AtPoint s g i) (hf : i.fmt = 0) (ho : i.op = 0x73) :
    exec (.fence f slot) s = .next (settled s f slot g i
      (if field i.w0 47 0 != 0 then .fault 4 g.live 0
       else if g.lanes i = 0 then .done s (g.next i)
       else if s.storesOut f slot g.launch then .hold else .done s (g.next i))) :=
  congrArg Host.Outcome.next (issue_barePoint h hp (by simp [ho, hf]))

theorem nop_at (h : AtIssue s f slot g i [] [] []) (hf : i.fmt = 0) (ho : i.op = 0x86) :
    exec (.nop f slot) s = .next (settled s f slot g i
      (if field i.w0 47 0 != 0 then .fault 4 g.live 0 else .done s (g.next i))) :=
  congrArg Host.Outcome.next (issue_bare h (by simp [ho, hf]))

theorem trap_at (h : AtIssue s f slot g i [] [] []) (hf : i.fmt = 1) (ho : i.op = 0x84) :
    exec (.trap f slot) s = .next (settled s f slot g i
      (if !ownTrap i then .fault 4 g.live 0 else if g.lanes i = 0 then .done s (g.next i) else .fault 15 (g.lanes i) 0)) :=
  congrArg Host.Outcome.next (issue_bare h (by simp [ho, hf]))

/-- FENCE (R118): it goes on without outstanding stores, and waits with them. -/
theorem fence_results (h : AtIssue s f slot g i [] [] []) (hp : AtPoint s g i) (hf : i.fmt = 0) (ho : i.op = 0x73)
    (hz : field i.w0 47 0 = 0) :
    ((g.lanes i = 0 ∨ s.storesOut f slot g.launch = false) → exec (.fence f slot) s = .next (s.afterIssue f slot (g.next i))) ∧
    (g.lanes i ≠ 0 → s.storesOut f slot g.launch = true → exec (.fence f slot) s = .next s) := by
  rw [fence_at h hp hf ho, if_neg (by simp [hz])]
  refine ⟨fun hgo => ?_, fun hl hs => ?_⟩
  · by_cases hl : g.lanes i = 0
    · rw [if_pos hl, settled_next]
    · rw [if_neg hl, if_neg (by simp [hgo.resolve_left hl]), settled_next]
  · rw [if_neg hl, if_pos hs]
    rfl

/-- FAULT_INFO of a TRAP holds its IMM16 (R126). -/
theorem faultInfo_trap (n : Nat) : faultInfo n false false false = BitVec.ofNat 32 (65536 * n) := by
  simp [faultInfo, Nat.mul_comm]

theorem ownTrap_iff : ownTrap i = true ↔ field i.w0 47 24 = 0 ∧ i.ext = 0 := by
  simp [ownTrap]

theorem trap_results (h : AtIssue s f slot g i [] [] []) (hf : i.fmt = 1) (ho : i.op = 0x84) (hown : ownTrap i = true) :
    (g.lanes i = 0 → exec (.trap f slot) s = .next (s.afterIssue f slot (g.next i))) ∧
    (g.lanes i ≠ 0 → exec (.trap f slot) s =
      .next (s.raise f slot g 15 g.pc (g.lanes i) 0 (BitVec.ofNat 32 (65536 * i.imm)) 0 0)) := by
  rw [trap_at h hf ho, if_neg (by simp [hown])]
  refine ⟨fun hl => ?_, fun hl => ?_⟩
  · rw [if_pos hl, settled_next]
  · rw [if_neg hl, ← faultInfo_trap]
    rfl

theorem trap_illegal (h : AtIssue s f slot g i [] [] []) (hf : i.fmt = 1) (ho : i.op = 0x84) (hown : ¬ ownTrap i = true) :
    exec (.trap f slot) s = .next (s.raise f slot g 4 g.pc g.live 0 0 0 0) := by
  simp [trap_at h hf ho, hown, settled_illegal]

/-- R106: an opcode and format of no row. -/
theorem unassigned_illegal (h : AtIssue s f slot g i [] [] []) (ha : assigned i = false) :
    exec (.unassignedOpcode f slot) s = .next (s.raise f slot g 4 g.pc g.live 0 0 0 0) :=
  congrArg Host.Outcome.next (issue_bare h (by simp [ha]))

/-- R121: execution has run out of its range. -/
theorem pastRange_faults (hg : s.group? f slot = some g) (hi : g.canIssue = true) (hr : s.facetRuns f = true)
    (hc : s.inCode g g.pc = false) :
    exec (.fetchPastRange f slot) s = .next (s.raise f slot g 6 g.pc g.live 0 0 0 0) := by
  show execFetchPastRange f slot s = _
  simp [execFetchPastRange, hg, hi, hr, hc]

end

/-- Settles O12: each command at issue, case by case. -/
theorem fenceNopTrapAndIllegal : Obligations.FenceNopTrapAndIllegal := by
  unfold Obligations.FenceNopTrapAndIllegal
  refine ⟨fun s f slot g i h hf => ⟨fun ho hp hz => fence_results h hp hf ho hz, fun ho hp hz => ?_, fun ho hz => ?_, fun ho hz => ?_⟩,
    fun s f slot g i h hf ho hz hfix => ?_, fun s f slot g i => ⟨fun h ho hf hz he => ?_, fun h ho hf hx => ?_, ?_, ?_⟩⟩
  · simp [fence_at h hp hf ho, hz, settled_illegal]
  · simp [nop_at h hf ho, hz, settled_next]
  · simp [nop_at h hf ho, hz, settled_illegal]
  · refine congrArg Host.Outcome.next ((issue_corrected h (by simp [ho, hf]) (if_neg (by simp [hz]))).trans ?_)
    rw [State.fetched, if_neg (by omega)]
  · exact trap_results h hf ho (ownTrap_iff.2 ⟨hz, he⟩)
  · refine trap_illegal h hf ho fun hown => ?_
    obtain ⟨hz, he⟩ := ownTrap_iff.1 hown
    exact hx.elim (absurd hz) (absurd he)
  · exact unassigned_illegal
  · exact pastRange_faults

end Sys2Proof.Laws
end

section
/-! PROOF. A fault forms no request and changes no memory, and the checks of memory instructions come first (O10, O11). -/

namespace Sys2Proof.Laws

open Sys2Proof Sys2Proof.Machine

/-- Every line request and every transfer in flight, the cells and the Hull are as they were. -/
structure Silent (s t : State) : Prop where
  reqs : t.reqs = s.reqs
  hbm : t.hbm = s.hbm
  hull : t.hull = s.hull
  transfers : ∀ k, (t.facet k).transfers.map (·.id) = (s.facet k).transfers.map (·.id)

theorem Silent.refl (s : State) : Silent s s := ⟨rfl, rfl, rfl, fun _ => rfl⟩

theorem Silent.trans {s t u : State} (h : Silent s t) (k : Silent t u) : Silent s u :=
  ⟨k.reqs.trans h.reqs, k.hbm.trans h.hbm, k.hull.trans h.hull, fun n => (k.transfers n).trans (h.transfers n)⟩

theorem Silent.ite {s t u : State} {c : Prop} [Decidable c] (h : Silent s t) (k : Silent s u) : Silent s (if c then t else u) := by
  split
  · exact h
  · exact k

theorem silent_foldl {f : State → α → State} (hf : ∀ s x, Silent s (f s x)) (l : List α) (s : State) : Silent s (l.foldl f s) := by
  induction l generalizing s with
  | nil => exact .refl s
  | cons x l ih => exact (hf s x).trans (ih _)

theorem silent_updFacet (s : State) (f : Nat) {h : Facet → Facet}
    (hh : (h (s.facet f)).transfers.map (·.id) = (s.facet f).transfers.map (·.id)) : Silent s (s.updFacet f h) := by
  refine ⟨rfl, rfl, rfl, fun k => ?_⟩
  by_cases hk : k = f
  · rw [hk, facet_updFacet, hh]
  · rw [facet_updFacet_ne _ _ hk]

theorem silent_updFn (s : State) (j : Nat) (h : Fn → Fn) : Silent s (s.updFn j h) := ⟨rfl, rfl, rfl, fun _ => rfl⟩
theorem silent_setReg (s : State) (j a : Nat) (v : Word) : Silent s (s.setReg j a v) := silent_updFn _ _ _
theorem silent_count (s : State) (j a hi lo n : Nat) : Silent s (s.count j a hi lo n) := silent_setReg _ _ _ _
theorem silent_updLaunch (s : State) (id : Nat) (h : Launch → Launch) : Silent s (s.updLaunch id h) := ⟨rfl, rfl, rfl, fun _ => rfl⟩
theorem silent_setGroup (s : State) (f slot : Nat) (g : Machine.Group) : Silent s (s.setGroup f slot g) := silent_updFacet _ _ rfl

theorem silent_updBlock (s : State) (f b : Nat) (h : Block → Block) : Silent s (s.updBlock f b h) := by
  unfold State.updBlock
  split
  · exact silent_updFacet _ _ rfl
  · exact .refl s

theorem silent_fetched (s : State) (f : Nat) (g : Machine.Group) (i : Ins) : Silent s (s.fetched f g i) :=
  Silent.ite (.refl s) (silent_count _ _ _ _ _ _)

/-- Transfers of a freed slot go on, for no group. -/
theorem silent_freeSlotOf (s : State) (f slot : Nat) : Silent s (s.freeSlotOf f slot) := by
  refine silent_updFacet _ _ ?_
  rw [List.map_map]
  exact List.map_congr_left fun t _ => apply_ite Transfer.id (t.slot = slot) { t with slot := 64 } t |>.trans (ite_self _)

theorem silent_reapBlock (s : State) (f b : Nat) : Silent s (s.reapBlock f b) := by
  unfold State.reapBlock
  split
  · exact .refl s
  · exact (silent_updFacet _ _ rfl).ite (.refl s)

theorem silent_endBlock (s : State) (f b : Nat) : Silent s (s.endBlock f b) := by
  unfold State.endBlock
  split
  · exact .refl s
  · exact (Silent.refl s).ite ((silent_updBlock _ _ _ _).trans (silent_updLaunch _ _ _))

theorem silent_blockOver (s : State) (f b : Nat) : Silent s (s.blockOver f b) :=
  ((silent_endBlock _ _ _).trans (silent_reapBlock _ _ _)).ite (.refl s)

theorem silent_abortBlock (s : State) (f slot : Nat) (g : Machine.Group) (code pc : Nat) : Silent s (s.abortBlock f slot g code pc) := by
  unfold State.abortBlock
  refine ((silent_updLaunch _ _ _).trans (silent_updBlock _ _ _ _)).trans ((silent_updFacet _ _ ?_).trans
    ((silent_foldl (fun s e => ?_) _ _).trans (silent_blockOver _ _ _)))
  · rfl
  · exact (silent_freeSlotOf _ _ _).ite (.refl s)

theorem silent_recordFault (s : State) (f slot : Nat) (g : Machine.Group) (code pc : Nat) (aborted : Bool) :
    Silent s (s.recordFault f slot g code pc aborted) :=
  (silent_updFn _ _ _).trans ((silent_setReg _ _ _ _).trans (silent_setReg _ _ _ _))

theorem silent_deliver (s : State) (f slot : Nat) (g : Machine.Group) (h : Handler) : Silent s (s.deliver f slot g h) :=
  ((silent_recordFault _ _ _ _ _ _ _).trans (silent_setGroup _ _ _ _)).ite
    ((silent_recordFault _ _ _ _ _ _ _).trans (silent_abortBlock _ _ _ _ _ _))

/-- A group whose progress counter starts anew. -/
def restarted (g : Machine.Group) : Machine.Group := { g with progress := 0 }

/-- What a fault counts before it is taken: PROGRESS_STALL with its record (R128), JOIN_DIVERGED. -/
def counted (s : State) (f slot : Nat) (g : Machine.Group) (code cause bar : Nat) : State :=
  if code = 1 then
    (s.count g.vf Reg.execCounts 15 0 1).setReg g.vf Reg.execStallLast
      (setField (setField (setField (setField (setField 0 31 31 1) 30 29 cause) 28 25 bar) 24 17
        ((s.count g.vf Reg.execCounts 15 0 1).logicalOf g.vf f)) 16 11 slot)
  else if code = 7 then s.count g.vf Reg.execCounts 31 16 1
  else s

/-- What a fault leaves for its handler (R105, R130). -/
def faultState (s : State) (g : Machine.Group) (code pc : Nat) (lanes : Word) (addr : Nat) (info : Word) : Handler :=
  { code, pc, mask := g.live, lanes, addr, info, depth := g.stack.length, no := (s.fn g.vf).faultNo + 1 }

/-- Taking a fault (R128 to R135): inside a handler the block is aborted, under debug the group halts, and else the fault is
delivered. -/
theorem raise_eq (s : State) (f slot : Nat) (g : Machine.Group) (code pc : Nat) (lanes : Word) (addr : Nat) (info : Word)
    (cause bar : Nat) : s.raise f slot g code pc lanes addr info cause bar =
      let u := counted s f slot g code cause bar
      let h := faultState u g code pc lanes addr info
      if g.handler.isSome then (u.recordFault f slot (restarted g) code pc true).abortBlock f slot (restarted g) 0xFF pc
      else if u.debugOn g.vf then
        (u.recordFault f slot (restarted g) code pc false).setGroup f slot { restarted g with halt := .halted, faulted := some h }
      else u.deliver f slot (restarted g) h := rfl

theorem silent_counted (s : State) (f slot : Nat) (g : Machine.Group) (code cause bar : Nat) :
    Silent s (counted s f slot g code cause bar) :=
  ((silent_count _ _ _ _ _ _).trans (silent_setReg _ _ _ _)).ite ((silent_count _ _ _ _ _ _).ite (.refl s))

/-- Taking a fault is silent, whatever becomes of the group (R116). -/
theorem silent_raise (s : State) (f slot : Nat) (g : Machine.Group) (code pc : Nat) (lanes : Word) (addr : Nat) (info : Word)
    (cause bar : Nat) : Silent s (s.raise f slot g code pc lanes addr info cause bar) := by
  rw [raise_eq]
  refine (silent_counted s f slot g code cause bar).trans (Silent.ite ?_ (Silent.ite ?_ (silent_deliver _ _ _ _ _)))
  · exact (silent_recordFault _ _ _ _ _ _ _).trans (silent_abortBlock _ _ _ _ _ _)
  · exact (silent_recordFault _ _ _ _ _ _ _).trans (silent_setGroup _ _ _ _)

/-! The fault checks of LD, LDS, ST, HINT and ATOM (R115, R116, R125). -/

section
variable {s : State} {f slot : Nat} {g : Machine.Group} {i : Ins}

/-- A memory instruction at issue. -/
theorem issueMem_settled {op : Nat} {h : Ins → MemShape} {own : Ins → Bool} (hi : MemAtIssue s f slot g i (h i)) (ho : i.op = op)
    (hf : i.fmt = 2) :
    issueMem s f slot op h own = settled s f slot g i (runMem f slot (h i) (own i) s g i) :=
  issue_plain hi (by simp [ho, hf])

theorem memRules_issue : ∀ e ∈ memRules, ∀ f slot s, exec (e.cmd f slot) s = .next (issueMem s f slot e.op e.shape e.own) := by
  simp only [memRules, List.forall_mem_cons, List.not_mem_nil, false_implies, implies_true, and_true]
  and_intros <;> exact fun _ _ _ => rfl

theorem checks_code {h : MemShape} {own : Bool} {c : Nat} (hc : h.checks s g i own = some c) : c = 4 ∨ c = 5 := by
  unfold MemShape.checks at hc
  dsimp only at hc
  split at hc
  · exact .inl (Option.some.inj hc).symm
  · split at hc
    · exact .inr (Option.some.inj hc).symm
    · cases hc

/-- A fault of the encoding is one of every lane of the group (log entry 21). -/
theorem runMem_illegal {h : MemShape} {own : Bool} {c : Nat} (hc : h.checks s g i own = some c) :
    settled s f slot g i (runMem f slot h own s g i) = s.raise f slot g c g.pc g.live 0 0 0 0 := by
  rw [runMem, hc]
  obtain rfl | rfl := checks_code hc <;> rfl

theorem bitsOf_ne_nil {m : Word} (h : m ≠ 0) : bitsOf m ≠ [] := by
  intro hnil
  refine h (BitVec.eq_of_getLsbD_eq fun k hk => ?_)
  have := List.filter_eq_nil_iff.1 hnil k (List.mem_range.2 hk)
  simpa using this

/-- With lanes that execute it, a memory instruction in a legal form looks at their addresses next. -/
theorem runMem_addresses {h : MemShape} {own : Bool} (hc : h.checks s g i own = none) (hl : g.lanes i ≠ 0) {c : Nat × Word × Nat}
    (ha : addrCheck s g.vf h.width (laneAddrs s f g i h.off) = some c) :
    runMem f slot h own s g i = .fault c.1 c.2.1 c.2.2 := by
  have hne : (bitsOf (g.lanes i)).isEmpty = false := by simpa using bitsOf_ne_nil hl
  unfold laneAddrs at ha
  simp only [runMem, hc, hne, Bool.false_eq_true, if_false, ha]

/-- R115: a misaligned address comes before one that is not mapped. -/
theorem addrCheck_misaligned {j w : Nat} {addrs : List (Nat × Nat)} {a : Nat × Nat} {l : List (Nat × Nat)}
    (h : addrs.filter (fun e => e.2 % w != 0) = a :: l) :
    addrCheck s j w addrs = some (12, maskOf (fun k => (addrs.filter (fun e => e.2 % w != 0)).any (·.1 == k)), a.2) := by
  simp only [addrCheck, h]
  rfl

theorem addrCheck_unmapped {j w : Nat} {addrs : List (Nat × Nat)} {a : Nat × Nat} {l : List (Nat × Nat)}
    (hm : addrs.filter (fun e => e.2 % w != 0) = [])
    (h : addrs.filter (fun e => decide (2 ^ 48 ≤ e.2) || (s.translate j e.2).isNone) = a :: l) :
    addrCheck s j w addrs = some (13, maskOf (fun k =>
      (addrs.filter (fun e => decide (2 ^ 48 ≤ e.2) || (s.translate j e.2).isNone)).any (·.1 == k)), a.2) := by
  simp only [addrCheck, h, hm]
  rfl

end

/-- Settles O10: the checks of the encoding, then of the addresses; each ends in a fault, which is silent. -/
theorem memoryFaults : Obligations.MemoryFaults := by
  unfold Obligations.MemoryFaults
  intro e he s f slot g i hi ho hf silent
  have hsilent (c : Nat) (m : Word) (a : Nat) : silent (s.raise f slot g c g.pc m a 0 0 0) :=
    have h := silent_raise s f slot g c g.pc m a 0 0 0
    ⟨congrArg _ h.reqs, h.hbm, h.hull⟩
  have hexec : exec (e.cmd f slot) s = .next (settled s f slot g i (runMem f slot (e.shape i) (e.own i) s g i)) := by
    rw [memRules_issue e he, issueMem_settled hi ho hf]
  refine ⟨fun c hc => ⟨?_, hsilent _ _ _⟩, fun _ hc hl => ⟨fun a l hmis => ⟨_, ?_, hsilent _ _ _, rfl⟩,
    fun a l hmis hout => ⟨_, ?_, hsilent _ _ _, rfl⟩⟩⟩
  · rw [hexec, runMem_illegal hc]
  · rw [hexec, runMem_addresses hc hl (addrCheck_misaligned hmis)]
    rfl
  · rw [hexec, runMem_addresses hc hl (addrCheck_unmapped hmis hout)]
    rfl

end Sys2Proof.Laws
end

section
/-! PROOF. A memory instruction whose fault is recorded has formed no request (O11). -/

namespace Sys2Proof.Laws

open Sys2Proof Sys2Proof.Machine

/-- What holds of all that an issue can come to: nothing, a Facet whose code is lost, a fault, or the instruction done. -/
theorem issue_cases (P : State → Prop) {s : State} {f slot : Nat} {accept : Ins → Bool} {sources dests : Ins → List Nat × List Nat}
    {deferPoint : Bool} {run : State → Machine.Group → Ins → Issue} {chained : State → Machine.Group → Ins → List Nat}
    (same : P s) (lost : P (s.facetFault f))
    (fault : ∀ g i k code pc lanes addr info cause bar, P ((s.fetched f g i).raise f slot k code pc lanes addr info cause bar))
    (done : ∀ g i u k, run (s.fetched f g i) g i = .done u k → P (u.afterIssue f slot k)) :
    P (s.issue f slot accept sources dests deferPoint run chained) := by
  unfold State.issue
  split
  · exact same
  split
  · exact same
  split
  · exact lost
  split
  · exact same
  split
  · exact fault ..
  split
  · exact fault ..
  split
  · exact same
  split
  · exact same
  dsimp only
  generalize (Option.orElse _ _ : Option Deferred) = due
  split
  · exact fault ..
  split
  · exact same
  · exact fault ..
  · next u k hrun => exact done _ _ _ _ hrun

/-! What leaves the functions' records alone, the record of faults among them. -/

theorem fns_foldl {f : State → α → State} (hf : ∀ s x, (f s x).fns = s.fns) (l : List α) (s : State) : (l.foldl f s).fns = s.fns := by
  induction l generalizing s with
  | nil => rfl
  | cons x l ih => rw [List.foldl_cons, ih, hf]

theorem fns_loseBlocks (s : State) (f : Nat) : (s.loseBlocks f).fns = s.fns :=
  fns_foldl (f := fun s (b : Nat × Block) => if b.2.ended then s
    else s.updLaunch b.2.launch (fun (l : Launch) => { l with lost := true, live := l.live - 1, finish := s.launchTime l }))
    (fun s b => by split <;> rfl) _ s

/-- A Facet's own fault is none of its tenant (R49). -/
theorem fns_facetFault (s : State) (f : Nat) : (s.facetFault f).fns = s.fns := by
  rw [← fns_loseBlocks s f]
  unfold State.facetFault
  dsimp only
  split
  · rfl
  · split <;> rfl

theorem fns_takePort (s : State) (f slot : Nat) (g : Machine.Group) (i : Ins) (reads writes : List Reg?) :
    (s.takePort f slot g i reads writes).fns = s.fns := by
  unfold State.takePort
  split <;> rfl

theorem fns_formReqs (s : State) (r : LineReq) (accs : List LaneAcc) : (s.formReqs r accs).fns = s.fns := by
  unfold State.formReqs
  exact fns_foldl (by exact fun _ _ => rfl) _ s

theorem fns_afterIssue (s : State) (f slot : Nat) (g : Machine.Group) : (s.afterIssue f slot g).fns = s.fns := rfl

theorem faultNo_fetched (s : State) (f : Nat) (g : Machine.Group) (i : Ins) (j : Nat) :
    ((s.fetched f g i).fn j).faultNo = (s.fn j).faultNo := by
  unfold State.fetched
  split
  · rfl
  · by_cases hj : j = 0
    · rw [hj, State.count, State.setReg, fn_updFn]
    · rw [State.count, State.setReg, fn_updFn_ne _ _ hj]

/-- An instruction that is done has recorded no fault. -/
def KeepsFns (s : State) : Issue → Prop
  | .done t _ => t.fns = s.fns
  | _ => True

theorem keepsFns_runMem (f slot : Nat) (h : MemShape) (own : Bool) (s : State) (g : Machine.Group) (i : Ins) :
    KeepsFns s (runMem f slot h own s g i) := by
  simp only [runMem]
  split
  · trivial
  split
  · exact rfl
  split
  · trivial
  split
  · trivial
  · exact (fns_formReqs _ _ _).trans (fns_takePort _ _ _ _ _ _ _)

theorem keepsFns_runLock (f slot : Nat) (acquire own : Bool) (s : State) (g : Machine.Group) (i : Ins) :
    KeepsFns s (runLock f slot acquire own s g i) := by
  simp only [runLock]
  split
  · trivial
  split
  · exact rfl
  split
  · trivial
  split
  · split
    · trivial
    · exact fns_formReqs _ _ _
  · split
    · trivial
    · exact fns_formReqs _ _ _

theorem keepsFns_runTransfer (f slot : Nat) (store : Bool) (s : State) (g : Machine.Group) (i : Ins) :
    KeepsFns s (runTransfer f slot store s g i) := by
  simp only [runTransfer]
  split
  · trivial
  split
  · exact rfl
  split
  · trivial
  split
  · trivial
  split
  · trivial
  split
  · trivial
  · exact rfl

/-- An issue that raises a fault is silent (R116); one that does not leaves the count of faults. -/
theorem issue_faultSilent {s : State} {f slot : Nat} {accept : Ins → Bool} {sources dests : Ins → List Nat × List Nat}
    {deferPoint : Bool} {run : State → Machine.Group → Ins → Issue} {chained : State → Machine.Group → Ins → List Nat}
    (hr : ∀ s g i, KeepsFns s (run s g i)) :
    (∃ j, ((s.issue f slot accept sources dests deferPoint run chained).fn j).faultNo ≠ (s.fn j).faultNo) →
      Silent s (s.issue f slot accept sources dests deferPoint run chained) := by
  refine issue_cases (fun t => (∃ j, (t.fn j).faultNo ≠ (s.fn j).faultNo) → Silent s t) ?_ ?_ ?_ ?_
  · exact fun _ => .refl s
  · rintro ⟨j, hj⟩
    exact absurd (by rw [State.fn, fns_facetFault]; rfl) hj
  · exact fun g i k code pc lanes addr info cause bar _ => (silent_fetched _ _ _ _).trans (silent_raise _ _ _ _ _ _ _ _ _ _ _)
  · rintro g i u k hd ⟨j, hj⟩
    have hfns := hr (s.fetched f g i) g i
    rw [hd] at hfns
    refine absurd ?_ hj
    rw [State.fn, fns_afterIssue, hfns]
    exact faultNo_fetched _ _ _ _ _

/-- That a command issues an instruction that records no fault when it is done. -/
def IssuesSilently (cmd : Nat → Nat → Instr) : Prop := ∀ f slot s, ∃ accept sources dests run chained,
  exec (cmd f slot) s = .next (s.issue f slot accept sources dests false run chained) ∧ ∀ s g i, KeepsFns s (run s g i)

theorem issuesSilently_mem (op : Nat) (h : Ins → MemShape) (own : Ins → Bool) {cmd : Nat → Nat → Instr}
    (hc : ∀ f slot s, exec (cmd f slot) s = .next (issueMem s f slot op h own)) : IssuesSilently cmd :=
  fun f slot s => ⟨_, _, _, _, _, hc f slot s, fun s g i => keepsFns_runMem f slot _ _ s g i⟩

theorem memoryCommands_silent :
    ∀ cmd ∈ [Instr.ld, .lds, .st, .hint, .atom, .acq, .rel, .tmLd, .tmSt], IssuesSilently cmd := by
  simp only [List.forall_mem_cons, List.not_mem_nil, false_implies, implies_true, and_true]
  refine ⟨issuesSilently_mem 0x60 _ _ fun _ _ _ => rfl, issuesSilently_mem 0x61 _ _ fun _ _ _ => rfl,
    issuesSilently_mem 0x62 _ _ fun _ _ _ => rfl, issuesSilently_mem 0x63 _ _ fun _ _ _ => rfl,
    issuesSilently_mem 0x70 _ _ fun _ _ _ => rfl, fun f slot s => ?_, fun f slot s => ?_, fun f slot s => ?_, fun f slot s => ?_⟩
  · exact ⟨_, _, _, _, _, rfl, fun s g i => keepsFns_runLock f slot _ _ s g i⟩
  · exact ⟨_, _, _, _, _, rfl, fun s g i => keepsFns_runLock f slot _ _ s g i⟩
  · exact ⟨_, _, _, _, _, rfl, keepsFns_runTransfer f slot false⟩
  · exact ⟨_, _, _, _, _, rfl, keepsFns_runTransfer f slot true⟩

/-- Settles O11: of what an issue can come to, only a fault raises the count, and a fault is silent. -/
theorem faultingMemoryFormsNothing : Obligations.FaultingMemoryFormsNothing := by
  unfold Obligations.FaultingMemoryFormsNothing
  intro cmd hcmd f slot s t ht hj
  obtain ⟨accept, sources, dests, run, chained, hexec, hrun⟩ := memoryCommands_silent cmd hcmd f slot s
  obtain rfl : s.issue f slot accept sources dests false run chained = t := Host.Outcome.next.inj (hexec.symm.trans ht)
  have h := issue_faultSilent hrun hj
  exact ⟨h.reqs, fun k => List.subset_def.2 fun hx => h.transfers k ▸ hx, h.hbm, h.hull⟩

end Sys2Proof.Laws
end

section
/-! PROOF. FRET: its modes with the stack as at handler entry, another depth, outside a handler, and its illegal forms (O17). -/

namespace Sys2Proof.Laws

open Sys2Proof Sys2Proof.Machine

/-- The forms a command of FRET recognises: the mode in the two low bits of IMM16 (R122, R134). -/
def isFret (mode : Nat) (i : Ins) : Bool := i.op == 0x85 && i.fmt == 1 && i.imm % 4 == mode

section
variable {s : State} {f slot : Nat} {g : Machine.Group} {i : Ins}

theorem isFret_of {mode : Nat} (ho : i.op = 0x85) (hf : i.fmt = 1) (hm : i.imm % 4 = mode) : isFret mode i = true := by
  simp [isFret, ho, hf, hm]

/-- FRET as any instruction at issue. -/
theorem issue_fret {mode m : Nat} (h : AtIssue s f slot g i [] [] []) (ha : isFret mode i = true) :
    s.issue f slot (isFret mode) (fun _ => ([], [])) (fun _ => ([], [])) false (runFret f m) = settled s f slot g i (runFret f m s g i) :=
  issue_bare h ha

/-! What FRET comes to (R134, R135). -/

/-- Its unused fields and the bits of IMM16 above the mode are 0 (R106). -/
def fretLegal (i : Ins) : Bool := ownTrap i && decide (i.imm < 4)

theorem runFret_noHandler {m : Nat} (hk : g.handler = none) : runFret f m s g i = .fault 4 g.live 0 := by
  rw [runFret, hk]

theorem runFret_illegal {m : Nat} (hl : fretLegal i = false) : runFret f m s g i = .fault 4 g.live 0 := by
  rw [runFret]
  split
  · rfl
  · refine if_pos ?_
    have : ¬ (ownTrap i = true ∧ i.imm < 4) := by simpa [fretLegal] using hl
    simp only [Bool.or_eq_true, Bool.not_eq_true', decide_eq_true_eq]
    by_cases ho : ownTrap i = true
    · exact .inr (by have := mt (And.intro ho) this; omega)
    · exact .inl (by simpa using ho)

section
variable {k : Handler} (hk : g.handler = some k) (hl : fretLegal i = true)
include hk hl

/-- In a handler and in a legal form, by the lanes that execute it and its mode. -/
theorem runFret_legal (m : Nat) : runFret f m s g i =
    if g.lanes i = 0 then .done s (g.next i)
    else if m = 1 then .done s { g.leaveHandler k (k.pc + s.sizeAt f k.pc) with awaiting := none }
    else if k.info.getLsbD 1 then
      match g.awaiting with
      | some n => .done s { g.leaveHandler k k.pc with wait := .barrier n, awaiting := none }
      | none => .done s (g.leaveHandler k (k.pc + 8))
    else .done s (g.leaveHandler k k.pc) := by
  obtain ⟨ho, hi⟩ : ownTrap i = true ∧ i.imm < 4 := by simpa [fretLegal] using hl
  rw [runFret, hk]
  exact if_neg (by simp [ho, hi])

theorem runFret_idle (m : Nat) (h0 : g.lanes i = 0) : runFret f m s g i = .done s (g.next i) := by
  rw [runFret_legal hk hl, if_pos h0]

theorem runFret_skip (h0 : g.lanes i ≠ 0) :
    runFret f 1 s g i = .done s { g.leaveHandler k (k.pc + s.sizeAt f k.pc) with awaiting := none } := by
  rw [runFret_legal hk hl, if_neg h0, if_pos rfl]

theorem runFret_retry (h0 : g.lanes i ≠ 0) (ha : k.info.getLsbD 1 = false) : runFret f 0 s g i = .done s (g.leaveHandler k k.pc) := by
  rw [runFret_legal hk hl, if_neg h0, if_neg (by decide), if_neg (by rw [ha]; decide)]

theorem runFret_retryWaiting (h0 : g.lanes i ≠ 0) (ha : k.info.getLsbD 1 = true) {n : Nat} (hw : g.awaiting = some n) :
    runFret f 0 s g i = .done s { g.leaveHandler k k.pc with wait := .barrier n, awaiting := none } := by
  rw [runFret_legal hk hl, if_neg h0, if_neg (by decide), if_pos ha, hw]

theorem runFret_retryReleased (h0 : g.lanes i ≠ 0) (ha : k.info.getLsbD 1 = true) (hw : g.awaiting = none) :
    runFret f 0 s g i = .done s (g.leaveHandler k (k.pc + 8)) := by
  rw [runFret_legal hk hl, if_neg h0, if_neg (by decide), if_pos ha, hw]

end

/-! RETRY and SKIP issue like any instruction where they do not find another depth (R135). -/

theorem fretDouble_noHandler {accept : Ins → Bool} (h : s.group? f slot = some g) (hk : g.handler = none) :
    s.fretDouble f slot accept = none := by
  simp only [State.fretDouble, h, hk]

theorem fretDouble_at {mode : Nat} (h : AtIssue s f slot g i [] [] []) (ha : isFret mode i = true) {k : Handler}
    (hk : g.handler = some k) :
    s.fretDouble f slot (isFret mode) = if fretLegal i && (g.lanes i != 0) && (g.handlerDepth k != 0) then some (g, i) else none := by
  simp only [State.fretDouble, h.resident, hk, h.fetched, h.free, h.clocked, h.inside, ha, h.within, fretLegal, Bool.true_and,
    Bool.not_false]
  rfl

theorem isFret_def (mode : Nat) : (fun i : Ins => i.op == 0x85 && i.fmt == 1 && i.imm % 4 == mode) = isFret mode := rfl

theorem issueFret_of_none {mode : Nat} (h : AtIssue s f slot g i [] [] []) (ha : isFret mode i = true)
    (hd : s.fretDouble f slot (isFret mode) = none) : issueFret s f slot mode = settled s f slot g i (runFret f mode s g i) := by
  rw [← issue_fret h ha]
  simp only [issueFret, isFret_def, hd]

/-- Unless a lane executes RETRY or SKIP in a legal form at another depth, it issues like any instruction. -/
theorem issueFret_settled {mode : Nat} (h : AtIssue s f slot g i [] [] []) (ha : isFret mode i = true)
    (hd : fretLegal i = true → g.lanes i ≠ 0 → ∀ k, g.handler = some k → g.handlerDepth k = 0) :
    issueFret s f slot mode = settled s f slot g i (runFret f mode s g i) := by
  refine issueFret_of_none h ha ?_
  cases hk : g.handler with
  | none => exact fretDouble_noHandler h.resident hk
  | some k =>
    rw [fretDouble_at h ha hk]
    refine if_neg fun hc => ?_
    simp only [Bool.and_eq_true, bne_iff_ne, ne_eq] at hc
    exact hc.2 (hd hc.1.1 hc.1.2 k hk)

/-- R135: another depth aborts the block with DOUBLE_FAULT. -/
theorem issueFret_double {mode : Nat} (h : AtIssue s f slot g i [] [] []) (ha : isFret mode i = true) {k : Handler}
    (hk : g.handler = some k) (hl : fretLegal i = true) (h0 : g.lanes i ≠ 0) (hd : g.handlerDepth k ≠ 0) :
    issueFret s f slot mode = (s.markAborted g.vf k.no).abortBlock f slot g 0xFF g.pc := by
  have hsome : s.fretDouble f slot (isFret mode) = some (g, i) := by
    rw [fretDouble_at h ha hk]
    exact if_pos (by rw [hl, bne_iff_ne.2 h0, bne_iff_ne.2 hd]; rfl)
  simp only [issueFret, isFret_def, hsome, fetched_intact h.intact, hk, Option.map_some, Option.getD_some]

/-- FRET ABORT ends the block where a lane executes it in a legal form in a handler, and else issues like any instruction. -/
theorem fretAbort_at (h : AtIssue s f slot g i [] [] []) (ha : isFret 2 i = true) :
    exec (.fretAbort f slot) s = .next (match g.handler with
      | none => settled s f slot g i (runFret f 0 s g i)
      | some k => if fretLegal i && (g.lanes i != 0) then (s.markAborted g.vf k.no).abortBlock f slot g k.code k.pc
                  else settled s f slot g i (runFret f 0 s g i)) := by
  rw [← issue_fret h ha]
  have ha' : (i.op == 0x85 && i.fmt == 1 && i.imm % 4 == 2) = true := ha
  show execFretAbort f slot s = _
  cases hk : g.handler with
  | none => simp only [execFretAbort, h.resident, hk]; rfl
  | some k =>
    simp only [execFretAbort, h.resident, hk, h.fetched, h.free, h.clocked, h.inside, ha', h.within, fretLegal, Bool.true_and,
      Bool.not_false, fetched_intact h.intact]
    rfl

theorem fretAbort_settled (h : AtIssue s f slot g i [] [] []) (ha : isFret 2 i = true)
    (hk : g.handler = none ∨ fretLegal i = false ∨ g.lanes i = 0) :
    exec (.fretAbort f slot) s = .next (settled s f slot g i (runFret f 0 s g i)) := by
  rw [fretAbort_at h ha]
  split
  · rfl
  · next k hs =>
    refine congrArg _ (if_neg fun hc => ?_)
    simp only [Bool.and_eq_true, bne_iff_ne, ne_eq] at hc
    obtain hk | hk | hk := hk
    · simp [hs] at hk
    · simp [hk] at hc
    · exact hc.2 hk

theorem fretAbort_aborts (h : AtIssue s f slot g i [] [] []) (ha : isFret 2 i = true) {k : Handler} (hk : g.handler = some k)
    (hl : fretLegal i = true) (h0 : g.lanes i ≠ 0) :
    exec (.fretAbort f slot) s = .next ((s.markAborted g.vf k.no).abortBlock f slot g k.code k.pc) := by
  rw [fretAbort_at h ha, hk]
  exact congrArg _ (if_pos (by rw [hl, bne_iff_ne.2 h0]; rfl))

/-- R106: no command of FRET has mode 3. -/
theorem assigned_fretMode3 (ho : i.op = 0x85) (hf : i.fmt = 1) (hm : i.imm % 4 = 3) : assigned i = false := by
  simp [assigned, ho, hf, hm]

/-- The command of a mode of FRET. -/
def fretCmd (mode : Nat) (f slot : Nat) : Instr :=
  if mode = 0 then .fretRetry f slot else if mode = 1 then .fretSkip f slot else .fretAbort f slot

/-- Every mode issues like any instruction outside a handler, in an illegal form and in no lane. -/
theorem fret_settled {mode : Nat} (hm : mode < 3) (h : AtIssue s f slot g i [] [] []) (ha : isFret mode i = true)
    (hk : g.handler = none ∨ fretLegal i = false ∨ g.lanes i = 0) :
    ∃ m, exec (fretCmd mode f slot) s = .next (settled s f slot g i (runFret f m s g i)) := by
  have hd : fretLegal i = true → g.lanes i ≠ 0 → ∀ k, g.handler = some k → g.handlerDepth k = 0 := by
    intro hl h0 k hs
    obtain hk | hk | hk := hk
    · simp [hs] at hk
    · simp [hk] at hl
    · exact absurd hk h0
  obtain rfl | rfl | rfl : mode = 0 ∨ mode = 1 ∨ mode = 2 := by omega
  · exact ⟨0, congrArg Host.Outcome.next (issueFret_settled h ha hd)⟩
  · exact ⟨1, congrArg Host.Outcome.next (issueFret_settled h ha hd)⟩
  · exact ⟨0, fretAbort_settled h ha hk⟩

theorem fret_illegal {mode : Nat} (hm : mode < 3) (h : AtIssue s f slot g i [] [] []) (ha : isFret mode i = true)
    (hl : g.handler = none ∨ fretLegal i = false) :
    exec (fretCmd mode f slot) s = .next (s.raise f slot g 4 g.pc g.live 0 0 0 0) := by
  obtain ⟨m, he⟩ := fret_settled hm h ha (hl.imp_right .inl)
  rw [he, hl.elim runFret_noHandler runFret_illegal, settled_illegal]

theorem fret_idle {mode : Nat} (hm : mode < 3) (h : AtIssue s f slot g i [] [] []) (ha : isFret mode i = true) {k : Handler}
    (hk : g.handler = some k) (hl : fretLegal i = true) (h0 : g.lanes i = 0) :
    exec (fretCmd mode f slot) s = .next (s.afterIssue f slot (g.next i)) := by
  obtain ⟨m, he⟩ := fret_settled hm h ha (.inr (.inr h0))
  rw [he, runFret_idle hk hl m h0, settled_next]

end

/-- Settles O17: outside a handler and in illegal forms every mode faults; in a handler by the lanes, the mode and the depth. -/
theorem handlerReturns : Obligations.HandlerReturns := by
  unfold Obligations.HandlerReturns
  refine ⟨fun s f slot g i h ho hf => ?_, fun s f slot g i h ho hf hz he hi => ?_⟩
  · intro illegal
    refine ⟨fun hm => unassigned_illegal h (assigned_fretMode3 ho hf hm), fun hx => ?_⟩
    have hl : fretLegal i = false := by
      rw [fretLegal, Bool.and_eq_false_iff, decide_eq_false_iff_not, Nat.not_lt, ← Bool.not_eq_true, ownTrap_iff, not_and_or]
      tauto
    exact ⟨fun hm => fret_illegal (mode := 0) (by decide) h (isFret_of ho hf hm) (.inr hl),
      fun hm => fret_illegal (mode := 1) (by decide) h (isFret_of ho hf hm) (.inr hl),
      fun hm => fret_illegal (mode := 2) (by decide) h (isFret_of ho hf hm) (.inr hl)⟩
  · intro cmd
    have hl : fretLegal i = true := by
      rw [fretLegal, ownTrap_iff.2 ⟨hz, he⟩]
      exact decide_eq_true (by omega)
    have ha {mode : Nat} (hm : i.imm = mode) : isFret mode i = true := isFret_of ho hf (by omega)
    have settledAt {mode : Nat} (hm : i.imm = mode) {k : Handler} (hk : g.handler = some k) (hd : g.handlerDepth k = 0) :
        issueFret s f slot mode = settled s f slot g i (runFret f mode s g i) :=
      issueFret_settled h (ha hm) fun _ _ k' hk' => by rw [hk] at hk'; rwa [← Option.some.inj hk']
    refine ⟨fun hk => fret_illegal hi h (ha rfl) (.inl hk), fun k hk => ⟨fun h0 => fret_idle hi h (ha rfl) hk hl h0,
      fun h0 hm hd => ⟨fun hb => ?_, fun n hb hw => ?_, fun hb hw => ?_⟩, fun h0 hm hd => ?_, fun h0 hm hd => ?_, fun h0 hm => ?_⟩⟩
    · exact congrArg Host.Outcome.next ((settledAt hm hk hd).trans (congrArg _ (runFret_retry hk hl h0 hb)))
    · exact congrArg Host.Outcome.next ((settledAt hm hk hd).trans (congrArg _ (runFret_retryWaiting hk hl h0 hb hw)))
    · exact congrArg Host.Outcome.next ((settledAt hm hk hd).trans (congrArg _ (runFret_retryReleased hk hl h0 hb hw)))
    · exact congrArg Host.Outcome.next ((settledAt hm hk hd).trans (congrArg _ (runFret_skip hk hl h0)))
    · obtain hm | hm : i.imm = 0 ∨ i.imm = 1 := by omega
      · simp only [cmd, hm]
        exact congrArg Host.Outcome.next (issueFret_double h (ha hm) hk hl h0 hd)
      · simp only [cmd, hm]
        exact congrArg Host.Outcome.next (issueFret_double h (ha hm) hk hl h0 hd)
    · exact fretAbort_aborts h (ha hm) hk hl h0

end Sys2Proof.Laws
end

section
/-! PROOF. Taking a fault: halted under debug, delivered to the handler, or the block aborted, and recorded (O15). -/

namespace Sys2Proof.Laws

open Sys2Proof Sys2Proof.Machine

/-! Keyed lists. -/

theorem aget_adel (l : List (Nat × α)) (i k : Nat) : aget? (adel l i) k = if k = i then none else aget? l k := by
  induction l with
  | nil => simp [adel, aget?]
  | cons e l ih =>
    obtain ⟨j, x⟩ := e
    rw [adel, List.filter_cons]
    by_cases hj : j = i
    · rw [if_neg (by simp [hj]), ← adel, ih]
      split
      · rfl
      · next hk => rw [aget?, if_neg (by omega)]
    · rw [if_pos (by simpa using hj), aget?, ← adel, ih, aget?]
      by_cases hk : k = j
      · rw [if_pos hk, if_neg (by omega), if_pos hk]
      · rw [if_neg hk, if_neg hk]

theorem mem_of_aget {l : List (Nat × α)} {k : Nat} {v : α} (h : aget? l k = some v) : (k, v) ∈ l := by
  induction l with
  | nil => simp [aget?] at h
  | cons e l ih =>
    obtain ⟨j, x⟩ := e
    rw [aget?] at h
    split at h
    · next hk => simp [hk, Option.some.inj h]
    · exact List.mem_cons_of_mem _ (ih h)

theorem aget_of_mem {l : List (Nat × α)} (hl : (l.map (·.1)).Pairwise (· < ·)) {k : Nat} {v : α} (h : (k, v) ∈ l) :
    aget? l k = some v := by
  induction l with
  | nil => simp at h
  | cons e l ih =>
    obtain ⟨j, x⟩ := e
    rw [List.map_cons, List.pairwise_cons] at hl
    obtain hh | hh := List.mem_cons.1 h
    · cases hh
      exact if_pos rfl
    · have : j < k := hl.1 _ (List.mem_map_of_mem hh)
      rw [aget?, if_neg (by omega), ih hl.2 hh]

/-- What every step of a fold leaves alone, the fold does. -/
theorem foldl_keeps {β : Type} (p : σ → β) {f : σ → α → σ} (h : ∀ s x, p (f s x) = p s) (l : List α) (s : σ) :
    p (l.foldl f s) = p s := by
  induction l generalizing s with
  | nil => rfl
  | cons x l ih => exact (ih _).trans (h s x)

/-! The abort of a block (R133): it writes no register. -/

section
variable (s : State) (f slot b : Nat)

@[simp] theorem fns_updBlock (h : Block → Block) : (s.updBlock f b h).fns = s.fns := by
  unfold State.updBlock
  split <;> rfl

@[simp] theorem fns_freeSlotOf : (s.freeSlotOf f slot).fns = s.fns := rfl

@[simp] theorem fns_blockOver : (s.blockOver f b).fns = s.fns := by
  have hreap (t : State) : (t.reapBlock f b).fns = t.fns := by
    unfold State.reapBlock
    split
    · rfl
    · split <;> rfl
  have hend : (s.endBlock f b).fns = s.fns := by
    unfold State.endBlock
    split
    · rfl
    · split
      · rfl
      · exact fns_updBlock s f b _
  unfold State.blockOver
  split
  · rw [hreap, hend]
  · rfl

theorem fns_abortBlock (g : Machine.Group) (code pc : Nat) : (s.abortBlock f slot g code pc).fns = s.fns := by
  have hfold (t : State) (l : List (Nat × Machine.Group)) :
      (l.foldl (fun s e => if s.slotIdle f e.1 e.2 then s.freeSlotOf f e.1 else s) t).fns = t.fns :=
    foldl_keeps State.fns (fun t e => by split <;> rfl) l t
  rw [State.abortBlock, fns_blockOver, hfold, updFacet_fns, fns_updBlock]
  rfl

/-! It leaves the slots of the Facet to their groups, but for those of its own that are idle. -/

theorem groups_updBlock (h : Block → Block) : ((s.updBlock f b h).facet f).groups = (s.facet f).groups := by
  unfold State.updBlock
  split
  · rw [facet_updFacet]
  · rfl

theorem groups_blockOver : ((s.blockOver f b).facet f).groups = (s.facet f).groups := by
  have hreap (t : State) : ((t.reapBlock f b).facet f).groups = (t.facet f).groups := by
    unfold State.reapBlock
    split
    · rfl
    · split
      · rw [facet_updFacet]
      · rfl
  have hend : ((s.endBlock f b).facet f).groups = (s.facet f).groups := by
    unfold State.endBlock
    split
    · rfl
    · split
      · rfl
      · exact groups_updBlock s f b _
  unfold State.blockOver
  split
  · rw [hreap, hend]
  · rfl

/-- Whether a slot is idle turns on line requests and on the units of the Facet. -/
theorem slotIdle_updFacet {h : Facet → Facet} (hh : ∀ k, (h (s.facet f)).unitsIdle k = (s.facet f).unitsIdle k)
    (k : Nat) (x : Machine.Group) : (s.updFacet f h).slotIdle f k x = s.slotIdle f k x := by
  rw [State.slotIdle, State.slotIdle, facet_updFacet, hh]
  rfl

theorem slotIdle_freeSlotOf (i k : Nat) (x : Machine.Group) : (s.freeSlotOf f i).slotIdle f k x = s.slotIdle f k x :=
  slotIdle_updFacet s f (fun _ => rfl) k x

theorem slotIdle_updBlock (h : Block → Block) (k : Nat) (x : Machine.Group) :
    (s.updBlock f b h).slotIdle f k x = s.slotIdle f k x := by
  unfold State.updBlock
  split
  · exact slotIdle_updFacet s f (fun _ => rfl) k x
  · rfl

theorem group_freeSlotOf (k slot : Nat) : (s.freeSlotOf f k).group? f slot = if slot = k then none else s.group? f slot := by
  rw [State.group?, State.freeSlotOf, facet_updFacet]
  exact aget_adel _ _ _

/-- Freeing the idle ones of some slots. -/
theorem group_freeIdle (l : List (Nat × Machine.Group)) :
    (l.foldl (fun s e => if s.slotIdle f e.1 e.2 then s.freeSlotOf f e.1 else s) s).group? f slot =
      if l.any (fun e => e.1 == slot && s.slotIdle f e.1 e.2) then none else s.group? f slot := by
  induction l generalizing s with
  | nil => rfl
  | cons e l ih =>
    rw [List.foldl_cons, ih, List.any_cons]
    cases he : s.slotIdle f e.1 e.2 with
    | false => simp only [Bool.false_eq_true, if_false, Bool.and_false, Bool.false_or]
    | true =>
      simp only [if_true, slotIdle_freeSlotOf, group_freeSlotOf, Bool.and_true]
      by_cases hs : slot = e.1
      · simp [hs]
      · simp only [if_neg hs, beq_eq_false_iff_ne.2 (Ne.symm hs), Bool.false_or]

end

/-- The groups of a block as its abort leaves them. -/
def stoppedIn (b : Nat) (g : Machine.Group) : Machine.Group := if g.block = b then g.stopped else g

theorem groups_stopped (x : Facet) (b : Nat) :
    x.groups.map (fun e => if e.2.block = b then (e.1, e.2.stopped) else e) = x.groups.map (fun e => (e.1, stoppedIn b e.2)) :=
  List.map_congr_left fun e _ => by unfold stoppedIn; split <;> rfl

/-- The launch keeps the first fault and the groups of the block stop; which slots free is seen next. -/
def stopBlock (s : State) (f slot : Nat) (g : Machine.Group) (code pc : Nat) : State :=
  let t := (s.updLaunch g.launch (fun l =>
    if l.fault.isSome then l else { l with fault := some (code, s.logicalOf g.vf f, slot, pc) })).updBlock f g.block
      (fun b => { b with aborted := true, barriers := [] })
  t.updFacet f (fun x => { x with groups := x.groups.map (fun e => if e.2.block = g.block then (e.1, e.2.stopped) else e) })

theorem abortBlock_eq (s : State) (f slot : Nat) (g : Machine.Group) (code pc : Nat) : s.abortBlock f slot g code pc =
    (((stopBlock s f slot g code pc).blockGroups f g.block).foldl
      (fun s e => if s.slotIdle f e.1 e.2 then s.freeSlotOf f e.1 else s) (stopBlock s f slot g code pc)).blockOver f g.block := rfl

section
variable (s : State) (f slot : Nat) (g : Machine.Group) (code pc : Nat)

theorem groups_stopBlock : ((stopBlock s f slot g code pc).facet f).groups =
    (s.facet f).groups.map (fun e => (e.1, stoppedIn g.block e.2)) := by
  rw [stopBlock, facet_updFacet, ← groups_stopped, groups_updBlock]
  rfl

theorem slotIdle_stopBlock (k : Nat) (x : Machine.Group) : (stopBlock s f slot g code pc).slotIdle f k x = s.slotIdle f k x :=
  (slotIdle_updFacet _ f (fun _ => rfl) k x).trans (slotIdle_updBlock _ f g.block _ k x)

end

section
variable {s : State} {f slot : Nat} {g : Machine.Group}

/-- The faulting group leaves its slot at once where nothing of it is outstanding, and else stops. -/
theorem group_abortBlock (k : Machine.Group) (code pc : Nat) (hk : k.block = g.block) (hg : s.group? f slot = some g)
    (hkeys : ((s.facet f).groups.map (·.1)).Pairwise (· < ·)) :
    (s.abortBlock f slot k code pc).group? f slot = if s.slotIdle f slot g then none else some g.stopped := by
  rw [abortBlock_eq]
  have hslot : (stopBlock s f slot k code pc).group? f slot = some g.stopped := by
    rw [State.group?, groups_stopBlock, aget_map (fun _ => stoppedIn k.block), ← State.group?, hg, Option.map_some, stoppedIn,
      if_pos hk.symm]
  have hkeys' : (((stopBlock s f slot k code pc).facet f).groups.map (·.1)).Pairwise (· < ·) := by
    rwa [groups_stopBlock, List.map_map]
  have hmem : (slot, g.stopped) ∈ (stopBlock s f slot k code pc).blockGroups f k.block :=
    List.mem_filter.2 ⟨mem_of_aget hslot, by simp [Group.stopped, hk]⟩
  have honly : ∀ e ∈ (stopBlock s f slot k code pc).blockGroups f k.block, e.1 = slot → e.2 = g.stopped := by
    intro e he hs
    have := aget_of_mem hkeys' (List.mem_filter.1 he).1
    rw [hs, ← State.group?, hslot] at this
    exact (Option.some.inj this).symm
  have hany : ((stopBlock s f slot k code pc).blockGroups f k.block).any
      (fun e => e.1 == slot && (stopBlock s f slot k code pc).slotIdle f e.1 e.2) = s.slotIdle f slot g := by
    rw [Bool.eq_iff_iff, List.any_eq_true]
    simp only [slotIdle_stopBlock, Bool.and_eq_true, beq_iff_eq]
    constructor
    · rintro ⟨e, he, hs, hi⟩
      rw [hs, honly e he hs] at hi
      exact hi
    · exact fun hi => ⟨_, hmem, rfl, hi⟩
  rw [State.group?, groups_blockOver, ← State.group?, group_freeIdle, hany, hslot]

end

/-! The launch of an aborted block keeps its first fault. -/

/-- Every launch is there still, with its number and its fault. -/
def FaultsKept (s t : State) : Prop := ∀ l ∈ s.launches, ∃ m ∈ t.launches, m.id = l.id ∧ m.fault = l.fault

theorem FaultsKept.of_launches {s t : State} (h : t.launches = s.launches) : FaultsKept s t :=
  fun l hl => ⟨l, h ▸ hl, rfl, rfl⟩

theorem FaultsKept.trans {s t u : State} (h : FaultsKept s t) (k : FaultsKept t u) : FaultsKept s u := fun l hl => by
  obtain ⟨m, hm, hid, hf⟩ := h l hl
  obtain ⟨n, hn, hid', hf'⟩ := k m hm
  exact ⟨n, hn, hid'.trans hid, hf'.trans hf⟩

theorem launches_updBlock (s : State) (f b : Nat) (h : Block → Block) : (s.updBlock f b h).launches = s.launches := by
  unfold State.updBlock
  split <;> rfl

theorem faultsKept_endBlock (s : State) (f b : Nat) : FaultsKept s (s.endBlock f b) := by
  unfold State.endBlock
  split
  · exact .of_launches rfl
  · split
    · exact .of_launches rfl
    · intro l hl
      refine ⟨_, List.mem_map_of_mem (a := l) (by rw [launches_updBlock]; exact hl), ?_⟩
      split <;> exact ⟨rfl, rfl⟩

theorem faultsKept_blockOver (s : State) (f b : Nat) : FaultsKept s (s.blockOver f b) := by
  unfold State.blockOver
  split
  · refine (faultsKept_endBlock s f b).trans (.of_launches ?_)
    unfold State.reapBlock
    split
    · rfl
    · split <;> rfl
  · exact .of_launches rfl

theorem launch_abortBlock (s : State) (f slot : Nat) (g : Machine.Group) (code pc : Nat) {l : Launch} (hl : l ∈ s.launches)
    (hid : l.id = g.launch) : ∃ m ∈ (s.abortBlock f slot g code pc).launches, m.id = l.id ∧
      m.fault = if l.fault.isSome then l.fault else some (code, s.logicalOf g.vf f, slot, pc) := by
  have hfold (t : State) (l : List (Nat × Machine.Group)) :
      (l.foldl (fun s e => if s.slotIdle f e.1 e.2 then s.freeSlotOf f e.1 else s) t).launches = t.launches :=
    foldl_keeps State.launches (fun t e => by split <;> rfl) l t
  have hstop : (stopBlock s f slot g code pc).launches = s.launches.map (fun l => if l.id = g.launch then
      (if l.fault.isSome then l else { l with fault := some (code, s.logicalOf g.vf f, slot, pc) }) else l) :=
    launches_updBlock _ _ _ _
  have hm := List.mem_map_of_mem (f := fun l : Launch => if l.id = g.launch then
      (if l.fault.isSome then l else { l with fault := some (code, s.logicalOf g.vf f, slot, pc) }) else l) hl
  rw [← hstop, ← hfold] at hm
  obtain ⟨m, hmem, hmid, hmf⟩ := faultsKept_blockOver _ f g.block _ hm
  refine ⟨m, hmem, hmid.trans ?_, hmf.trans ?_⟩
  · rw [if_pos hid]
    split <;> rfl
  · rw [if_pos hid]
    split <;> rfl

/-! The record of a fault (R137), and what its counting leaves alone. -/

section
variable (s : State) (f slot : Nat) (g : Machine.Group) (code pc : Nat)

theorem reg_counted {k a : Nat} (cause bar : Nat) (h : k ≠ g.vf ∨ (a ≠ Reg.execCounts ∧ a ≠ Reg.execStallLast)) :
    (counted s f slot g code cause bar).reg k a = s.reg k a := by
  have hother {r : Nat} (t : State) (v : Word) (hr : k ≠ g.vf ∨ a ≠ r) : (t.setReg g.vf r v).reg k a = t.reg k a := by
    rw [reg_setReg_iff, if_neg (by tauto)]
  unfold counted
  split
  · rw [hother _ _ (h.imp_right And.right), State.count, hother _ _ (h.imp_right And.left)]
  · split
    · exact hother _ _ (h.imp_right And.left)
    · rfl

theorem reg_recordFault {k a : Nat} (aborted : Bool) (h : k ≠ g.vf ∨ (a ≠ Reg.execFaultLast ∧ a ≠ Reg.execFaultPc)) :
    (s.recordFault f slot g code pc aborted).reg k a = s.reg k a := by
  have hno : (s.updFn g.vf (fun x => { x with faultNo := x.faultNo + 1 })).reg k a = s.reg k a := by
    by_cases hk : k = g.vf
    · rw [hk, State.reg, fn_updFn, State.reg]
    · rw [State.reg, fn_updFn_ne _ _ hk, State.reg]
  rw [State.recordFault, reg_setReg_iff, if_neg (by tauto), reg_setReg_iff, if_neg (by tauto), hno]

/-- The Facet list of a tenant stands in registers that no fault writes. -/
theorem logicalOf_keeps {t : State} (hp : t.positions = s.positions) (j : Nat)
    (hr : ∀ w < 6, t.reg 0 (Reg.tenFacets j w) = s.reg 0 (Reg.tenFacets j w)) (f : Nat) : t.logicalOf j f = s.logicalOf j f := by
  have hlist : t.logical j = s.logical j := by
    rw [State.logical, hp, List.filter_congr (q := fun p => (s.reg 0 (Reg.tenFacets j (p / 32))).getLsbD (p % 32))]
    · rfl
    · intro p hmem
      have := List.mem_range.1 hmem
      rw [hr _ (by omega)]
  rw [State.logicalOf, hlist]
  rfl

theorem logicalOf_counted (cause bar : Nat) : (counted s f slot g code cause bar).logicalOf g.vf f = s.logicalOf g.vf f := by
  refine logicalOf_keeps s ?_ _ (fun w hw => reg_counted s f slot g code cause bar ?_) f
  · unfold counted
    split
    · rfl
    · split <;> rfl
  · simp only [Reg.tenFacets, Reg.execCounts, Reg.execStallLast]
    omega

theorem logicalOf_recordFault (aborted : Bool) :
    (s.recordFault f slot g code pc aborted).logicalOf g.vf f = s.logicalOf g.vf f := by
  refine logicalOf_keeps s (t := s.recordFault f slot g code pc aborted) rfl g.vf (fun w hw => ?_) f
  refine reg_recordFault s f slot g code pc aborted ?_
  simp only [Reg.tenFacets, Reg.execFaultLast, Reg.execFaultPc]
  omega

/-- EXEC_FAULT_PC. -/
theorem faultPc_recordFault (aborted : Bool) :
    (s.recordFault f slot g code pc aborted).reg g.vf Reg.execFaultPc = BitVec.ofNat 32 (pc % 2 ^ 18) := reg_setReg _ _ _ _

/-- EXEC_FAULT_LAST (R137): RECORDED, ABORTED, CODE, FACET and SLOT. -/
def faultRecord (aborted : Bool) (code logical slot : Nat) : Word :=
  setField (setField (setField (setField (setField 0 31 31 1) 30 30 (if aborted then 1 else 0)) 29 22 code) 21 14 logical) 13 8 slot

theorem faultLast_recordFault (aborted : Bool) : (s.recordFault f slot g code pc aborted).reg g.vf Reg.execFaultLast =
    faultRecord aborted code (s.logicalOf g.vf f) slot := by
  rw [State.recordFault, reg_setReg_ne _ _ _ (by decide), reg_setReg]
  rfl

end

section
variable (aborted : Bool) (code logical slot : Nat)

theorem faultRecord_recorded : (faultRecord aborted code logical slot).getLsbD 31 = true := by
  simp only [faultRecord, getLsbD_setField _ (show 31 < 32 by decide)]
  rfl

theorem faultRecord_aborted : (faultRecord aborted code logical slot).getLsbD 30 = aborted := by
  simp only [faultRecord, getLsbD_setField _ (show 30 < 32 by decide)]
  cases aborted <;> rfl

theorem faultRecord_slot : field (faultRecord aborted code logical slot) 13 8 = slot % 64 := field_setField _ (by decide)

/-- A field below another one written later. -/
theorem field_setField_above {w : Word} {hi lo hi' lo' : Nat} (x : Nat) (hh : hi < 32) (h : hi' < lo) :
    field (setField w hi' lo' x) hi lo = field w hi lo := by
  refine Nat.eq_of_testBit_eq fun i => ?_
  rw [testBit_field, testBit_field]
  by_cases hi : i < hi + 1 - lo
  · rw [getLsbD_setField x (by omega), if_neg (by omega)]
  · simp [hi]

theorem faultRecord_code (h : code < 256) : field (faultRecord aborted code logical slot) 29 22 = code := by
  rw [faultRecord, field_setField_above _ (by decide) (by decide), field_setField_above _ (by decide) (by decide),
    field_setField _ (by decide)]
  exact Nat.mod_eq_of_lt h

end

/-! The three ways a fault is taken (R129, R130, R132). -/

section
variable {s : State} {f slot : Nat} {g : Machine.Group} {code pc : Nat} {lanes : Word} {addr : Nat} {info : Word} {cause bar : Nat}

/-- Taking a fault counts and records it in registers of its tenant only. -/
theorem rest_counted : counted s f slot g code cause bar = { s with fns := (counted s f slot g code cause bar).fns } := by
  unfold counted
  split
  · rfl
  · split <;> rfl

theorem facets_counted : (counted s f slot g code cause bar).facets = s.facets := by
  rw [rest_counted]
theorem reqs_counted : (counted s f slot g code cause bar).reqs = s.reqs := by
  rw [rest_counted]
theorem launches_counted : (counted s f slot g code cause bar).launches = s.launches := by
  rw [rest_counted]

theorem debugOn_counted (j : Nat) : (counted s f slot g code cause bar).debugOn j = s.debugOn j := by
  rw [State.debugOn, reg_counted _ _ _ _ _ _ _ (.inr (by decide))]
  rfl

theorem armed_counted : (counted s f slot g code cause bar).reg g.vf Reg.execFaultEntry = s.reg g.vf Reg.execFaultEntry :=
  reg_counted _ _ _ _ _ _ _ (.inr (by decide))

theorem raise_halts (hh : g.handler = none) (hd : s.debugOn g.vf = true) :
    s.raise f slot g code pc lanes addr info cause bar =
      ((counted s f slot g code cause bar).recordFault f slot (restarted g) code pc false).setGroup f slot
        { restarted g with
          halt := .halted, faulted := some (faultState (counted s f slot g code cause bar) g code pc lanes addr info) } := by
  rw [raise_eq]
  simp only [hh, Option.isSome_none, Bool.false_eq_true, if_false, debugOn_counted, hd, if_true]

theorem raise_enters (hh : g.handler = none) (hd : s.debugOn g.vf = false)
    (ha : (s.reg g.vf Reg.execFaultEntry).getLsbD 31 = true) :
    s.raise f slot g code pc lanes addr info cause bar =
      ((counted s f slot g code cause bar).recordFault f slot (restarted g) code pc false).setGroup f slot
        ((counted s f slot g code cause bar).enterHandler (restarted g)
          (faultState (counted s f slot g code cause bar) g code pc lanes addr info)) := by
  rw [raise_eq]
  simp only [hh, Option.isSome_none, Bool.false_eq_true, if_false, debugOn_counted, hd]
  exact if_pos (by rw [restarted, armed_counted, ha])

theorem raise_aborts (h : g.handler.isSome = true ∨ (s.debugOn g.vf = false ∧ (s.reg g.vf Reg.execFaultEntry).getLsbD 31 = false)) :
    s.raise f slot g code pc lanes addr info cause bar =
      ((counted s f slot g code cause bar).recordFault f slot (restarted g) code pc true).abortBlock f slot (restarted g)
        (if g.handler.isSome then 0xFF else code) pc := by
  rw [raise_eq]
  by_cases hh : g.handler.isSome = true
  · simp only [hh, if_true]
  · obtain ⟨hd, ha⟩ := h.resolve_left hh
    simp only [hh, Bool.false_eq_true, if_false, debugOn_counted, hd]
    exact if_neg (by rw [restarted, armed_counted, ha]; decide)

end

/-- What the registers show of a fault of a group once it is taken (R137). -/
structure Recorded (t : State) (slot : Nat) (g : Machine.Group) (code pc : Nat) (aborted : Bool) : Prop where
  recorded : (t.reg g.vf Reg.execFaultLast).getLsbD 31 = true
  code : field (t.reg g.vf Reg.execFaultLast) 29 22 = code
  slot : field (t.reg g.vf Reg.execFaultLast) 13 8 = slot % 64
  pc : t.reg g.vf Reg.execFaultPc = BitVec.ofNat 32 (pc % 2 ^ 18)
  aborted : (t.reg g.vf Reg.execFaultLast).getLsbD 30 = aborted

/-- The record stays where nothing after it writes a register. -/
theorem recorded_of_fns {s t : State} {f slot : Nat} {g : Machine.Group} {code pc : Nat} {aborted : Bool} (hcode : code < 256)
    (ht : t.fns = (s.recordFault f slot (restarted g) code pc aborted).fns) : Recorded t slot g code pc aborted := by
  have hreg (a : Nat) : t.reg g.vf a = (s.recordFault f slot (restarted g) code pc aborted).reg g.vf a := by
    rw [State.reg, State.fn, ht]
    rfl
  have hlast : t.reg g.vf Reg.execFaultLast = faultRecord aborted code (s.logicalOf g.vf f) slot :=
    (hreg _).trans (faultLast_recordFault s f slot (restarted g) code pc aborted)
  constructor
  case pc => exact (hreg _).trans (faultPc_recordFault s f slot (restarted g) code pc aborted)
  all_goals rw [hlast]
  · exact faultRecord_recorded _ _ _ _
  · exact faultRecord_code _ _ _ _ hcode
  · exact faultRecord_slot _ _ _ _
  · exact faultRecord_aborted _ _ _ _

section
variable {s : State} {f slot : Nat} {g : Machine.Group} {code pc : Nat} {lanes : Word} {addr : Nat} {info : Word} {cause bar : Nat}
  (hcode : code < 256)
include hcode

theorem recorded_raise_halts (hh : g.handler = none) (hd : s.debugOn g.vf = true) :
    Recorded (s.raise f slot g code pc lanes addr info cause bar) slot g code pc false :=
  recorded_of_fns hcode ((congrArg State.fns (raise_halts hh hd)).trans (setGroup_fns _ _ _ _))

theorem recorded_raise_enters (hh : g.handler = none) (hd : s.debugOn g.vf = false)
    (ha : (s.reg g.vf Reg.execFaultEntry).getLsbD 31 = true) :
    Recorded (s.raise f slot g code pc lanes addr info cause bar) slot g code pc false :=
  recorded_of_fns hcode ((congrArg State.fns (raise_enters hh hd ha)).trans (setGroup_fns _ _ _ _))

theorem recorded_raise_aborts
    (h : g.handler.isSome = true ∨ (s.debugOn g.vf = false ∧ (s.reg g.vf Reg.execFaultEntry).getLsbD 31 = false)) :
    Recorded (s.raise f slot g code pc lanes addr info cause bar) slot g code pc true :=
  recorded_of_fns hcode ((congrArg State.fns (raise_aborts h)).trans (fns_abortBlock _ _ _ _ _ _))

theorem recorded_raise : ∃ aborted, Recorded (s.raise f slot g code pc lanes addr info cause bar) slot g code pc aborted := by
  cases hh : g.handler with
  | some k => exact ⟨true, recorded_raise_aborts hcode (.inl (by rw [hh]; rfl))⟩
  | none =>
    cases hd : s.debugOn g.vf with
    | true => exact ⟨false, recorded_raise_halts hcode hh hd⟩
    | false =>
      cases ha : (s.reg g.vf Reg.execFaultEntry).getLsbD 31 with
      | true => exact ⟨false, recorded_raise_enters hcode hh hd ha⟩
      | false => exact ⟨true, recorded_raise_aborts hcode (.inr ⟨hd, ha⟩)⟩

end

section
variable {s : State} {f slot : Nat} {g : Machine.Group} (code pc : Nat) (lanes : Word) (addr : Nat) (info : Word) (cause bar : Nat)
  (h : g.handler.isSome = true ∨ (s.debugOn g.vf = false ∧ (s.reg g.vf Reg.execFaultEntry).getLsbD 31 = false))
include h

/-- The slot of a group whose fault aborts its block. -/
theorem group_raise_aborts (hg : s.group? f slot = some g) (hkeys : ((s.facet f).groups.map (·.1)).Pairwise (· < ·)) :
    (s.raise f slot g code pc lanes addr info cause bar).group? f slot =
      if s.slotIdle f slot g then none else some g.stopped := by
  have hfacet : (counted s f slot g code cause bar).facet f = s.facet f := by
    rw [State.facet, facets_counted, State.facet]
  have hidle : (counted s f slot g code cause bar).slotIdle f slot g = s.slotIdle f slot g := by
    rw [State.slotIdle, State.slotIdle, State.requestsOut, State.requestsOut, hfacet, reqs_counted]
  have hg' : (counted s f slot g code cause bar).group? f slot = some g := by
    rw [State.group?, hfacet, ← State.group?, hg]
  rw [raise_aborts h, ← hidle]
  exact group_abortBlock (restarted g) _ pc rfl hg' (by rwa [← hfacet] at hkeys)

/-- The launch of a group whose fault aborts its block. -/
theorem launch_raise_aborts {l : Launch} (hl : l ∈ s.launches) (hid : l.id = g.launch) :
    ∃ m ∈ (s.raise f slot g code pc lanes addr info cause bar).launches, m.id = l.id ∧
      m.fault = if l.fault.isSome then l.fault
        else some (if g.handler.isSome then 0xFF else code, s.logicalOf g.vf f, slot, pc) := by
  have hlogical := (logicalOf_recordFault (counted s f slot g code cause bar) f slot (restarted g) code pc true).trans
    (logicalOf_counted s f slot g code cause bar)
  rw [raise_aborts h, ← hlogical]
  rw [← launches_counted (f := f) (slot := slot) (g := g) (code := code) (cause := cause) (bar := bar)] at hl
  exact launch_abortBlock _ f slot (restarted g) _ pc hl hid

end

/-- Settles O15: by the three ways a fault is taken; each writes the same record but for ABORTED. -/
theorem faultEntry : Obligations.FaultEntry := by
  unfold Obligations.FaultEntry
  intro s f slot g code pc lanes addr info cause bar hg hcode hkeys t last saved armed
  obtain ⟨_, hrec⟩ := recorded_raise (s := s) (f := f) (slot := slot) (g := g) (pc := pc) (lanes := lanes) (addr := addr)
    (info := info) (cause := cause) (bar := bar) hcode
  refine ⟨hrec.recorded, hrec.code, hrec.slot, hrec.pc, fun hh hd => ⟨(recorded_raise_halts hcode hh hd).aborted, ?_⟩,
    fun hh hd ha => ⟨(recorded_raise_enters hcode hh hd ha).aborted, ?_⟩,
    fun h => ⟨(recorded_raise_aborts hcode h).aborted, fun hi => ?_, fun hi => ?_, fun l hl hid => ?_⟩⟩
  · exact ⟨_, _, (congrArg (State.group? · f slot) (raise_halts hh hd)).trans (group_setGroup _ _ _ _), rfl,
      ⟨rfl, rfl, rfl, rfl, rfl, rfl, rfl⟩, rfl, hh, rfl, rfl, rfl, rfl, rfl, rfl, rfl⟩
  · refine ⟨_, _, (congrArg (State.group? · f slot) (raise_enters hh hd ha)).trans (group_setGroup _ _ _ _), rfl,
      ⟨rfl, rfl, rfl, rfl, rfl, rfl, rfl⟩, rfl, ?_, rfl, rfl, rfl, rfl, rfl⟩
    exact congrArg (fun w => 8 * field w 17 3) armed_counted
  · rw [group_raise_aborts code pc lanes addr info cause bar h hg hkeys, if_pos hi]
  · exact ⟨_, by rw [group_raise_aborts code pc lanes addr info cause bar h hg hkeys, if_neg (by rw [hi]; decide)], rfl, rfl⟩
  · obtain ⟨m, hm, hmid, hmf⟩ := launch_raise_aborts code pc lanes addr info cause bar h hl hid
    exact ⟨m, hm, hmid, fun hn => by rw [hmf, hn]; rfl, fun hs => by rw [hmf, if_pos hs]⟩

end Sys2Proof.Laws
end

section
/-! PROOF. CVT: the value of each lane, and the stochastic state of the lanes it converts under mode 4 (O6). -/

namespace Sys2Proof.Laws

open Sys2Proof Sys2Proof.Machine

/-! The stochastic state plays no part in how a group goes on. -/

/-- A group with its stochastic state replaced. -/
def drawing (t : Cells 32) (g : Machine.Group) : Machine.Group := { g with lfsr := t }

theorem reconverge_drawing (t : Cells 32) (g : Machine.Group) (n : Nat) :
    (drawing t g).reconverge n = drawing t (g.reconverge n) := by
  induction n generalizing g with
  | zero => rfl
  | succ n ih =>
    rw [Group.reconverge, Group.reconverge]
    split
    · next hs =>
      have hs : g.stack = [] := hs
      simp only [hs]
    · next e rest hs =>
      have hs : g.stack = e :: rest := hs
      have hpop : (drawing t g).pop e rest = drawing t (g.pop e rest) := by
        unfold Group.pop
        split <;> rfl
      simp only [hs, hpop, apply_ite (drawing t), ← ih]
      rfl

theorem settle_drawing (t : Cells 32) (g : Machine.Group) : (drawing t g).settle = drawing t g.settle := by
  cases hh : g.handler with
  | none =>
    simp only [Group.settle, show (drawing t g).handler = none from hh, hh]
    exact reconverge_drawing t g _
  | some h =>
    simp only [Group.settle, show (drawing t g).handler = some h from hh, hh]
    have hinner := reconverge_drawing t { g with stack := g.stack.take (g.stack.length - h.depth) } (2 * g.stack.length + 2)
    simp only [drawing, hh] at hinner ⊢
    rw [hinner]

/-- A group after its instruction, a step counted, at its reconvergence point. -/
def issued (g : Machine.Group) : Machine.Group := (if g.halt = .stepping then { g with halt := .stepped } else g).settle

theorem afterIssue_eq (s : State) (f slot : Nat) (g : Machine.Group) : s.afterIssue f slot g = s.setGroup f slot (issued g) := rfl

theorem issued_drawing (t : Cells 32) (g : Machine.Group) : issued (drawing t g) = drawing t (issued g) := by
  rw [issued, issued, ← settle_drawing]
  refine congrArg Group.settle ?_
  rw [apply_ite (drawing t)]
  rfl

/-! The draws of mode 4 (R160). -/

/-- The state of a group's lanes once those of a list have drawn. -/
def draws (l : List Nat) (t : Cells 32) : Cells 32 := l.foldl (fun u k => tset u k (nextDraw (tget t k))) t

theorem tget_draws {t : Cells 32} (ht : tableWf 32 t = true) (l : List Nat) (k : Nat) :
    tget (draws l t) k = if k ∈ l then nextDraw (tget t k) else tget t k := by
  have hfold (u : Cells 32) (hu : tableWf 32 u = true) :
      tget (l.foldl (fun u k => tset u k (nextDraw (tget t k))) u) k = if k ∈ l then nextDraw (tget t k) else tget u k := by
    induction l generalizing u with
    | nil => simp
    | cons e l ih =>
      rw [List.foldl_cons, ih _ (tableWf_tset e _ hu), tget_tset e k _ hu]
      by_cases hk : k = e
      · simp [hk]
      · simp [hk]
  exact hfold t ht

/-- The stochastic state after a conversion: in mode 4 the lanes that convert have drawn. -/
def drawn (g : Machine.Group) (i : Ins) : Cells 32 := if i.mod % 8 = 4 then draws (bitsOf (g.lanes i)) g.lfsr else g.lfsr

theorem tget_drawn {g : Machine.Group} (i : Ins) (ht : tableWf 32 g.lfsr = true) (l : Nat) : tget (drawn g i) l =
    if i.mod % 8 = 4 ∧ l ∈ bitsOf (g.lanes i) then nextDraw (tget g.lfsr l) else tget g.lfsr l := by
  unfold drawn
  by_cases hm : i.mod % 8 = 4
  · simp [hm, tget_draws ht]
  · simp [hm]

/-- The encoding rules of CVT (R112). -/
def ownCvt (i : Ins) : Bool :=
  decide (i.type ≤ 13) && decide (i.b ≤ 13) && !i.ub && i.ext3 == 0 && decide (i.mod % 8 ≤ 4) &&
    (i.mod % 8 != 4 || (decide (4 ≤ i.type) && decide (i.type ≤ 7)))

theorem cvtSource_of_own {i : Ins} (h : ownCvt i = true) : i.b ≤ 13 := by
  simp only [ownCvt, Bool.and_eq_true, decide_eq_true_eq] at h
  exact h.1.1.1.1.2

/-- The value CVT gives a lane. -/
def cvtLane (g : Machine.Group) (i : Ins) (l : Lane) : Nat :=
  cvtValue i.b i.type (i.mod % 8) (i.w0.getLsbD 43) (tget (drawn g i) l.lane).toNat l.a

section
variable {s : State} {f slot : Nat} {g : Machine.Group} {i : Ins}

/-- The state and the group that a legal ALU instruction with independent lanes hands on. -/
theorem runAlu_lanes {h : Shape} {own : Bool} (imm : Nat) (fn : Lane → Nat) (hc : aluChecks s g h i own = none)
    (hr : rlxHeld s f slot i = false) : ∃ (u : State) (k : Machine.Group),
      runAlu f slot h own imm (fun _ l => fn l) s g i = .done u k ∧ OnlyGroup s u f slot ∧
        aluResult s f slot g i h imm fn = u.afterIssue f slot k := by
  refine ⟨_, _, ?_, onlyGroup_trans (onlyGroup_writeAll ..) (onlyGroup_takePort ..), rfl⟩
  rw [runAlu, hc]
  simp only [hr, Bool.false_eq_true, if_false, aluEffect_lanes]

/-- CVT writes its lanes as any instruction of the ALU does, and stores the state its draws left. -/
theorem exec_cvt (h : AluAtIssue s f slot g i (cvtShape i)) (ho : i.op = 0x50) (hf : i.fmt = 0)
    (hc : aluChecks s g (cvtShape i) i (ownCvt i) = none) (hr : rlxHeld s f slot i = false) :
    ∃ (u : State) (k : Machine.Group), OnlyGroup s u f slot ∧
      aluResult s f slot g i (cvtShape i) 0 (cvtLane g i) = u.afterIssue f slot k ∧
      exec (.cvt f slot) s = .next (u.afterIssue f slot (drawing (drawn g i) k)) := by
  obtain ⟨u, k, hrun, honly, hresult⟩ := runAlu_lanes (slot := slot) 0 (cvtLane g i) hc hr
  refine ⟨u, k, honly, hresult, ?_⟩
  have hb : i.b % 16 = i.b := Nat.mod_eq_of_lt (by have := cvtSource_of_own (own_of_aluChecks hc); omega)
  have hdrawn : (if i.mod % 8 = 4 then drawing (draws (bitsOf (g.lanes i)) g.lfsr) g else g).lfsr = drawn g i :=
    apply_ite Group.lfsr ..
  show execCvt f slot s = _
  rw [execCvt, issue_plain (g := g) (i := i)]
  · simp only [drawing, draws] at hdrawn
    simp only [hb, hdrawn]
    change runAlu f slot (cvtShape i) (ownCvt i) 0 (fun _ l => cvtLane g i l) s g i = _ at hrun
    simp only [cvtLane, ownCvt] at hrun
    rw [hrun]
    rfl
  · have hd : (cvtShape i).dest ≠ 0 := by
      unfold cvtShape
      dsimp only
      split <;> decide
    simp only [AluAtIssue, if_neg hd] at h
    exact h
  · simp [ho, hf]

end

/-! The values of CVT (R112, R155 to R159). -/

/-- No type is both a floating-point and an integer one. -/
theorem intOf_of_fmtOf {t : Nat} {k : Fmt} (h : fmtOf t = some k) : intOf t = none := by
  unfold fmtOf at h
  split at h
  case h_8 => cases h
  all_goals rfl

theorem fmtOf_of_intOf {t w : Nat} {sg : Bool} (h : intOf t = some (w, sg)) : fmtOf t = none := by
  cases hk : fmtOf t with
  | none => rfl
  | some k => simp [intOf_of_fmtOf hk] at h

/-- The widths of the integer types. -/
theorem width_of_intOf {t w : Nat} {sg : Bool} (h : intOf t = some (w, sg)) : w = 8 ∨ w = 16 ∨ w = 32 := by
  unfold intOf at h
  split at h <;> simp_all

/-- The ends of an integer type. -/
def intLow (w : Nat) (sg : Bool) : Int := if sg then -2 ^ (w - 1) else 0
def intHigh (w : Nat) (sg : Bool) : Int := if sg then 2 ^ (w - 1) - 1 else 2 ^ w - 1

theorem intLow_le_intHigh (w : Nat) (sg : Bool) : intLow w sg ≤ intHigh w sg := by
  have h1 : (0 : Int) < 2 ^ (w - 1) := by positivity
  have h2 : (0 : Int) < 2 ^ w := by positivity
  cases sg
  · simp only [intLow, intHigh, Bool.false_eq_true, if_false]
    omega
  · simp only [intLow, intHigh, if_true]
    omega

theorem clampInt_eq (w : Nat) (sg : Bool) (x : Int) :
    clampInt w sg x = if x < intLow w sg then intLow w sg else if intHigh w sg < x then intHigh w sg else x := by
  have h : clampInt w sg x = max (intLow w sg) (min (intHigh w sg) x) := by
    cases sg <;> rfl
  have := intLow_le_intHigh w sg
  rw [h]
  split
  · omega
  · split <;> omega

/-- An infinity lies beyond every integer type. -/
theorem clampInt_infinity {t w : Nat} {sg : Bool} (h : intOf t = some (w, sg)) (neg : Bool) :
    clampInt w sg (if neg then -(2 ^ 64 : Int) else 2 ^ 64) = if neg then intLow w sg else intHigh w sg := by
  have hw := width_of_intOf h
  clear h
  revert neg sg
  obtain rfl | rfl | rfl := hw
  · decide
  · decide
  · decide

section
variable {src dst : Nat} (mode : Nat) (sat : Bool) (r x : Nat)

/-- A value of another type than an integer, or for another, is rounded (R155 to R158). -/
theorem cvtValue_rounded (h : intOf src = none ∨ intOf dst = none) :
    cvtValue src dst mode sat r x = ofVal dst mode sat r (typeVal src (x % 2 ^ typeBits src)) := by
  obtain h | h := h
  · simp only [cvtValue, h]
  · cases hs : intOf src with
    | none => simp only [cvtValue, hs]
    | some e => simp only [cvtValue, hs, h]

theorem ofVal_float {k : Fmt} (h : fmtOf dst = some k) (v : Val) :
    ofVal dst mode sat r v = if mode = 4 then k.stochastic sat r v else k.round mode sat v := by
  simp only [ofVal, h]

theorem ofVal_infinity {k : Nat} {sg : Bool} (h : intOf dst = some (k, sg)) (neg : Bool) :
    ofVal dst mode sat r (.inf neg) = ((if neg then intLow k sg else intHigh k sg) % 2 ^ k).toNat := by
  simp only [ofVal, fmtOf_of_intOf h, h, clampInt_infinity h]

theorem ofVal_integer {k : Nat} {sg : Bool} (h : intOf dst = some (k, sg)) {v : Val} (hv : ∀ neg, v ≠ .inf neg) :
    ofVal dst mode sat r v = (clampInt k sg (v.toInt mode) % 2 ^ k).toNat := by
  simp only [ofVal, fmtOf_of_intOf h, h]

/-- Between integer types (R157): exact inside the destination, and clamped with SAT. -/
theorem cvtValue_integers {w k : Nat} {tg sg : Bool} (hs : intOf src = some (w, tg)) (hd : intOf dst = some (k, sg))
    (h : sat = true ∨ clampInt k sg (intVal w tg (x % 2 ^ typeBits src)) = intVal w tg (x % 2 ^ typeBits src)) :
    cvtValue src dst mode sat r x = (clampInt k sg (intVal w tg (x % 2 ^ typeBits src)) % 2 ^ k).toNat := by
  simp only [cvtValue, hs, hd]
  exact if_pos (by simpa using h)

end

/-- Settles O6: the lanes' values with their draws, and what each kind of destination makes of a value. -/
theorem conversionResult : Obligations.ConversionResult := by
  unfold Obligations.ConversionResult
  refine ⟨fun s f slot g i h ho hf hc hr ht => ?_, fun src dst mode r x sat => ?_⟩
  · intro draw result
    have hdraw (l : Nat) : tget (drawn g i) l = draw l := tget_drawn i ht l
    have hresult : result = aluResult s f slot g i (cvtShape i) 0 (cvtLane g i) := by
      refine congrArg (aluResult s f slot g i (cvtShape i) 0) (funext fun l => ?_)
      rw [cvtLane, hdraw]
    obtain ⟨u, k, honly, hdone, hexec⟩ := exec_cvt h ho hf hc hr
    rw [hresult, hdone]
    refine ⟨_, issued k, drawing (drawn g i) (issued k), hexec,
      onlyGroup_trans honly (onlyGroup_afterIssue ..), group_setGroup _ _ _ _, ?_, rfl, fun b => ?_, fun l _ => hdraw l⟩
    · rw [afterIssue_eq, issued_drawing]
      exact group_setGroup _ _ _ _
    · rw [afterIssue_eq, afterIssue_eq, block_setGroup, block_setGroup]
  · intro y
    refine ⟨fun k hk => ?_, fun k sg hk => ?_⟩
    · rw [cvtValue_rounded _ _ _ _ (.inr (intOf_of_fmtOf hk)), ofVal_float _ _ _ hk]
    · intro v low high
      refine ⟨fun hs => ⟨fun hv => ?_, fun neg hv => ?_⟩, fun w tg hs => ?_⟩
      · rw [cvtValue_rounded _ _ _ _ (.inl hs), ofVal_integer _ _ _ hk hv, clampInt_eq]
        rfl
      · rw [cvtValue_rounded _ _ _ _ (.inl hs), hv, ofVal_infinity _ _ _ hk]
        rfl
      · have hle : low ≤ high := intLow_le_intHigh k sg
        have hclamp (n : Int) : clampInt k sg n = if n < low then low else if high < n then high else n := clampInt_eq k sg n
        intro n
        refine ⟨fun h1 h2 => ?_, fun h1 h2 => ?_, fun h1 h2 => ?_⟩
        · have hn : clampInt k sg n = n := by rw [hclamp, if_neg (not_lt.2 h1), if_neg (not_lt.2 h2)]
          rw [cvtValue_integers _ _ _ _ hs hk (.inr hn), hn]
        · rw [cvtValue_integers _ _ _ _ hs hk (.inl h1), hclamp, if_pos h2]
        · rw [cvtValue_integers _ _ _ _ hs hk (.inl h1), hclamp, if_neg (hle.trans_lt h2).not_gt, if_pos h2]

end Sys2Proof.Laws
end

section
/-! PROOF. A load of a function past the 16 VFs, whose Facet list shares registers with the counts of HBM errors (refutes O44). -/

namespace Sys2Proof.Laws

open Sys2Proof Sys2Proof.Machine

/-- The entry of the load, and the load: one word from device address 4,096, which is in stack 1, for function 115. -/
def aliasEntry : Entry := { fn := 115, ring := 0, seq := 0, opcode := 2, user := 0, msix := false }
def aliasLoad : CodeLoad := { fn := 115, ring := 0, seq := 0, dest := 0, len := 16, src := 4096, lower := false }

/-- A word of the cells that holds 7, with an error in its second symbol, which a read corrects and counts (R323, R325). -/
def correctable : BitVec 128 × BitVec 16 := addSymbol 7 0 1 1

/-- A machine that runs, with Facet 0 at position 0 and no position assigned to function 115: its TEN_FACETS is HBM_CE of
stack 1, and that count is 0. -/
def aliasState : State :=
  { State.reset with
    power := { xtalOk := true, rcActive := false, originLock := 0x3F }
    hbm := { trained := true, cells := ({} : Ram).setWord 256 correctable.1 correctable.2 }
    positions := [some 0]
    entries := [aliasEntry]
    loads := [aliasLoad]
    fns := [(0, { regs := [(Reg.tenRegionA 115 0, 0x80000000), (Reg.tenRegionB 115 0, 0x4000)] }),
      (115, { regs := [(Reg.locusCfg 0, 0x80000000)] })] }

/-- The function has no Facet, and the conditions of a CODE_LOAD that completes hold. -/
theorem aliasState_ready : aliasState.entry? 115 0 0 = some aliasEntry ∧ aliasState.registered 115 0 = true ∧
    aliasState.loads.find? (fun l => l.fn == 115 && l.ring == 0 && l.seq == 0 && !l.lower) = some aliasLoad ∧
    aliasState.translate 115 aliasLoad.src = some 4096 ∧ aliasState.agentGate 4096 aliasLoad.len false = none ∧
    (aliasState.agentRead 4096 aliasLoad.len).2.2 = [] ∧ aliasLoad.dest + aliasLoad.len ≤ 262144 ∧ aliasState.logical 115 = [] := by
  decide +kernel

theorem aliasState_code (f : Nat) :
    Memory.wf (aliasState.facet f).code = true ∧ ∀ w, (aliasState.facet f).code.mark w = 0 := ⟨rfl, fun _ => rfl⟩

/-- The first byte of Facet 0's code store after a command. -/
def codeByteAfter (x : Out) : Option Byte :=
  match x with
  | .next t => some ((t.facet 0).code.byte 0)
  | _ => none

/-- The read of the image corrects a word; the count then names position 0, and Facet 0 takes the image. -/
theorem aliasState_loaded : codeByteAfter (exec (.codeLoadComplete 115 0 0) aliasState) = some 7 := by decide +kernel

/-- Refutes O44: the statement takes any number for a function, and the registers of TEN_FACETS are laid out for VF1 to VF16 only. Of
function 115 they are those of HBM_CE, which the read of the image counts up, so that a Facet outside the list takes the image. -/
theorem not_entriesComplete : ¬ Obligations.EntriesComplete := by
  unfold Obligations.EntriesComplete
  rintro ⟨-, hloads, -⟩
  obtain ⟨hentry, hring, hfind, htrans, hgate, hbad, hlen, hnone⟩ := aliasState_ready
  obtain ⟨hload, -⟩ := hloads aliasState 115 0 0 aliasLoad aliasEntry hentry hring aliasState_code
  obtain ⟨t, hexec, -, -, hbyte⟩ := hload hfind 4096 htrans hgate hbad hlen
  have hkept : (t.facet 0).code.byte 0 = 0 := by
    rw [hbyte 0 0, hnone]
    rfl
  have hloaded := aliasState_loaded
  rw [hexec, codeByteAfter, hkept] at hloaded
  exact absurd hloaded (by decide)

end Sys2Proof.Laws
end
